-- ==== Sys2Proof/Word.lean ====
section
/-! DEFINITION. The word types of the H618, and the table of fixed size that holds one value for each of a
fixed number of like things (walls, segments, booths, seats, samples). -/

namespace Sys2Proof

/-- One byte of a control port message (08). -/
abbrev Byte := BitVec 8

/-- A two-byte quantity of a command (R196). -/
abbrev Half := BitVec 16

/-- A hall clock value, deadline, stamp or counter of 32 bits (00, "Time"; R67, R148). -/
abbrev Clock := BitVec 32

/-- An audio sample: 24 bits, two's complement (00, "Audio and gain arithmetic"). -/
abbrev Sample := BitVec 24

/-- `n` values of one kind, numbered from 0. Entry `i` belongs to the thing the manual numbers `i + 1`. -/
structure Tab (n : Nat) (α : Type) where
  items : List α
  length_eq : items.length = n
  deriving DecidableEq, Repr

/-- The table whose entry `i` is `f i`. -/
def Tab.ofFn {n : Nat} {α : Type} (f : Fin n → α) : Tab n α :=
  ⟨List.ofFn f, List.length_ofFn⟩

/-- The table with the same value everywhere. -/
def Tab.replicate (n : Nat) {α : Type} (a : α) : Tab n α :=
  ⟨List.replicate n a, List.length_replicate⟩

/-- The entry at `i`. -/
def Tab.get {n : Nat} {α : Type} (t : Tab n α) (i : Fin n) : α :=
  t.items.get (i.cast t.length_eq.symm)

/-- The table with `a` at `i`. -/
def Tab.set {n : Nat} {α : Type} (t : Tab n α) (i : Fin n) (a : α) : Tab n α :=
  ⟨t.items.set i.val a, by rw [List.length_set, t.length_eq]⟩

/-- The table with the entry at `i` changed by `f`. -/
def Tab.modify {n : Nat} {α : Type} (t : Tab n α) (i : Fin n) (f : α → α) : Tab n α :=
  t.set i (f (t.get i))

/-- The table with every entry changed by `f`. -/
def Tab.map {n : Nat} {α β : Type} (f : α → β) (t : Tab n α) : Tab n β :=
  ⟨t.items.map f, by rw [List.length_map, t.length_eq]⟩

/-- 48 samples: one frame of one audio signal (00, "Frame"). -/
abbrev Audio := Tab 48 Sample

/-- 48 samples of 0. -/
def silence : Audio := Tab.replicate 48 0

end Sys2Proof
end

