-- ==== Sys2Proof/Machine/Bytes.lean ====
section
/-! DEFINITION. Bytes on the line: order of multi-byte values, sums, flags (00, "Numbers on the line"; R193, R196). -/

namespace Sys2Proof.Machine

/-- The two bytes of a quantity, most significant first. -/
def halfBytes (h : Half) : List Byte :=
  [h.extractLsb' 8 8, h.extractLsb' 0 8]

/-- The quantity whose bytes are `hi` and `lo`. -/
def halfOf (hi lo : Byte) : Half :=
  hi ++ lo

/-- The four bytes of a time or count, most significant first. -/
def clockBytes (c : Clock) : List Byte :=
  [c.extractLsb' 24 8, c.extractLsb' 16 8, c.extractLsb' 8 8, c.extractLsb' 0 8]

/-- The two bytes of a natural number below 65,536. -/
def natHalf (n : Nat) : List Byte :=
  halfBytes (BitVec.ofNat 16 n)

/-- The four bytes of a natural number below 2^32. -/
def natClock (n : Nat) : List Byte :=
  clockBytes (BitVec.ofNat 32 n)

/-- A flag (R196). -/
def flagByte (b : Bool) : Byte :=
  if b then 1 else 0

/-- The number of a thing as the manual writes it: entry `i` is number `i + 1`. -/
def num {n : Nat} (i : Fin n) : Byte :=
  BitVec.ofNat 8 (i.val + 1)

/-- The number of a thing, 0 when absent (R196). -/
def numOrZero {n : Nat} : Option (Fin n) → Byte
  | none => 0
  | some i => num i

/-- A time, 0 when absent (R196). -/
def clockOrZero : Option Clock → List Byte
  | none => clockBytes 0
  | some c => clockBytes c

/-- The sum of bytes modulo 256. -/
def byteSum (bytes : List Byte) : Byte :=
  bytes.foldr (· + ·) 0

/-- A message with its sum byte, so that all its bytes add up to 0 modulo 256 (08). -/
def withSum (body : List Byte) : List Byte :=
  body ++ [-byteSum body]

end Sys2Proof.Machine
end

