-- ==== Sys2Proof/Syntax.lean ====
section
/-! DEFINITION. The commands and events of the H618: one constructor of `Instr` for each row of
spec/opcode_table.json, with the operands the row's rules give it. Operands that a room controller sends are kept
as the bytes on the line, since a value outside its range is answered and not impossible (R193, R196). -/

namespace Sys2Proof

/-- Segment S1 to S6, as 0 to 5. A room is named by its anchor segment (00, "Identities"). -/
abbrev Segment := Fin 6

/-- Control port P1 to P6; port Pn belongs to segment Sn (R1). -/
abbrev Port := Fin 6

/-- Trunk T1 to T6; trunk Tn serves segment Sn (R1). -/
abbrev TrunkId := Fin 6

/-- Wall W1 to W7, as 0 to 6 (R1). -/
abbrev WallId := Fin 7

/-- Seat 1 to 240, as 0 to 239 (00, "Identities"). -/
abbrev SeatId := Fin 240

/-- Booth B1 to B8, as 0 to 7. -/
abbrev BoothId := Fin 8

/-- Language slot 1 to 6 of a room, as 0 to 5. -/
abbrev Slot := Fin 6

/-- Tap K1 to K4, as 0 to 3. -/
abbrev TapId := Fin 4

/-- Channel 1 to 16 of a trunk, as 0 to 15. -/
abbrev Channel := Fin 16

/-- Position 1 to 40 on a trunk, as 0 to 39. -/
abbrev Position := Fin 40

/-- The state of a wall or the level at its sense input (R2). -/
inductive WallState where
  | closed
  | opened
  deriving DecidableEq, Repr

/-- The levels of all seven walls. -/
abbrev WallMap := Tab 7 WallState

/-- One frame of a booth input: the tally of the console and 48 samples (R116). -/
structure BoothFrame where
  tally : Bool
  audio : Audio
  deriving DecidableEq, Repr

/-- The kinds of seat event (R38). -/
inductive EventKind where
  | hello
  | bye
  | talk
  | priorityDown
  | priorityUp
  | nextKey
  deriving DecidableEq, Repr

/-- One event of an uplink frame: a position as sent, a kind and a toggle (R38). -/
structure UplinkEvent where
  position : Nat
  kind : EventKind
  toggle : Bool
  deriving DecidableEq, Repr

/-- One uplink frame (R38): the returned check word, the events, the audio of channels 1 to 16. -/
structure UplinkFrame where
  word : BitVec 16
  events : List UplinkEvent
  audio : Tab 16 Audio
  deriving DecidableEq, Repr

/-- The parts of one commit whose order the manual leaves open (R29, R57, R95, R159; 09, "Notice order at the commit"):
the shares of the mix engine, the floor controller, the booth allocator, the tap table and each trunk interface, and
the start test that may begin the next repartition. -/
inductive CommitShare where
  | mix
  | floor
  | booths
  | taps
  | trunk (t : TrunkId)
  | startTest
  deriving DecidableEq, Repr

/-- The three samples that decide one bit of a character; `true` is a high line (R173). -/
structure BitSamples where
  first : Bool
  second : Bool
  third : Bool
  deriving DecidableEq, Repr

/-- The commands and events: the rows of spec/opcode_table.json, in the table's order. -/
inductive Instr where
  /-- The reset input: `none` is that it goes low, or stays low; with levels, it goes high, at once after a low pulse or
  after a time at low, and `levels` are the wall inputs at that moment (R197, R2). -/
  | powerOnReset (levels : Option WallMap)
  /-- A rising edge of the frame clock, `micros` after the last edge taken, with the wall inputs and the booth
  inputs of the frame; `none` is a booth input with no readable frame (R138, R198, R3, R116). -/
  | frameEvent (micros : Nat) (levels : WallMap) (booths : Tab 8 (Option BoothFrame))
  | debounceEnd (wall : WallId)
  | consentExpiry (wall : WallId)
  | warmingExpiry (trunk : TrunkId)
  | holdExpiry (trunk : TrunkId)
  | deadlineExpiry (seat : SeatId)
  | releaseEnd (seat : SeatId)
  | readyReport (room : Segment)
  /-- The commit; `order` is the order in which its open shares are taken. -/
  | commit (order : List CommitShare)
  | uplinkFrame (trunk : TrunkId) (frame : UplinkFrame)
  | missingFrame (trunk : TrunkId)
  | messageArrival (port : Port)
  | portReset (port : Port)
  | messageSent (port : Port)
  | attach (port : Port) (tag : Byte)
  | detach (port : Port) (tag : Byte)
  | setHall (port : Port) (tag : Byte) (wallSettle trunkStart trunkHold : Half)
  | readHall (port : Port) (tag : Byte)
  | readClock (port : Port) (tag : Byte)
  | setWall (port : Port) (tag : Byte) (wall mode : Byte)
  | readWall (port : Port) (tag : Byte) (wall : Byte)
  | readRoom (port : Port) (tag : Byte) (room : Byte)
  | setProfile (port : Port) (tag : Byte) (floorMode maxOpen requestCap : Byte) (speechLimit levelFloor roomGain : Half)
  | readProfile (port : Port) (tag : Byte) (segment : Byte)
  | trunkPower (port : Port) (tag : Byte) (trunk switch : Byte)
  | trunkRestart (port : Port) (tag : Byte) (trunk : Byte)
  | trunkTest (port : Port) (tag : Byte) (trunk : Byte)
  | snapshot (port : Port) (tag : Byte) (trunk : Byte)
  | readTrunk (port : Port) (tag : Byte) (trunk : Byte)
  | setSeat (port : Port) (tag : Byte) (seat enabled chair : Byte)
  | readSeat (port : Port) (tag : Byte) (seat : Byte)
  /-- GRANT with a seat byte; the byte 0 spells GRANT NEXT on the line (R81, R196). -/
  | grant (port : Port) (tag : Byte) (seat replace : Byte)
  | grantNext (port : Port) (tag : Byte) (replace : Byte)
  | close (port : Port) (tag : Byte) (seat : Byte)
  | deny (port : Port) (tag : Byte) (seat : Byte)
  | enqueue (port : Port) (tag : Byte) (seat : Byte)
  | clear (port : Port) (tag : Byte) (selector : Byte)
  | priorityCancel (port : Port) (tag : Byte) (seat : Byte)
  | readFloor (port : Port) (tag : Byte) (room selector start count : Byte)
  | assignBooth (port : Port) (tag : Byte) (booth language slot : Byte)
  | releaseBooth (port : Port) (tag : Byte) (booth : Byte)
  | setRelay (port : Port) (tag : Byte) (booth source : Byte)
  | readBooth (port : Port) (tag : Byte) (booth : Byte)
  | setPaGain (port : Port) (tag : Byte) (segment : Byte) (gain : Half)
  | joinTap (port : Port) (tag : Byte) (tap kind number : Byte)
  | leaveTap (port : Port) (tag : Byte) (tap : Byte)
  | readTap (port : Port) (tag : Byte) (tap : Byte)
  /-- A candidate start bit and its check samples 7, 8 and 9 (R173). -/
  | startBit (port : Port) (samples : BitSamples)
  /-- Sample 153 of a character: the samples of data bits 1 to 8 and of the stop bit, as entries 0 to 8 (R173). -/
  | characterComplete (port : Port) (samples : Tab 9 BitSamples)
  | lineHighInLowWait (port : Port)
  | breakWaitEnd (port : Port)
  deriving DecidableEq, Repr

end Sys2Proof
end

