-- ==== Sys2Proof/Decode.lean ====
section
/-! DEFINITION. The bytes of a command message: decoding (R193) and encoding (08, "Command layouts"). The rows of
spec/opcode_table.json give no bits, so `decodeTableWord` reads no command from a word. -/

namespace Sys2Proof

open Machine (halfOf halfBytes withSum)

/-- The commands that take no argument byte. -/
def decode0 (p : Port) (tag code : Byte) : Option Instr :=
  if code = 0x01 then some (.attach p tag)
  else if code = 0x02 then some (.detach p tag)
  else if code = 0x04 then some (.readHall p tag)
  else if code = 0x05 then some (.readClock p tag)
  else none

/-- The commands that take one argument byte. -/
def decode1 (p : Port) (tag code a : Byte) : Option Instr :=
  if code = 0x11 then some (.readWall p tag a)
  else if code = 0x12 then some (.readRoom p tag a)
  else if code = 0x14 then some (.readProfile p tag a)
  else if code = 0x21 then some (.trunkRestart p tag a)
  else if code = 0x22 then some (.trunkTest p tag a)
  else if code = 0x23 then some (.snapshot p tag a)
  else if code = 0x24 then some (.readTrunk p tag a)
  else if code = 0x26 then some (.readSeat p tag a)
  else if code = 0x31 then some (.close p tag a)
  else if code = 0x32 then some (.deny p tag a)
  else if code = 0x33 then some (.enqueue p tag a)
  else if code = 0x34 then some (.clear p tag a)
  else if code = 0x35 then some (.priorityCancel p tag a)
  else if code = 0x41 then some (.releaseBooth p tag a)
  else if code = 0x43 then some (.readBooth p tag a)
  else if code = 0x52 then some (.leaveTap p tag a)
  else if code = 0x53 then some (.readTap p tag a)
  else none

/-- The commands that take two argument bytes. Seat 0 of GRANT means NEXT (R196). -/
def decode2 (p : Port) (tag code a b : Byte) : Option Instr :=
  if code = 0x10 then some (.setWall p tag a b)
  else if code = 0x20 then some (.trunkPower p tag a b)
  else if code = 0x30 then (if a = 0 then some (.grantNext p tag b) else some (.grant p tag a b))
  else if code = 0x42 then some (.setRelay p tag a b)
  else none

/-- The commands that take three argument bytes. -/
def decode3 (p : Port) (tag code a b c : Byte) : Option Instr :=
  if code = 0x25 then some (.setSeat p tag a b c)
  else if code = 0x40 then some (.assignBooth p tag a b c)
  else if code = 0x50 then some (.setPaGain p tag a (halfOf b c))
  else if code = 0x51 then some (.joinTap p tag a b c)
  else none

/-- The command of a code and its argument bytes; none for an unknown code or a wrong count (R193). -/
def decodeArgs (p : Port) (tag code : Byte) : List Byte → Option Instr
  | [] => decode0 p tag code
  | [a] => decode1 p tag code a
  | [a, b] => decode2 p tag code a b
  | [a, b, c] => decode3 p tag code a b c
  | [a, b, c, d] => if code = 0x36 then some (.readFloor p tag a b c d) else none
  | [a, b, c, d, e, f] => if code = 0x03 then some (.setHall p tag (halfOf a b) (halfOf c d) (halfOf e f)) else none
  | [a, b, c, d, e, f, g, h, i] =>
    if code = 0x13 then some (.setProfile p tag a b c (halfOf d e) (halfOf f g) (halfOf h i)) else none
  | _ => none

/-- The command that a message of port `p` carries: code, tag, arguments and the sum byte (R193). -/
def decodeCommand (p : Port) : List Byte → Option Instr
  | code :: tag :: rest => decodeArgs p tag code rest.dropLast
  | _ => none

/-- The code, tag and arguments of a command as a room controller sends them; none for an event. -/
def commandBody : Instr → Option (List Byte)
  | .attach _ tag => some [0x01, tag]
  | .detach _ tag => some [0x02, tag]
  | .setHall _ tag a b c => some (0x03 :: tag :: (halfBytes a ++ halfBytes b ++ halfBytes c))
  | .readHall _ tag => some [0x04, tag]
  | .readClock _ tag => some [0x05, tag]
  | .setWall _ tag a b => some [0x10, tag, a, b]
  | .readWall _ tag a => some [0x11, tag, a]
  | .readRoom _ tag a => some [0x12, tag, a]
  | .setProfile _ tag a b c d e f => some (0x13 :: tag :: a :: b :: c :: (halfBytes d ++ halfBytes e ++ halfBytes f))
  | .readProfile _ tag a => some [0x14, tag, a]
  | .trunkPower _ tag a b => some [0x20, tag, a, b]
  | .trunkRestart _ tag a => some [0x21, tag, a]
  | .trunkTest _ tag a => some [0x22, tag, a]
  | .snapshot _ tag a => some [0x23, tag, a]
  | .readTrunk _ tag a => some [0x24, tag, a]
  | .setSeat _ tag a b c => some [0x25, tag, a, b, c]
  | .readSeat _ tag a => some [0x26, tag, a]
  | .grant _ tag a b => some [0x30, tag, a, b]
  | .grantNext _ tag b => some [0x30, tag, 0, b]
  | .close _ tag a => some [0x31, tag, a]
  | .deny _ tag a => some [0x32, tag, a]
  | .enqueue _ tag a => some [0x33, tag, a]
  | .clear _ tag a => some [0x34, tag, a]
  | .priorityCancel _ tag a => some [0x35, tag, a]
  | .readFloor _ tag a b c d => some [0x36, tag, a, b, c, d]
  | .assignBooth _ tag a b c => some [0x40, tag, a, b, c]
  | .releaseBooth _ tag a => some [0x41, tag, a]
  | .setRelay _ tag a b => some [0x42, tag, a, b]
  | .readBooth _ tag a => some [0x43, tag, a]
  | .setPaGain _ tag a g => some (0x50 :: tag :: a :: halfBytes g)
  | .joinTap _ tag a b c => some [0x51, tag, a, b, c]
  | .leaveTap _ tag a => some [0x52, tag, a]
  | .readTap _ tag a => some [0x53, tag, a]
  | .powerOnReset _ | .frameEvent _ _ _ | .debounceEnd _ | .consentExpiry _ | .warmingExpiry _ | .holdExpiry _
  | .deadlineExpiry _ | .releaseEnd _ | .readyReport _ | .commit _ | .uplinkFrame _ _ | .missingFrame _
  | .messageArrival _ | .portReset _ | .messageSent _ | .startBit _ _ | .characterComplete _ _
  | .lineHighInLowWait _ | .breakWaitEnd _ => none

/-- The bytes of a command message, the sum byte included (08, "Envelopes"). -/
def encodeCommand (i : Instr) : Option (List Byte) :=
  (commandBody i).map withSum

/-- The port that issues a command; none for an event. -/
def commandPort : Instr → Option Port
  | .attach p _ | .detach p _ | .setHall p _ _ _ _ | .readHall p _ | .readClock p _ | .setWall p _ _ _
  | .readWall p _ _ | .readRoom p _ _ | .setProfile p _ _ _ _ _ _ _ | .readProfile p _ _ | .trunkPower p _ _ _
  | .trunkRestart p _ _ | .trunkTest p _ _ | .snapshot p _ _ | .readTrunk p _ _ | .setSeat p _ _ _ _
  | .readSeat p _ _ | .grant p _ _ _ | .grantNext p _ _ | .close p _ _ | .deny p _ _ | .enqueue p _ _
  | .clear p _ _ | .priorityCancel p _ _ | .readFloor p _ _ _ _ _ | .assignBooth p _ _ _ _ | .releaseBooth p _ _
  | .setRelay p _ _ _ | .readBooth p _ _ | .setPaGain p _ _ _ | .joinTap p _ _ _ _ | .leaveTap p _ _
  | .readTap p _ _ => some p
  | .powerOnReset _ | .frameEvent _ _ _ | .debounceEnd _ | .consentExpiry _ | .warmingExpiry _ | .holdExpiry _
  | .deadlineExpiry _ | .releaseEnd _ | .readyReport _ | .commit _ | .uplinkFrame _ _ | .missingFrame _
  | .messageArrival _ | .portReset _ | .messageSent _ | .startBit _ _ | .characterComplete _ _
  | .lineHighInLowWait _ | .breakWaitEnd _ => none

/-- No row of the table gives bits, so no word spells a command. -/
def decodeTableWord (_nbits _w : Nat) : Option Instr :=
  none

end Sys2Proof
end

