-- ==== Sys2Proof/Config.lean ====
section
/-! DEFINITION. The constants the manual fixes. The manual leaves no result value open, so this file declares no
free value. -/

namespace Sys2Proof.Config

/-- The life of a consent record in frames (R9). -/
def consentWindow : Clock := 10000

/-- The capacity of a speaker list (R65). -/
def speakerCap : Nat := 10

/-- The entries of the shared request pool (R67). -/
def poolSize : Nat := 96

/-- The capacity of a holder set (R97). -/
def holderCap : Nat := 4

/-- The capacity of a release set (R148). -/
def releaseCap : Nat := 6

/-- The capacity of an intake queue (R56). -/
def intakeCap : Nat := 8

/-- The places of a reply queue (R185). -/
def replyCap : Nat := 4

/-- The places of a notice queue (R189). -/
def noticeCap : Nat := 32

/-- The bytes of a message buffer (R175). -/
def bufferCap : Nat := 64

/-- The value at which the live counters stop (R47). -/
def counterTop : Nat := 4294967295

/-- Unity of gains, weights, fades and PA gains (00, "Audio and gain arithmetic"). -/
def unity : Nat := 4096

/-- The step of a gain ramp and of a fade in one frame (R145, R157). -/
def rampStep : Nat := 256

/-- The greatest level estimate (R143). -/
def levelTop : Nat := 32768

/-- The least time in microseconds from one taken edge of the frame clock to the next (R198). -/
def edgeGap : Nat := 900

end Sys2Proof.Config
end

