-- ==== Sys2Proof/Machine/State.lean ====
section
/-! DEFINITION. The state of the H618, block by block, and its values after power-on reset. -/

namespace Sys2Proof.Machine

/-! ### Partition controller (01) -/

/-- The mode of a wall (R2). -/
inductive WallMode where
  | sensed
  | forcedOpen
  | forcedClosed
  deriving DecidableEq, Repr

/-- A consent record: the pending half of a two-port request (R2, R9). -/
structure Consent where
  requester : Segment
  expiry : Clock
  deriving DecidableEq, Repr

/-- A wall record (R2). -/
structure Wall where
  mode : WallMode
  raw : WallState
  sensed : WallState
  changeTime : Option Clock
  consent : Option Consent
  effective : WallState
  committed : WallState
  deriving DecidableEq, Repr

/-- The status of a room (R16). -/
inductive RoomStatus where
  | steady
  | draining
  deriving DecidableEq, Repr

/-- A room record (R16). The anchor is the index under which the room table holds it; `members` is in ascending
order. -/
structure Room where
  members : List Segment
  lead : Option Port
  status : RoomStatus
  deriving DecidableEq, Repr

/-- The floor mode of a profile (R19). -/
inductive FloorMode where
  | direct
  | autoQueue
  | chair
  deriving DecidableEq, Repr

/-- A segment profile (R19). -/
structure Profile where
  floorMode : FloorMode
  maxOpen : Nat
  requestCap : Nat
  speechLimit : Nat
  levelFloor : Nat
  roomGain : Nat
  deriving DecidableEq, Repr

/-- The hall settings in milliseconds (R22). -/
structure HallSettings where
  wallSettle : Nat
  trunkStart : Nat
  trunkHold : Nat
  deriving DecidableEq, Repr

/-- What the partition controller holds while it is DRAINING (R24): the target map, the anchors of the affected
rooms, and those of them reported ready. -/
structure Repartition where
  target : WallMap
  affected : List Segment
  ready : List Segment
  deriving DecidableEq, Repr

/-! ### Trunk interfaces and seat table (02) -/

/-- The power state of a trunk (R32). -/
inductive Power where
  | unpowered
  | warming
  | live
  deriving DecidableEq, Repr

/-- The supervision state of a LIVE trunk (R32). -/
inductive Supervision where
  | hunt
  | confirm
  | locked
  deriving DecidableEq, Repr

/-- The four counters of a trunk (R32, R47). -/
structure Counters where
  lockedFrames : Nat
  erroredFrames : Nat
  bitErrors : Nat
  syncLosses : Nat
  deriving DecidableEq, Repr

/-- An event held in an intake queue (R56). -/
structure HeldEvent where
  seat : SeatId
  kind : EventKind
  toggle : Bool
  deriving DecidableEq, Repr

/-- A trunk interface (R32). Stage k of the generator and of the predictor is bit k - 1. `audio` is the channel
audio of the frame period, absent where R141 makes the sources silent. -/
structure Trunk where
  power : Power
  warmDeadline : Option Clock
  supervision : Option Supervision
  generator : BitVec 15
  predictor : BitVec 15
  confirmCount : Nat
  blockPos : Nat
  blockErrors : Nat
  linkUp : Bool
  holdDeadline : Option Clock
  testPending : Bool
  live : Counters
  snap : Counters
  snapTime : Clock
  channels : Tab 16 (Option SeatId)
  intake : List HeldEvent
  holding : Bool
  acks : Tab 40 (Option Bool)
  refusals : Tab 40 Bool
  audio : Option (Tab 16 Audio)
  deriving DecidableEq, Repr

/-- A seat record (R58); an unknown toggle is `none`. -/
structure Seat where
  online : Bool
  enabled : Bool
  chair : Bool
  lastToggle : Option Bool
  deriving DecidableEq, Repr

/-- The indicator of a position (R52). -/
inductive Indicator where
  | idle
  | requested
  | speaking
  | suspended
  deriving DecidableEq, Repr

/-- The seat fields of one position in a downlink frame (R52). -/
structure SeatFields where
  online : Bool
  indicator : Indicator
  channel : Option Channel
  refusal : Bool
  ack : Option Bool
  deriving DecidableEq, Repr

/-! ### Floor controller (03, 04) -/

/-- The state of a speaker entry (R65). -/
inductive SpeakerState where
  | opened
  | suspended
  deriving DecidableEq, Repr

/-- A speaker entry (R65) with the speaker state that the mix engine keeps for it, the level L and the gain g
(R140, R147). -/
structure Speaker where
  seat : SeatId
  grantTime : Clock
  state : SpeakerState
  chairAtGrant : Bool
  byPriority : Bool
  deadline : Option Clock
  remaining : Option Nat
  level : Nat
  gain : Nat
  deriving DecidableEq, Repr

/-- A request entry (R67). -/
structure Request where
  seat : SeatId
  stamp : Clock
  returned : Bool
  deriving DecidableEq, Repr

/-- A priority holder (R97). -/
structure Holder where
  seat : SeatId
  pressTime : Clock
  deriving DecidableEq, Repr

/-- A floor record (R64). -/
structure Floor where
  speakers : List Speaker
  queue : List Request
  holders : List Holder
  deriving DecidableEq, Repr

/-! ### Booth allocator (05) -/

/-- Why a booth stands by (R114). -/
inductive StandbyReason where
  | duplicateLanguage
  | noSlot
  deriving DecidableEq, Repr

/-- The allocation of a booth (R114). -/
inductive Allocation where
  | unassigned
  | standby (reason : StandbyReason)
  | onAir (slot : Slot)
  deriving DecidableEq, Repr

/-- A booth record (R114); a source of `none` is FLOOR. -/
structure Booth where
  assignment : Option Segment
  language : Option Byte
  preferred : Option Slot
  source : Option BoothId
  live : Bool
  allocation : Allocation
  deriving DecidableEq, Repr

/-- A slot map of a room (R121). -/
abbrev SlotMap := Tab 6 (Option BoothId)

/-! ### Mix engine (06) -/

/-- The phase of a fade (R157). -/
inductive FadePhase where
  | full
  | falling
  | silent
  | rising
  deriving DecidableEq, Repr

/-- A release entry (R148). `fresh` says that no frame has been computed since the entry was made; an entry ends at a
frame (R150; log entry 6). -/
structure Release where
  seat : SeatId
  gain : Nat
  stamp : Clock
  fresh : Bool
  deriving DecidableEq, Repr

/-- What the mix engine holds for a room (R140). -/
structure MixRoom where
  fade : Nat
  phase : FadePhase
  clip : Bool
  release : List Release
  deriving DecidableEq, Repr

/-- The source of a tap (R166). -/
inductive TapSource where
  | floor
  | slot (s : Slot)
  | boothOut (b : BoothId)
  | boothFeed (b : BoothId)
  deriving DecidableEq, Repr

/-- A joined tap (R166). -/
structure Tap where
  source : TapSource
  owner : Segment
  deriving DecidableEq, Repr

/-- The signals of a room in one frame: the floor mix (R154) and the six slot signals (R161). -/
structure RoomSignals where
  floorMix : Audio
  slots : Tab 6 Audio
  deriving DecidableEq, Repr

/-- A downlink frame (R36). -/
structure Downlink where
  word : BitVec 16
  fields : Tab 40 SeatFields
  signals : RoomSignals
  deriving DecidableEq, Repr

/-! ### Port controllers (07) and messages (08) -/

/-- The reply codes (08, "Reply codes"). -/
inductive ReplyCode where
  | done
  | adjusted
  | pending
  | badArgument
  | notAttached
  | notSegment
  | notLead
  | notAdjacent
  | peerAbsent
  | busyRepartition
  | noSuch
  | seatBusy
  | floorFull
  | priorityActive
  | queueFull
  | poolFull
  | wrongMode
  | boothTaken
  | notSameRoom
  | relayLoop
  | relayDepth
  | tapTaken
  | trunkNotLive
  | notOwner
  deriving DecidableEq, Repr

/-- A reply: the tag of its command, its code, and the result bytes made at the command's arrival (R185, R194). -/
structure Reply where
  tag : Byte
  code : ReplyCode
  results : List Byte
  deriving DecidableEq, Repr

/-- The consent states of a CONSENT notice (R9). -/
inductive ConsentEvent where
  | pending
  | cancelled
  | expired
  deriving DecidableEq, Repr

/-- The changes of a FLOOR notice (R70). -/
inductive FloorChange where
  | granted
  | closed
  | queued
  | dequeued
  | suspended
  | resumed
  deriving DecidableEq, Repr

/-- The reasons of a FLOOR notice (R70; 08, "Codes"). -/
inductive FloorReason where
  | none
  | bySeat
  | byCommand
  | timeUp
  | seatOffline
  | trunkLost
  | trunkOff
  | priorityBump
  | priorityEnd
  | replaced
  | mergeTrim
  | cancelled
  | denied
  | cleared
  | modeDirect
  deriving DecidableEq, Repr

/-- The causes of a SEAT notice (R59). -/
inductive SeatCause where
  | online
  | restart
  | offline
  deriving DecidableEq, Repr

/-- The causes of a RELAY notice (R129). -/
inductive RelayCause where
  | set
  | reverted
  deriving DecidableEq, Repr

/-- The causes of a TAP notice (R170). -/
inductive TapCause where
  | left
  | released
  deriving DecidableEq, Repr

/-- The causes of a LINK_FAULT notice (R190). -/
inductive FaultCause where
  | line
  | tooLong
  | short
  | sum
  | overrun
  deriving DecidableEq, Repr

/-- The kinds of notice with their fields (08, "Notice layouts"). -/
inductive NoticeBody where
  | room (anchor : Segment) (members : List Segment) (lead : Option Port) (status : RoomStatus)
  | wall (wall : WallId) (mode : WallMode) (sensed effective committed : WallState)
  | consent (wall : WallId) (event : ConsentEvent) (requester : Segment) (expiry : Clock)
  | floor (room : Segment) (seat : SeatId) (change : FloorChange) (reason : FloorReason)
  | priority (room : Segment) (held : Bool)
  | trunk (trunk : TrunkId) (power : Power) (supervision : Option Supervision) (linkUp : Bool) (hold : Option Clock)
  | seat (seat : SeatId) (online enabled chair : Bool) (cause : SeatCause)
  | booth (booth : BoothId) (anchor room : Option Segment) (language : Option Byte) (preferred : Option Slot)
      (allocation : Allocation) (source : Option BoothId)
  | relay (booth : BoothId) (source : Option BoothId) (depth : Nat) (cause : RelayCause)
  | tap (tap : TapId) (source : TapSource) (owner : Segment) (cause : TapCause)
  | clip (room : Segment)
  | hall (settings : HallSettings)
  | linkFault (cause : FaultCause) (tag : Byte)
  | overflow
  deriving DecidableEq, Repr

/-- A notice: the hall clock of the event that made it, and its fields (R188, R195). -/
structure Notice where
  clock : Clock
  body : NoticeBody
  deriving DecidableEq, Repr

/-- The state of a receiver (R172). In CHARACTER, `startNoise` says that the check samples of the start bit
disagreed (R173). -/
inductive Receiver where
  | hunt
  | character (startNoise : Bool)
  | lowWait
  | breakWait
  deriving DecidableEq, Repr

/-- The transmitter: idle, or sending the bytes of the oldest reply or of the oldest notice (R186). -/
inductive Transmitter where
  | idle
  | reply (bytes : List Byte)
  | notice (bytes : List Byte)
  deriving DecidableEq, Repr

/-- A port record (R172). -/
structure PortRec where
  attached : Bool
  receiver : Receiver
  buffer : List Byte
  lineFault : Bool
  tooLong : Bool
  gapRunning : Bool
  replies : List Reply
  notices : List Notice
  overflow : Bool
  transmitter : Transmitter
  deriving DecidableEq, Repr

/-! ### The whole part -/

/-- The state of the part. Tables over segments hold, for what belongs to a room, the room's data at its anchor;
an entry whose segment is no anchor is blank. -/
structure State where
  /-- The commands that are waiting, first in, first out. -/
  pending : List Instr
  /-- The reset input is held low (R197). -/
  held : Bool
  /-- The hall clock (R138). -/
  clock : Clock
  /-- Whether an edge of the frame clock has been taken since reset (R198). -/
  edgeSeen : Bool
  /-- WALL_SETTLE in force at the last frame event (R4). -/
  settleAtFrame : Nat
  walls : Tab 7 Wall
  hall : HallSettings
  profiles : Tab 6 Profile
  /-- The room table (R15, R16). -/
  rooms : Tab 6 (Option Room)
  /-- What a repartition in progress holds; `none` is STEADY (R24). -/
  repartition : Option Repartition
  trunks : Tab 6 Trunk
  seats : Tab 240 Seat
  /-- The floor record of each room (R64). -/
  floors : Tab 6 Floor
  /-- The free entries of the request pool (R67). -/
  poolFree : Nat
  /-- The request stamp counter (R68). -/
  stampCounter : Clock
  booths : Tab 8 Booth
  slotMaps : Tab 6 SlotMap
  mixes : Tab 6 MixRoom
  /-- The release counter (R148). -/
  releaseCounter : Clock
  /-- The PA gain of each segment (R164). -/
  paGains : Tab 6 Nat
  taps : Tab 4 (Option Tap)
  ports : Tab 6 PortRec
  /-- The signals of each room in the last frame (R154, R161). -/
  signals : Tab 6 RoomSignals
  /-- The listen feeds of the last frame (R162). -/
  listen : Tab 8 Audio
  /-- The PA outputs of the last frame (R165). -/
  paOut : Tab 6 Audio
  /-- The tap outputs of the last frame (R168). -/
  tapOut : Tab 4 Audio
  /-- The downlink frame each trunk sent at the last frame event, if it sent one (R36). -/
  downlinks : Tab 6 (Option Downlink)
  deriving DecidableEq, Repr

/-- Why the part would stop with a fault. It has no constructor: the manual describes no condition under which the
part stops. -/
inductive Fault where
  deriving DecidableEq, Repr

/-- Why a command would have no meaning. -/
inductive Refusal where
  /-- Raised by `exec` for a command without a meaning (safe: the run stops). No arm of `exec` raises it. -/
  | notModelled (mnemonic : String)
  deriving DecidableEq, Repr

/-! ### Updates of one part of the state -/

/-- Change the record of port `p`. -/
def State.modPort (s : State) (p : Port) (f : PortRec → PortRec) : State :=
  { s with ports := s.ports.modify p f }

/-- Change the record of wall `w`. -/
def State.modWall (s : State) (w : WallId) (f : Wall → Wall) : State :=
  { s with walls := s.walls.modify w f }

/-- Replace all wall records. -/
def State.setWalls (s : State) (walls : Tab 7 Wall) : State :=
  { s with walls := walls }

/-- Replace the room table. -/
def State.setRooms (s : State) (rooms : Tab 6 (Option Room)) : State :=
  { s with rooms := rooms }

/-- Replace what a repartition holds. -/
def State.setRepartition (s : State) (r : Option Repartition) : State :=
  { s with repartition := r }

/-- Replace the hall settings. -/
def State.setHallSettings (s : State) (h : HallSettings) : State :=
  { s with hall := h }

/-- Replace the profile of a segment. -/
def State.setProfileOf (s : State) (g : Segment) (p : Profile) : State :=
  { s with profiles := s.profiles.set g p }

/-- Change the record of trunk `t`. -/
def State.modTrunk (s : State) (t : TrunkId) (f : Trunk → Trunk) : State :=
  { s with trunks := s.trunks.modify t f }

/-- Change the record of a seat. -/
def State.modSeat (s : State) (i : SeatId) (f : Seat → Seat) : State :=
  { s with seats := s.seats.modify i f }

/-- Change the floor record of the room with anchor `a`. -/
def State.modFloor (s : State) (a : Segment) (f : Floor → Floor) : State :=
  { s with floors := s.floors.modify a f }

/-- Replace all floor records. -/
def State.setFloors (s : State) (floors : Tab 6 Floor) : State :=
  { s with floors := floors }

/-- Set the count of free pool entries. -/
def State.setPoolFree (s : State) (n : Nat) : State :=
  { s with poolFree := n }

/-- Set the request stamp counter. -/
def State.setStampCounter (s : State) (c : Clock) : State :=
  { s with stampCounter := c }

/-- Change the record of a booth. -/
def State.modBooth (s : State) (b : BoothId) (f : Booth → Booth) : State :=
  { s with booths := s.booths.modify b f }

/-- Replace the slot map of the room with anchor `a`. -/
def State.setSlotMap (s : State) (a : Segment) (m : SlotMap) : State :=
  { s with slotMaps := s.slotMaps.set a m }

/-- Change what the mix engine holds for the room with anchor `a`. -/
def State.modMix (s : State) (a : Segment) (f : MixRoom → MixRoom) : State :=
  { s with mixes := s.mixes.modify a f }

/-- Replace what the mix engine holds for every room. -/
def State.setMixes (s : State) (mixes : Tab 6 MixRoom) : State :=
  { s with mixes := mixes }

/-- Set the release counter. -/
def State.setReleaseCounter (s : State) (c : Clock) : State :=
  { s with releaseCounter := c }

/-- Set the PA gain of a segment. -/
def State.setPaGainOf (s : State) (g : Segment) (n : Nat) : State :=
  { s with paGains := s.paGains.set g n }

/-- Replace a tap record. -/
def State.setTapOf (s : State) (k : TapId) (t : Option Tap) : State :=
  { s with taps := s.taps.set k t }

/-! ### Power-on reset -/

/-- A wall record after power-on reset with the given level at its input (R2). -/
def Wall.atReset (level : WallState) : Wall where
  mode := .sensed
  raw := level
  sensed := .closed
  changeTime := if level = .opened then some 0 else none
  consent := none
  effective := .closed
  committed := .closed

/-- The default profile (R19). -/
def Profile.atReset : Profile where
  floorMode := .autoQueue
  maxOpen := 4
  requestCap := 24
  speechLimit := 0
  levelFloor := 256
  roomGain := 4096

/-- The default hall settings (R22). -/
def HallSettings.atReset : HallSettings where
  wallSettle := 500
  trunkStart := 1000
  trunkHold := 250

/-- Counters at 0 (R32). -/
def Counters.zero : Counters where
  lockedFrames := 0
  erroredFrames := 0
  bitErrors := 0
  syncLosses := 0

/-- A trunk interface after power-on reset (R32). -/
def Trunk.atReset : Trunk where
  power := .warming
  warmDeadline := some 1000
  supervision := none
  generator := 0x7FFF
  predictor := 0x7FFF
  confirmCount := 0
  blockPos := 0
  blockErrors := 0
  linkUp := false
  holdDeadline := none
  testPending := false
  live := Counters.zero
  snap := Counters.zero
  snapTime := 0
  channels := Tab.replicate 16 none
  intake := []
  holding := false
  acks := Tab.replicate 40 none
  refusals := Tab.replicate 40 false
  audio := none

/-- A seat record after power-on reset (R58). -/
def Seat.atReset : Seat where
  online := false
  enabled := true
  chair := false
  lastToggle := none

/-- A floor record with three empty collections (R64). -/
def Floor.empty : Floor where
  speakers := []
  queue := []
  holders := []

/-- A booth record after power-on reset (R114). -/
def Booth.atReset : Booth where
  assignment := none
  language := none
  preferred := none
  source := none
  live := false
  allocation := .unassigned

/-- What the mix engine holds for a room after power-on reset (R140). -/
def MixRoom.atReset : MixRoom where
  fade := Config.unity
  phase := .full
  clip := false
  release := []

/-- A port record after power-on reset (R172). -/
def PortRec.atReset : PortRec where
  attached := false
  receiver := .breakWait
  buffer := []
  lineFault := false
  tooLong := false
  gapRunning := false
  replies := []
  notices := []
  overflow := false
  transmitter := .idle

/-- Signals of silence. -/
def RoomSignals.silent : RoomSignals where
  floorMix := silence
  slots := Tab.replicate 6 silence

/-- The state right after the reset input goes high with the given levels at the wall inputs (R197): every block at
the power-on values of its chapter, six single-segment rooms (R15), no command waiting. -/
def State.powerOn (levels : WallMap) : State where
  pending := []
  held := false
  clock := 0
  edgeSeen := false
  settleAtFrame := 500
  walls := levels.map Wall.atReset
  hall := HallSettings.atReset
  profiles := Tab.replicate 6 Profile.atReset
  rooms := Tab.ofFn fun a => some { members := [a], lead := none, status := .steady }
  repartition := none
  trunks := Tab.replicate 6 Trunk.atReset
  seats := Tab.replicate 240 Seat.atReset
  floors := Tab.replicate 6 Floor.empty
  poolFree := Config.poolSize
  stampCounter := 0
  booths := Tab.replicate 8 Booth.atReset
  slotMaps := Tab.replicate 6 (Tab.replicate 6 none)
  mixes := Tab.replicate 6 MixRoom.atReset
  releaseCounter := 0
  paGains := Tab.replicate 6 Config.unity
  taps := Tab.replicate 4 none
  ports := Tab.replicate 6 PortRec.atReset
  signals := Tab.replicate 6 RoomSignals.silent
  listen := Tab.replicate 8 silence
  paOut := Tab.replicate 6 silence
  tapOut := Tab.replicate 4 silence
  downlinks := Tab.replicate 6 none

/-- The machine right after reset. The raw level of a wall is the level at its input when reset ends (R2), which is
the world's; a machine with nothing connected reads OPEN at every input (10). DESIGN CHOICE, log entry 7. -/
def State.reset : State :=
  State.powerOn (Tab.replicate 7 .opened)

end Sys2Proof.Machine
end

