-- ==== Sys2Proof/Machine/Operands.lean ====
section
/-! DEFINITION. The operands of commands as values: identities, codes, flags and quantities (R196, "Value
encodings"). -/

namespace Sys2Proof.Machine

/-- An identity 1 to `n` (R196). -/
def idArg (n : Nat) (b : Byte) : Option (Fin n) :=
  if h : 1 ≤ b.toNat ∧ b.toNat ≤ n then some ⟨b.toNat - 1, by omega⟩ else none

/-- A flag (R196). -/
def flagArg (b : Byte) : Option Bool :=
  if b = 0 then some false else if b = 1 then some true else none

/-- A wall mode (08, "Codes"). -/
def wallModeArg (b : Byte) : Option WallMode :=
  if b = 0 then some .sensed else if b = 1 then some .forcedOpen else if b = 2 then some .forcedClosed else none

/-- A floor mode (08, "Codes"). -/
def floorModeArg (b : Byte) : Option FloorMode :=
  if b = 0 then some .direct else if b = 1 then some .autoQueue else if b = 2 then some .chair else none

/-- The selector of CLEAR: whether speakers and whether requests are removed (R88; 08, "Codes"). -/
def clearArg (b : Byte) : Option (Bool × Bool) :=
  if b = 1 then some (true, false) else if b = 2 then some (false, true) else if b = 3 then some (true, true) else none

/-- The list that READ_FLOOR selects (R89). -/
inductive FloorList where
  | speakers
  | queue
  | holders
  | release
  deriving DecidableEq, Repr

/-- The list selector of READ_FLOOR (08, "Codes"). -/
def floorListArg (b : Byte) : Option FloorList :=
  if b = 0 then some .speakers else if b = 1 then some .queue else if b = 2 then some .holders
  else if b = 3 then some .release else none

/-- The source of JOIN_TAP: a kind with its number (R196). -/
def tapSourceArg (kind number : Byte) : Option TapSource :=
  if kind = 1 then (if number = 0 then some .floor else none)
  else if kind = 2 then (idArg 6 number).map .slot
  else if kind = 3 then (idArg 8 number).map .boothOut
  else if kind = 4 then (idArg 8 number).map .boothFeed
  else none

/-- The source of SET_RELAY: 0 is FLOOR (R126). -/
def relaySourceArg (b : Byte) : Option (Option BoothId) :=
  if b = 0 then some none else (idArg 8 b).map some

/-- A room id of a read: 0 is the issuer's room, whose anchor is `own` (R16, R89). -/
def roomArg (own : Segment) (b : Byte) : Option Segment :=
  if b = 0 then some own else idArg 6 b

/-- A quantity clamped to the nearer end of its range (00, "Refusal, adjustment and reply names"). -/
def clamp (lo hi n : Nat) : Nat :=
  max lo (min hi n)

/-- DONE, or ADJUSTED where a value was clamped. -/
def adjustedIf (changed : Bool) : ReplyCode :=
  if changed then .adjusted else .done

end Sys2Proof.Machine
end

