-- ==== Sys2Proof/Machine/Encoding.lean ====
section
/-! DEFINITION. The code tables and byte layouts of replies and notices (08). -/

namespace Sys2Proof.Machine

/-! ### Codes (08, "Codes", "Reply codes") -/

def wallModeCode : WallMode → Byte
  | .sensed => 0x00
  | .forcedOpen => 0x01
  | .forcedClosed => 0x02

def wallStateCode : WallState → Byte
  | .closed => 0x00
  | .opened => 0x01

def consentCode : ConsentEvent → Byte
  | .pending => 0x01
  | .cancelled => 0x02
  | .expired => 0x03

def statusCode : RoomStatus → Byte
  | .steady => 0x00
  | .draining => 0x01

def floorModeCode : FloorMode → Byte
  | .direct => 0x00
  | .autoQueue => 0x01
  | .chair => 0x02

def powerCode : Power → Byte
  | .unpowered => 0x00
  | .warming => 0x01
  | .live => 0x02

def supervisionCode : Option Supervision → Byte
  | none => 0x00
  | some .hunt => 0x01
  | some .confirm => 0x02
  | some .locked => 0x03

def toggleCode : Option Bool → Byte
  | none => 0xFF
  | some b => flagByte b

def indicatorCode : Indicator → Byte
  | .idle => 0x00
  | .requested => 0x01
  | .speaking => 0x02
  | .suspended => 0x03

def seatCauseCode : SeatCause → Byte
  | .online => 0x01
  | .restart => 0x02
  | .offline => 0x03

def changeCode : FloorChange → Byte
  | .granted => 0x01
  | .closed => 0x02
  | .queued => 0x03
  | .dequeued => 0x04
  | .suspended => 0x05
  | .resumed => 0x06

def reasonCode : FloorReason → Byte
  | .none => 0x00
  | .bySeat => 0x01
  | .byCommand => 0x02
  | .timeUp => 0x03
  | .seatOffline => 0x04
  | .trunkLost => 0x05
  | .trunkOff => 0x06
  | .priorityBump => 0x07
  | .priorityEnd => 0x08
  | .replaced => 0x09
  | .mergeTrim => 0x0A
  | .cancelled => 0x0B
  | .denied => 0x0C
  | .cleared => 0x0D
  | .modeDirect => 0x0E

def allocationCode : Allocation → Byte
  | .unassigned => 0x00
  | .standby _ => 0x01
  | .onAir _ => 0x02

/-- The slot of an ON_AIR booth or the reason of a STANDBY booth. -/
def slotOrReason : Allocation → Byte
  | .unassigned => 0x00
  | .standby .duplicateLanguage => 0x01
  | .standby .noSlot => 0x02
  | .onAir s => num s

def relayCauseCode : RelayCause → Byte
  | .set => 0x01
  | .reverted => 0x02

def tapKindCode : TapSource → Byte
  | .floor => 0x01
  | .slot _ => 0x02
  | .boothOut _ => 0x03
  | .boothFeed _ => 0x04

/-- The slot or booth number of a tap source, 0 for FLOOR. -/
def tapNumber : TapSource → Byte
  | .floor => 0x00
  | .slot s => num s
  | .boothOut b => num b
  | .boothFeed b => num b

def tapCauseCode : TapCause → Byte
  | .left => 0x01
  | .released => 0x02

def faultCauseCode : FaultCause → Byte
  | .line => 0x01
  | .tooLong => 0x02
  | .short => 0x03
  | .sum => 0x04
  | .overrun => 0x05

def replyCode : ReplyCode → Byte
  | .done => 0x00
  | .adjusted => 0x01
  | .pending => 0x02
  | .badArgument => 0x10
  | .notAttached => 0x11
  | .notSegment => 0x12
  | .notLead => 0x13
  | .notAdjacent => 0x14
  | .peerAbsent => 0x15
  | .busyRepartition => 0x16
  | .noSuch => 0x20
  | .seatBusy => 0x21
  | .floorFull => 0x22
  | .priorityActive => 0x23
  | .queueFull => 0x24
  | .poolFull => 0x25
  | .wrongMode => 0x26
  | .boothTaken => 0x30
  | .notSameRoom => 0x31
  | .relayLoop => 0x32
  | .relayDepth => 0x33
  | .tapTaken => 0x34
  | .trunkNotLive => 0x35
  | .notOwner => 0x36

/-- A set of segments in one byte: bit k - 1 for segment k (R196). -/
def memberBits (members : List Segment) : Byte :=
  members.foldr (fun g b => b ||| ((1 : Byte) <<< g.val)) 0

/-! ### Records (08, "Records") -/

/-- The three hall settings (6 bytes). -/
def hallBytes (h : HallSettings) : List Byte :=
  natHalf h.wallSettle ++ natHalf h.trunkStart ++ natHalf h.trunkHold

/-- A profile (9 bytes). -/
def profileBytes (p : Profile) : List Byte :=
  [floorModeCode p.floorMode, BitVec.ofNat 8 p.maxOpen, BitVec.ofNat 8 p.requestCap] ++
    natHalf p.speechLimit ++ natHalf p.levelFloor ++ natHalf p.roomGain

/-- A wall record (14 bytes). -/
def wallBytes (w : Wall) : List Byte :=
  [wallModeCode w.mode, wallStateCode w.raw, wallStateCode w.sensed, wallStateCode w.effective,
    wallStateCode w.committed] ++ clockOrZero w.changeTime ++
    [numOrZero (w.consent.map Consent.requester)] ++ clockOrZero (w.consent.map Consent.expiry)

/-- The four counters (16 bytes). -/
def counterBytes (c : Counters) : List Byte :=
  natClock c.lockedFrames ++ natClock c.erroredFrames ++ natClock c.bitErrors ++ natClock c.syncLosses

/-- A trunk record (48 bytes). -/
def trunkBytes (t : Trunk) : List Byte :=
  [powerCode t.power] ++ clockOrZero t.warmDeadline ++ [supervisionCode t.supervision, flagByte t.linkUp] ++
    clockOrZero t.holdDeadline ++ [BitVec.ofNat 8 t.intake.length] ++ counterBytes t.snap ++ clockBytes t.snapTime ++
    t.channels.items.map numOrZero

/-- The state and flags byte of a speaker entry. -/
def speakerFlags (e : Speaker) : Byte :=
  (if e.state = .suspended then 1 else 0) ||| (if e.chairAtGrant then 2 else 0) ||| (if e.byPriority then 4 else 0) |||
    (if e.deadline.isSome then 8 else 0) ||| (if e.remaining.isSome then 16 else 0)

/-- A speaker entry of a floor page (14 bytes). -/
def speakerBytes (e : Speaker) : List Byte :=
  [num e.seat] ++ clockBytes e.grantTime ++ [speakerFlags e] ++ clockOrZero e.deadline ++
    natClock (e.remaining.getD 0)

/-- A request entry of a floor page (6 bytes). -/
def requestBytes (q : Request) : List Byte :=
  [num q.seat] ++ clockBytes q.stamp ++ [flagByte q.returned]

/-- A holder of a floor page (5 bytes). -/
def holderBytes (h : Holder) : List Byte :=
  [num h.seat] ++ clockBytes h.pressTime

/-- A release entry of a floor page (3 bytes). -/
def releaseBytes (e : Release) : List Byte :=
  [num e.seat] ++ natHalf e.gain

/-- Bytes 1 to 8 of a booth record. -/
def boothHead (b : BoothId) (anchor room : Option Segment) (language : Option Byte) (preferred : Option Slot)
    (allocation : Allocation) (source : Option BoothId) : List Byte :=
  [num b, numOrZero anchor, numOrZero room, language.getD 0, numOrZero preferred, allocationCode allocation,
    slotOrReason allocation, numOrZero source]

/-! ### Notices (08, "Notice layouts") -/

/-- The code of a notice kind. -/
def kindCode : NoticeBody → Byte
  | .room .. => 0x01
  | .wall .. => 0x02
  | .consent .. => 0x03
  | .floor .. => 0x04
  | .priority .. => 0x05
  | .trunk .. => 0x06
  | .seat .. => 0x07
  | .booth .. => 0x08
  | .relay .. => 0x09
  | .tap .. => 0x0A
  | .clip .. => 0x0B
  | .hall .. => 0x0C
  | .linkFault .. => 0x0D
  | .overflow => 0x0E

/-- The fields of a notice. -/
def noticeFields : NoticeBody → List Byte
  | .room a members lead status => [num a, memberBits members, numOrZero lead, statusCode status]
  | .wall w mode sensed effective committed =>
    [num w, wallModeCode mode, wallStateCode sensed, wallStateCode effective, wallStateCode committed]
  | .consent w event requester expiry => [num w, consentCode event, num requester] ++ clockBytes expiry
  | .floor a seat change reason => [num a, num seat, changeCode change, reasonCode reason]
  | .priority a held => [num a, flagByte held]
  | .trunk t power supervision linkUp hold =>
    [num t, powerCode power, supervisionCode supervision, flagByte linkUp] ++ clockOrZero hold
  | .seat seat online enabled chair cause =>
    [num seat, flagByte online, flagByte enabled, flagByte chair, seatCauseCode cause]
  | .booth b anchor room language preferred allocation source =>
    boothHead b anchor room language preferred allocation source
  | .relay b source depth cause => [num b, numOrZero source, BitVec.ofNat 8 depth, relayCauseCode cause]
  | .tap k source owner cause => [num k, tapKindCode source, tapNumber source, num owner, tapCauseCode cause]
  | .clip a => [num a]
  | .hall h => hallBytes h
  | .linkFault cause tag => [faultCauseCode cause, tag]
  | .overflow => []

/-- The bytes of a notice (08, "Envelopes"). -/
def noticeBytes (n : Notice) : List Byte :=
  withSum ([0xE1, kindCode n.body] ++ clockBytes n.clock ++ noticeFields n.body)

/-- The bytes of a reply whose free notice places byte is `free` (08, "Envelopes"; R187). -/
def replyBytes (free : Nat) (r : Reply) : List Byte :=
  withSum ([0xE0, r.tag, replyCode r.code, BitVec.ofNat 8 free] ++ r.results)

end Sys2Proof.Machine
end

