-- ==== Sys2Proof/Machine/Ops.lean ====
section
/-! DEFINITION. The shared operations: comparisons of hall clock values, ordered lists, the room relation, notices,
replies and the transmitters. -/

namespace Sys2Proof.Machine

/-! ### Hall clock values (00, "Time") -/

/-- A deadline has been reached: the clock minus the deadline, read as signed, is zero or positive. -/
def reached (now deadline : Clock) : Bool :=
  decide (0 ≤ (now - deadline).toInt)

/-- The age of a grant or press time: the clock minus the time, read as unsigned (R65, R97). -/
def age (now time : Clock) : Nat :=
  (now - time).toNat

/-- A stamp is earlier than another (R67, R148). -/
def stampEarlier (a b : Clock) : Bool :=
  decide ((a - b).toInt < 0)

/-! ### Ordered lists -/

/-- Insert `x` in front of the first element it comes before. -/
def insertBy {α : Type} (before : α → α → Bool) (x : α) : List α → List α
  | [] => [x]
  | y :: ys => if before x y then x :: y :: ys else y :: insertBy before x ys

/-- Order a list by `before`; elements of which neither comes before the other keep their order. -/
def sortBy {α : Type} (before : α → α → Bool) (l : List α) : List α :=
  l.foldl (fun acc x => insertBy before x acc) []

/-- The order of a speaker list: by grant time, then by seat number (R65). -/
def speakerBefore (now : Clock) (x y : Speaker) : Bool :=
  decide (age now y.grantTime < age now x.grantTime) ||
    (age now x.grantTime == age now y.grantTime && decide (x.seat < y.seat))

/-- The order of a request queue: returned entries first, then by stamp (R67). -/
def requestBefore (x y : Request) : Bool :=
  (x.returned && !y.returned) || (x.returned == y.returned && stampEarlier x.stamp y.stamp)

/-- The order of a holder set: by press time, then by seat number (R97). -/
def holderBefore (now : Clock) (x y : Holder) : Bool :=
  decide (age now y.pressTime < age now x.pressTime) ||
    (age now x.pressTime == age now y.pressTime && decide (x.seat < y.seat))

/-- The order of a release set: by release stamp (R148). -/
def releaseBefore (x y : Release) : Bool :=
  stampEarlier x.stamp y.stamp

/-! ### Identities and rooms -/

def allSegments : List Segment := List.finRange 6
def allWalls : List WallId := List.finRange 7
def allBooths : List BoothId := List.finRange 8
def allTaps : List TapId := List.finRange 4

/-- The segment of a seat, that of its trunk (00, "Identities"; R58). -/
def segmentOf (seat : SeatId) : Segment :=
  ⟨seat.val / 40, by omega⟩

/-- The position of a seat on its trunk. -/
def positionOf (seat : SeatId) : Position :=
  ⟨seat.val % 40, by omega⟩

/-- The seat at a position of a trunk. -/
def seatAt (t : TrunkId) (pos : Position) : SeatId :=
  ⟨t.val * 40 + pos.val, by omega⟩

/-- The members of the room with anchor `a`, none where `a` is no anchor. -/
def membersOf (s : State) (a : Segment) : List Segment :=
  match s.rooms.get a with
  | some r => r.members
  | none => []

/-- The anchor of the room that contains a segment (R15, R16). -/
def roomOf (s : State) (g : Segment) : Segment :=
  (allSegments.find? fun a => (membersOf s a).contains g).getD g

/-- The anchor of the room that contains a seat's segment (R58). -/
def seatRoom (s : State) (seat : SeatId) : Segment :=
  roomOf s (segmentOf seat)

/-- Whether the room with anchor `a` is DRAINING (R16). -/
def isDraining (s : State) (a : Segment) : Bool :=
  match s.rooms.get a with
  | some r => r.status == .draining
  | none => false

/-- The lead port of the room with anchor `a` (R17). -/
def leadOf (s : State) (a : Segment) : Option Port :=
  match s.rooms.get a with
  | some r => r.lead
  | none => none

/-- The profile of the room with anchor `a` (R19). -/
def profileOf (s : State) (a : Segment) : Profile :=
  s.profiles.get a

/-- The floor record of the room with anchor `a` (R64). -/
def floorOf (s : State) (a : Segment) : Floor :=
  s.floors.get a

/-- Whether a port is ATTACHED (R172). -/
def isAttached (s : State) (p : Port) : Bool :=
  (s.ports.get p).attached

/-- Whether a port is the lead of the room that contains its own segment (R182, class LEAD). -/
def isLead (s : State) (p : Port) : Bool :=
  leadOf s (roomOf s p) == some p

/-! ### Notices (R188, R189) -/

/-- One copy of a notice at the notice queue of a port (R189). -/
def PortRec.enqueue (n : Notice) (r : PortRec) : PortRec :=
  if r.overflow then r
  else if r.notices.length + 2 ≤ Config.noticeCap then { r with notices := r.notices ++ [n] }
  else if r.notices.length + 1 = Config.noticeCap then
    { r with notices := r.notices ++ [{ clock := n.clock, body := .overflow }], overflow := true }
  else r

/-- A copy addressed to a port: queued if the port is ATTACHED, and otherwise nothing is kept (R188). -/
def PortRec.deliver (n : Notice) (r : PortRec) : PortRec :=
  if r.attached then r.enqueue n else r

/-- Send a notice of this event to each port of a list (R188). -/
def notify (ports : List Port) (body : NoticeBody) (s : State) : State :=
  { s with
    ports := Tab.ofFn fun p =>
      if ports.contains p then (s.ports.get p).deliver { clock := s.clock, body := body } else s.ports.get p }

/-- Send a notice to the member ports of the room with anchor `a`. -/
def notifyRoom (a : Segment) (body : NoticeBody) (s : State) : State :=
  notify (membersOf s a) body s

/-- The ROOM notice of the room with anchor `a`, to its member ports (R18). -/
def sendRoom (a : Segment) (s : State) : State :=
  match s.rooms.get a with
  | some r => notify r.members (.room a r.members r.lead r.status) s
  | none => s

/-! ### Replies and the transmitter (R184 to R187) -/

/-- The number of free notice places that a reply reports (R187). -/
def PortRec.freePlaces (r : PortRec) : Nat :=
  if r.overflow then 0 else Config.noticeCap - r.notices.length

/-- An idle transmitter takes the oldest reply, or else the oldest notice (R186). -/
def PortRec.startSending (r : PortRec) : PortRec :=
  match r.transmitter with
  | .idle =>
    match r.replies, r.notices with
    | q :: _, _ => { r with transmitter := .reply (replyBytes r.freePlaces q) }
    | [], n :: _ => { r with transmitter := .notice (noticeBytes n) }
    | [], [] => r
  | .reply _ | .notice _ => r

/-- At the end of an event every idle transmitter takes its next message (R186). -/
def startTransmitters (s : State) : State :=
  { s with ports := s.ports.map PortRec.startSending }

/-- The outcome of an event that leaves the part in state `s`. -/
def finish (s : State) : Host.Outcome State Fault Refusal :=
  .next (startTransmitters s)

/-- An event or command with its effect. While the reset input is held low no frame event is taken and no input is read,
so nothing but the reset input itself has an effect (R197). -/
def carryOut (effect : State → State) (s : State) : Host.Outcome State Fault Refusal :=
  if s.held then .next s else finish (effect s)

/-- Queue a reply (R184). -/
def pushReply (p : Port) (r : Reply) (s : State) : State :=
  s.modPort p fun q => { q with replies := q.replies ++ [r] }

/-- What a command's own rule answers: a code, the result bytes and the state after its effects. -/
structure Answer where
  code : ReplyCode
  results : List Byte
  state : State

/-- A refusal: the code, no results, nothing changed (R191, R194). -/
def refuse (code : ReplyCode) (s : State) : Answer :=
  { code := code, results := [], state := s }

/-- The checks that are the same for every command, then the command's own rule, then its reply (R178, R179,
R184). `read` says that the command is ATTACH or a read, which a DETACHED port may send. -/
def serve (p : Port) (tag : Byte) (read : Bool) (rule : State → Answer) (s : State) : State :=
  if Config.replyCap ≤ (s.ports.get p).replies.length then notify [p] (.linkFault .overrun tag) s
  else if !read && !isAttached s p then pushReply p { tag := tag, code := .notAttached, results := [] } s
  else
    let a := rule s
    pushReply p { tag := tag, code := a.code, results := a.results } a.state

end Sys2Proof.Machine
end

