-- ==== Sys2Proof/Machine/Booths.lean ====
section
/-! DEFINITION. The booth allocator and the tap table: assignment, allocation, relay, taps, and their commands (05; 06,
R166 to R171). -/

namespace Sys2Proof.Machine

/-! ### Booths and rooms (R115) -/

/-- The room a booth belongs to (R115). -/
def boothRoom (s : State) (b : BoothId) : Option Segment :=
  (s.booths.get b).assignment.map (roomOf s)

/-- The booths of the room with anchor `a`, in the allocator's order: by anchor segment, then by number (R121). -/
def boothsInOrder (s : State) (a : Segment) : List BoothId :=
  (membersOf s a).flatMap fun g => allBooths.filter fun b => (s.booths.get b).assignment == some g

/-! ### Relay (R125, R127) -/

/-- The number of relay hops from a booth to FLOOR, following at most `n` sources. -/
def depthWithin : Nat → State → BoothId → Nat
  | 0, _, _ => 0
  | n + 1, s, b =>
    match (s.booths.get b).source with
    | none => 0
    | some k => depthWithin n s k + 1

/-- The relay depth of a booth (R125). Eight booths allow no longer chain without a loop. -/
def relayDepth (s : State) (b : BoothId) : Nat :=
  depthWithin 8 s b

/-- The booths relaying from a booth (R125). -/
def relayingFrom (s : State) (b : BoothId) : List BoothId :=
  allBooths.filter fun x => (s.booths.get x).source == some b

/-- The height of a booth, looking at most `n` hops downstream. -/
def heightWithin : Nat → State → BoothId → Nat
  | 0, _, _ => 0
  | n + 1, s, b => ((relayingFrom s b).map fun x => heightWithin n s x + 1).foldl max 0

/-- The height of a booth (R125). -/
def relayHeight (s : State) (b : BoothId) : Nat :=
  heightWithin 8 s b

/-- Whether the chain of sources from `k` reaches `b`, looking at `n` booths. -/
def reachesWithin : Nat → State → BoothId → BoothId → Bool
  | 0, _, _, _ => false
  | n + 1, s, k, b =>
    k == b ||
      match (s.booths.get k).source with
      | none => false
      | some k' => reachesWithin n s k' b

/-- The loop test of a SET_RELAY of `b` to source `k` fails (R127). -/
def relayLoops (s : State) (b k : BoothId) : Bool :=
  reachesWithin 8 s k b

/-- The depth test of a SET_RELAY of `b` to source `k` fails (R127). -/
def relayTooDeep (s : State) (b k : BoothId) : Bool :=
  decide (2 < relayDepth s k + 1 + relayHeight s b)

/-- A RELAY notice of a booth, to the member ports of its room (R129). -/
def relayNotice (a : Segment) (b : BoothId) (cause : RelayCause) (s : State) : State :=
  notifyRoom a (.relay b (s.booths.get b).source (relayDepth s b) cause) s

/-- A reversion of a booth of the room with anchor `a` (R130). -/
def revertRelay (a : Segment) (b : BoothId) (s : State) : State :=
  relayNotice a b .reverted (s.modBooth b fun r => { r with source := none })

/-- Revert several booths, in the order given. -/
def revertRelays (a : Segment) (bs : List BoothId) (s : State) : State :=
  bs.foldl (fun s b => revertRelay a b s) s

/-! ### The allocator (R119, R121) -/

/-- A BOOTH notice of a booth, to the member ports of the room with anchor `a` (R119). -/
def boothNotice (a : Segment) (b : BoothId) (s : State) : State :=
  let r := s.booths.get b
  notifyRoom a (.booth b r.assignment (boothRoom s b) r.language r.preferred r.allocation r.source) s

/-- The allocation of one booth, given the map and the languages on the air so far (R121). -/
def allocate (map : SlotMap) (onAir : List Byte) (r : Booth) : Allocation :=
  if onAir.any fun l => r.language == some l then .standby .duplicateLanguage
  else
    match r.preferred with
    | some slot =>
      if map.get slot == none then .onAir slot
      else
        match allSegments.find? fun x => map.get x == none with
        | some x => .onAir x
        | none => .standby .noSlot
    | none => .standby .noSlot

/-- A run over the booths that remain: their allocations, in order, and the slot map (R121). -/
def allocateAll (s : State) : List BoothId → SlotMap → List Byte → List (BoothId × Allocation) × SlotMap
  | [], map, _ => ([], map)
  | b :: rest, map, onAir =>
    let r := s.booths.get b
    let al := allocate map onAir r
    let next :=
      match al with
      | .onAir slot => allocateAll s rest (map.set slot (some b)) (onAir ++ r.language.toList)
      | .standby _ | .unassigned => allocateAll s rest map onAir
    ((b, al) :: next.1, next.2)

/-- Write the allocations of a run into the booth records. -/
def writeAllocations (run : List (BoothId × Allocation)) (s : State) : State :=
  run.foldl (fun s x => s.modBooth x.1 fun r => { r with allocation := x.2 }) s

/-- A run of the allocator for the room with anchor `a`: allocations, slot map, and a BOOTH notice for each booth
whose allocation differs from that in `before` (R119, R121). -/
def runAllocator (a : Segment) (before : State) (s : State) : State :=
  let run := allocateAll s (boothsInOrder s a) (Tab.replicate 6 none) []
  let s1 := (writeAllocations run.1 s).setSlotMap a run.2
  let changed := (run.1.filter fun x => (before.booths.get x.1).allocation != x.2).map Prod.fst
  changed.foldl (fun s b => boothNotice a b s) s1

/-! ### Taps (R166, R170) -/

/-- The booth of a booth source. -/
def tapBooth : TapSource → Option BoothId
  | .floor | .slot _ => none
  | .boothOut b | .boothFeed b => some b

/-- A TAP notice of a tap, to its owner port (R170). -/
def tapNotice (k : TapId) (t : Tap) (cause : TapCause) (s : State) : State :=
  notify [t.owner] (.tap k t.source t.owner cause) s

/-- Free a joined tap where `free` says so, with TAP(released) (R170). -/
def releaseTapIf (free : State → Tap → Bool) (s : State) (k : TapId) : State :=
  match s.taps.get k with
  | some t => if free s t then tapNotice k t .released (s.setTapOf k none) else s
  | none => s

/-- Whether a tap carries a booth that is no booth of the tap's room (R170). -/
def boothLeftRoom (s : State) (t : Tap) : Bool :=
  match tapBooth t.source with
  | some b => boothRoom s b != some (roomOf s t.owner)
  | none => false

/-! ### Records -/

/-- A booth record (08, "Booth record"; R137). -/
def boothBytes (s : State) (b : BoothId) : List Byte :=
  let r := s.booths.get b
  boothHead b r.assignment (boothRoom s b) r.language r.preferred r.allocation r.source ++
    [BitVec.ofNat 8 (relayDepth s b), BitVec.ofNat 8 (relayingFrom s b).length, flagByte r.live]

/-- A tap record (08, "Tap record"; R171). -/
def tapBytes (s : State) (k : TapId) : List Byte :=
  match s.taps.get k with
  | some t => [num k, 1, tapKindCode t.source, tapNumber t.source, num t.owner, num (roomOf s t.owner)]
  | none => [num k, 0, 0, 0, 0, 0]

/-! ### Booth commands -/

/-- The checks of a LEAD command that come after its argument check: the issuer is the lead of its room, and the room
is STEADY (R81, R117, R182). `rule` is given the anchor of the issuer's room. -/
def leadCommand (p : Port) (rule : Segment → State → Answer) (s : State) : Answer :=
  if !isLead s p then refuse .notLead s
  else if isDraining s (roomOf s p) then refuse .busyRepartition s
  else rule (roomOf s p) s

/-- ASSIGN_BOOTH (R117, R118). -/
def ruleAssignBooth (p : Port) (booth language slot : Byte) (s : State) : Answer :=
  match idArg 8 booth with
  | none => refuse .badArgument s
  | some b =>
    if language = 0 then refuse .badArgument s
    else
      leadCommand p (fun a s =>
        if (s.booths.get b).assignment.isSome && boothRoom s b != some a then refuse .boothTaken s
        else
          let stored := clamp 1 6 slot.toNat
          let s1 := s.modBooth b fun r =>
            { r with assignment := some p, language := some language, preferred := idArg 6 (BitVec.ofNat 8 stored) }
          let s2 := runAllocator a s s1
          { code := adjustedIf (stored != slot.toNat), results := boothBytes s2 b, state := s2 }) s

/-- A booth of the issuer's room: NO_SUCH for an unassigned booth, NOT_SAME_ROOM for another room's (R120, R126). -/
def ownBooth (a : Segment) (b : BoothId) (rule : State → Answer) (s : State) : Answer :=
  if (s.booths.get b).assignment == none then refuse .noSuch s
  else if boothRoom s b != some a then refuse .notSameRoom s
  else rule s

/-- A booth's record when it is released (R120 step 1). -/
def releasedBooth (r : Booth) : Booth :=
  { r with assignment := none, language := none, preferred := none, source := none, allocation := .unassigned }

/-- The effect of a RELEASE_BOOTH, steps 1 to 5 of R120. -/
def releaseBoothOf (a : Segment) (b : BoothId) (s : State) : State :=
  let s1 := s.modBooth b releasedBooth
  let s2 := revertRelays a (relayingFrom s1 b) s1
  let s3 := allTaps.foldl (releaseTapIf fun _ t => tapBooth t.source == some b) s2
  let s4 := boothNotice a b s3
  runAllocator a s4 s4

/-- RELEASE_BOOTH (R120). -/
def ruleReleaseBooth (p : Port) (booth : Byte) (s : State) : Answer :=
  match idArg 8 booth with
  | none => refuse .badArgument s
  | some b =>
    leadCommand p (fun a s =>
      ownBooth a b (fun s =>
        { code := .done
          results := [BitVec.ofNat 8 (relayingFrom (s.modBooth b releasedBooth) b).length]
          state := releaseBoothOf a b s }) s) s

/-- The tests of a SET_RELAY whose source is a booth (R126, R127). -/
def relayCheck (s : State) (a : Segment) (b : BoothId) : Option BoothId → Option ReplyCode
  | none => none
  | some k =>
    if boothRoom s k != some a then some .notSameRoom
    else if relayLoops s b k then some .relayLoop
    else if relayTooDeep s b k then some .relayDepth
    else none

/-- SET_RELAY (R126 to R128). -/
def ruleSetRelay (p : Port) (booth source : Byte) (s : State) : Answer :=
  match idArg 8 booth, relaySourceArg source with
  | some b, some k =>
    leadCommand p (fun a s =>
      ownBooth a b (fun s =>
        match relayCheck s a b k with
        | some code => refuse code s
        | none =>
          let s1 :=
            if (s.booths.get b).source = k then s
            else relayNotice a b .set (s.modBooth b fun r => { r with source := k })
          { code := .done, results := [BitVec.ofNat 8 (relayDepth s1 b)], state := s1 }) s) s
  | _, _ => refuse .badArgument s

/-- READ_BOOTH (R137). -/
def ruleReadBooth (booth : Byte) (s : State) : Answer :=
  match idArg 8 booth with
  | none => refuse .badArgument s
  | some b => { code := .done, results := boothBytes s b, state := s }

/-! ### PA gain and tap commands (R164, R167, R169, R171) -/

/-- SET_PA_GAIN (R164). -/
def ruleSetPaGain (p : Port) (segment : Byte) (gain : Half) (s : State) : Answer :=
  match idArg 6 segment with
  | none => refuse .badArgument s
  | some g =>
    if p ≠ g then refuse .notSegment s
    else
      let stored := clamp 0 Config.unity gain.toNat
      { code := adjustedIf (stored != gain.toNat), results := natHalf stored, state := s.setPaGainOf g stored }

/-- JOIN_TAP (R167). -/
def ruleJoinTap (p : Port) (tap kind number : Byte) (s : State) : Answer :=
  match idArg 4 tap, tapSourceArg kind number with
  | some k, some source =>
    let a := roomOf s p
    let joined : Tap := { source := source, owner := p }
    if isDraining s a then refuse .busyRepartition s
    else if (s.taps.get k).isSome then refuse .tapTaken s
    else if boothLeftRoom s joined then refuse .notSameRoom s
    else { code := .done, results := [num a], state := s.setTapOf k (some joined) }
  | _, _ => refuse .badArgument s

/-- LEAVE_TAP (R169). -/
def ruleLeaveTap (p : Port) (tap : Byte) (s : State) : Answer :=
  match idArg 4 tap with
  | none => refuse .badArgument s
  | some k =>
    match s.taps.get k with
    | none => refuse .noSuch s
    | some t =>
      let a := roomOf s t.owner
      if !(t.owner == p || leadOf s a == some p) then refuse .notOwner s
      else if isDraining s a then refuse .busyRepartition s
      else
        let s1 := s.setTapOf k none
        { code := .done, results := [], state := if t.owner = p then s1 else tapNotice k t .left s1 }

/-- READ_TAP (R171). -/
def ruleReadTap (tap : Byte) (s : State) : Answer :=
  match idArg 4 tap with
  | none => refuse .badArgument s
  | some k => { code := .done, results := tapBytes s k, state := s }

/-! ### The commands as they arrive -/

def serveAssignBooth (p : Port) (tag booth language slot : Byte) (s : State) : State :=
  serve p tag false (ruleAssignBooth p booth language slot) s

def serveReleaseBooth (p : Port) (tag booth : Byte) (s : State) : State :=
  serve p tag false (ruleReleaseBooth p booth) s

def serveSetRelay (p : Port) (tag booth source : Byte) (s : State) : State :=
  serve p tag false (ruleSetRelay p booth source) s

def serveReadBooth (p : Port) (tag booth : Byte) (s : State) : State :=
  serve p tag true (ruleReadBooth booth) s

def serveSetPaGain (p : Port) (tag segment : Byte) (gain : Half) (s : State) : State :=
  serve p tag false (ruleSetPaGain p segment gain) s

def serveJoinTap (p : Port) (tag tap kind number : Byte) (s : State) : State :=
  serve p tag false (ruleJoinTap p tap kind number) s

def serveLeaveTap (p : Port) (tag tap : Byte) (s : State) : State :=
  serve p tag false (ruleLeaveTap p tap) s

def serveReadTap (p : Port) (tag tap : Byte) (s : State) : State :=
  serve p tag true (ruleReadTap tap) s

/-- ASSIGN_BOOTH (R117). -/
def execAssignBooth (p : Port) (tag booth language slot : Byte) (s : State) : Host.Outcome State Fault Refusal :=
  carryOut (serveAssignBooth p tag booth language slot) s

/-- RELEASE_BOOTH (R120). -/
def execReleaseBooth (p : Port) (tag booth : Byte) (s : State) : Host.Outcome State Fault Refusal :=
  carryOut (serveReleaseBooth p tag booth) s

/-- SET_RELAY (R126). -/
def execSetRelay (p : Port) (tag booth source : Byte) (s : State) : Host.Outcome State Fault Refusal :=
  carryOut (serveSetRelay p tag booth source) s

/-- READ_BOOTH (R137). -/
def execReadBooth (p : Port) (tag booth : Byte) (s : State) : Host.Outcome State Fault Refusal :=
  carryOut (serveReadBooth p tag booth) s

/-- SET_PA_GAIN (R164). -/
def execSetPaGain (p : Port) (tag segment : Byte) (gain : Half) (s : State) : Host.Outcome State Fault Refusal :=
  carryOut (serveSetPaGain p tag segment gain) s

/-- JOIN_TAP (R167). -/
def execJoinTap (p : Port) (tag tap kind number : Byte) (s : State) : Host.Outcome State Fault Refusal :=
  carryOut (serveJoinTap p tag tap kind number) s

/-- LEAVE_TAP (R169). -/
def execLeaveTap (p : Port) (tag tap : Byte) (s : State) : Host.Outcome State Fault Refusal :=
  carryOut (serveLeaveTap p tag tap) s

/-- READ_TAP (R171). -/
def execReadTap (p : Port) (tag tap : Byte) (s : State) : Host.Outcome State Fault Refusal :=
  carryOut (serveReadTap p tag tap) s

end Sys2Proof.Machine
end

