-- ==== Sys2Proof/Machine/Partition.lean ====
section
/-! DEFINITION. The partition controller: the hall grid, rooms as components, lead ports, consent records, and the
repartition operation up to the drain (01). The commit stands in Machine/Commit.lean. -/

namespace Sys2Proof.Machine

/-! ### The hall grid (R1) -/

/-- The two segments each wall lies between. -/
def wallSides : Tab 7 (Segment × Segment) :=
  ⟨[(0, 1), (1, 2), (3, 4), (4, 5), (0, 3), (1, 4), (2, 5)], rfl⟩

/-- The segments on the two sides of a wall, which are also its adjacent ports. -/
def sidesOf (w : WallId) : List Segment :=
  [(wallSides.get w).1, (wallSides.get w).2]

/-- Whether a segment lies on one side of a wall. -/
def adjacentTo (w : WallId) (g : Segment) : Bool :=
  (sidesOf w).contains g

/-- The segment on the other side of a wall. -/
def otherSide (w : WallId) (g : Segment) : Segment :=
  if (wallSides.get w).1 = g then (wallSides.get w).2 else (wallSides.get w).1

/-! ### Rooms of a wall map (R15) -/

/-- Whether an open wall joins two segments. -/
def joined (m : WallMap) (g h : Segment) : Bool :=
  allWalls.any fun w => m.get w == .opened && adjacentTo w g && adjacentTo w h

/-- The segments of a list and those that one open wall joins to them, in ascending order. -/
def expand (m : WallMap) (l : List Segment) : List Segment :=
  allSegments.filter fun g => l.contains g || l.any fun h => joined m h g

/-- The room of a segment under a wall map: what chains of at most five open walls reach, which is all of it, since
there are six segments. -/
def component (m : WallMap) (g : Segment) : List Segment :=
  expand m (expand m (expand m (expand m (expand m [g]))))

/-- The lowest-numbered segment of the room of `g` under a wall map. -/
def anchorIn (m : WallMap) (g : Segment) : Segment :=
  (component m g).headD g

/-- The anchors of the rooms of a wall map. -/
def anchorsOf (m : WallMap) : List Segment :=
  allSegments.filter fun g => anchorIn m g == g

/-- The committed wall states. -/
def committedMap (s : State) : WallMap :=
  s.walls.map Wall.committed

/-- The effective wall states. -/
def effectiveMap (s : State) : WallMap :=
  s.walls.map Wall.effective

/-! ### Lead ports (R17) -/

/-- The port of the lowest-numbered member whose port is ATTACHED. -/
def electLead (s : State) (members : List Segment) : Option Port :=
  members.find? fun g => isAttached s g

/-- Recompute the lead of the room with anchor `a`; a change gives a ROOM notice (R17, R18). -/
def recomputeLead (a : Segment) (s : State) : State :=
  match s.rooms.get a with
  | some r =>
    let lead := electLead s r.members
    if lead = r.lead then s else sendRoom a (s.setRooms (s.rooms.set a (some { r with lead := lead })))
  | none => s

/-! ### WALL and CONSENT notices (R6, R9) -/

/-- The WALL notice of a wall, to its adjacent ports (R6). -/
def sendWall (w : WallId) (s : State) : State :=
  let r := s.walls.get w
  notify (sidesOf w) (.wall w r.mode r.sensed r.effective r.committed) s

/-- The WALL notices of several walls at one event. DESIGN CHOICE, log entry 28: they are sent in ascending wall number;
R6 and R29 give no order among them. -/
def sendWalls (ws : List WallId) (s : State) : State :=
  ws.foldl (fun s w => sendWall w s) s

/-- Clear the consent record of a wall, if it has one, and send CONSENT(cancelled) to its adjacent ports (R8,
R13). -/
def cancelConsent (w : WallId) (s : State) : State :=
  match (s.walls.get w).consent with
  | some c =>
    notify (sidesOf w) (.consent w .cancelled c.requester c.expiry)
      (s.modWall w fun r => { r with consent := none })
  | none => s

/-- The share of the partition controller in a detach or a reset of port `p`: consent records of adjacent walls are
cancelled and the lead of the port's room is recomputed (R13, R177 step 4, R181). The port is DETACHED already. -/
def portLeft (p : Port) (s : State) : State :=
  let cancelled := (allWalls.filter fun w => adjacentTo w p).foldl (fun s w => cancelConsent w s) s
  recomputeLead (roomOf cancelled p) cancelled

/-! ### The start of a repartition (R25 to R27) -/

/-- The current rooms that are no room of the target map, by anchor (R25). -/
def affectedRooms (s : State) (target : WallMap) : List Segment :=
  allSegments.filter fun a =>
    match s.rooms.get a with
    | some r => !((anchorsOf target).any fun b => component target b == r.members)
    | none => false

/-- The rooms of the target map that are no current room, by anchor (R25). -/
def newRooms (s : State) (target : WallMap) : List Segment :=
  (anchorsOf target).filter fun b =>
    !(allSegments.any fun a =>
      match s.rooms.get a with
      | some r => r.members == component target b
      | none => false)

/-- What the start test finds (R25, R26): nothing to do, the loop case, or the rooms to drain. -/
inductive StartPlan where
  | nothing
  | loop
  | drain (affected : List Segment)
  deriving DecidableEq, Repr

/-- The start test (R25). -/
def startPlan (s : State) : StartPlan :=
  if s.repartition.isSome || effectiveMap s == committedMap s then .nothing
  else
    match affectedRooms s (effectiveMap s) with
    | [] => .loop
    | a :: rest => .drain (a :: rest)

/-- The loop case: the committed states take the effective states, and the rooms are the same (R26). -/
def commitLoop (s : State) : State :=
  s.setWalls (s.walls.map fun r => { r with committed := r.effective })

/-- The walls whose committed states differ in two wall tables. -/
def committedChanged (before after : Tab 7 Wall) : List WallId :=
  allWalls.filter fun w => (before.get w).committed != (after.get w).committed

/-- The room with anchor `a` becomes DRAINING (R27). -/
def markDraining (a : Segment) (s : State) : State :=
  match s.rooms.get a with
  | some r => s.setRooms (s.rooms.set a (some { r with status := .draining }))
  | none => s

/-- Record that the mix engine has reported an affected room ready (R28). -/
def reportReady (a : Segment) (s : State) : State :=
  match s.repartition with
  | some rp =>
    if rp.affected.contains a && !rp.ready.contains a then s.setRepartition (some { rp with ready := rp.ready ++ [a] })
    else s
  | none => s

/-- The mix engine's share of a drain request for one room (R158). -/
def drainMix (a : Segment) (s : State) : State :=
  let m := s.mixes.get a
  match m.phase with
  | .full => s.modMix a fun m => { m with phase := .falling }
  | .rising =>
    if m.fade = 0 then reportReady a (s.modMix a fun m => { m with phase := .silent })
    else s.modMix a fun m => { m with phase := .falling }
  | .falling | .silent => s

/-- A trunk's share of a drain request that names its segment's room (R56). -/
def drainTrunk (t : TrunkId) (s : State) : State :=
  s.modTrunk t fun r => { r with holding := true }

/-- Begin the drain of the affected rooms (R27). The mix engine has not made the rooms of `uncreated` yet: for them the
request takes effect when it does (R158). -/
def beginDrain (uncreated affected : List Segment) (s : State) : State :=
  let s1 := s.setRepartition (some { target := effectiveMap s, affected := affected, ready := [] })
  let s2 := affected.foldl (fun s a => markDraining a s) s1
  let s3 := affected.foldl (fun s a => sendRoom a s) s2
  let s4 := (affected.filter fun a => !uncreated.contains a).foldl (fun s a => drainMix a s) s3
  (affected.flatMap fun a => membersOf s4 a).foldl (fun s t => drainTrunk t s) s4

/-- Carry out the start test where it stands on its own: at the end of a commit (R30). The rooms of `uncreated` are those
that the mix engine has not made yet. -/
def startTest (uncreated : List Segment) (s : State) : State :=
  match startPlan s with
  | .nothing => s
  | .loop =>
    let s1 := commitLoop s
    sendWalls (committedChanged s.walls s1.walls) s1
  | .drain affected => beginDrain uncreated affected s

/-! ### Effective states (R5, R6) -/

/-- The effective state that follows from a mode and a sensed state (R5). -/
def effectiveFor (mode : WallMode) (sensed : WallState) : WallState :=
  match mode with
  | .sensed => sensed
  | .forcedOpen => .opened
  | .forcedClosed => .closed

/-- What follows a change of a wall's mode or sensed state: the effective state is recomputed (R5), one WALL notice
reports the wall as it stands after the event (R6), and a change of effective state is followed by the start test
(R25). In the loop case the committed states change at the same event, and each wall concerned gives one notice
(R6, R26; log entry 14). -/
def settleWall (w : WallId) (s : State) : State :=
  let before := (s.walls.get w).effective
  let s1 := s.modWall w fun r => { r with effective := effectiveFor r.mode r.sensed }
  if (s1.walls.get w).effective = before then sendWall w s1
  else
    match startPlan s1 with
    | .nothing => sendWall w s1
    | .loop =>
      let s2 := commitLoop s1
      sendWalls (allWalls.filter fun x => x == w || (committedChanged s1.walls s2.walls).contains x) s2
    | .drain affected => beginDrain [] affected (sendWall w s1)

end Sys2Proof.Machine
end

