-- ==== Sys2Proof/Machine/Floor.lean ====
section
/-! DEFINITION. The floor controller: speaker lists, request queues, holders, deadlines (03, 04), with the channel
table (02, R50, R51) and the release sets (06, R148 to R151) that its grants and removals act on. -/

namespace Sys2Proof.Machine

/-! ### Channels (R50, R51) and refusal marks (R52) -/

/-- The channel a seat holds in a channel table. -/
def channelIn (channels : Tab 16 (Option SeatId)) (seat : SeatId) : Option Channel :=
  (List.finRange 16).find? fun c => channels.get c == some seat

/-- The lowest-numbered free channel of a channel table. -/
def lowestFree (channels : Tab 16 (Option SeatId)) : Option Channel :=
  (List.finRange 16).find? fun c => channels.get c == none

/-- The channel a seat holds on its trunk (R50). -/
def channelOf (s : State) (seat : SeatId) : Option Channel :=
  channelIn (s.trunks.get (segmentOf seat)).channels seat

/-- Claim a channel for a seat: the one it holds already, or the lowest-numbered free one (R50). A full table, which
R50's note rules out, leaves the seat without a channel (log entry 16). -/
def claimChannel (seat : SeatId) (s : State) : State :=
  s.modTrunk (segmentOf seat) fun t =>
    match channelIn t.channels seat, lowestFree t.channels with
    | none, some c => { t with channels := t.channels.set c (some seat) }
    | _, _ => t

/-- Free the channel of a seat (R51). -/
def freeChannel (seat : SeatId) (s : State) : State :=
  s.modTrunk (segmentOf seat) fun t =>
    { t with channels := t.channels.map fun held => if held == some seat then none else held }

/-- Set the pending refusal mark of a seat (R52). -/
def markRefusal (seat : SeatId) (s : State) : State :=
  s.modTrunk (segmentOf seat) fun t => { t with refusals := t.refusals.set (positionOf seat) true }

/-! ### Release sets (R148 to R151) -/

/-- Whether the room with anchor `a` has a release entry of a seat. -/
def hasRelease (s : State) (a : Segment) (seat : SeatId) : Bool :=
  (s.mixes.get a).release.any fun e => e.seat == seat

/-- A seat's release entry leaves the release set; its channel is not touched (R146). -/
def endRelease (a : Segment) (seat : SeatId) (s : State) : State :=
  s.modMix a fun m => { m with release := m.release.filter fun e => e.seat != seat }

/-- The oldest entries beyond six leave the release set, and their channels are freed (R149, R160). -/
def capRelease (a : Segment) (s : State) : State :=
  let entries := (s.mixes.get a).release
  let excess := entries.length - Config.releaseCap
  (entries.take excess).foldl (fun s e => freeChannel e.seat s)
    (s.modMix a fun m => { m with release := m.release.drop excess })

/-- The oldest entries beyond six, of those in the old room `o` whose seats go to the new room with anchor `a`, leave
the release set of `o`, and their channels are freed: what is left is the newest six, which is what the gathering of R160
leaves too (log entry 4). -/
def capPart (a o : Segment) (s : State) : State :=
  let part := (s.mixes.get o).release.filter fun e => (membersOf s a).contains (segmentOf e.seat)
  let excess := (part.take (part.length - Config.releaseCap)).map Release.seat
  excess.foldl (fun s seat => freeChannel seat s)
    (s.modMix o fun m => { m with release := m.release.filter fun e => !excess.contains e.seat })

/-- Where the release sets stand on which an operation of the floor acts: with the rooms as they are, or, in a commit whose
share of the mix engine is still to come, with the rooms before the commit; `room` gives the anchor of a segment's room
(R159, R160). -/
inductive Sets where
  | current
  | before (room : Segment → Segment)

/-- The anchor under which the release entry of a seat stands, for an operation in the room with anchor `a`. -/
def Sets.roomFor (a : Segment) (seat : SeatId) : Sets → Segment
  | .current => a
  | .before room => room (segmentOf seat)

/-- Create a release entry at the end of the release set (R149). No frame has been computed for it yet. -/
def addRelease (sets : Sets) (a : Segment) (seat : SeatId) (gain : Nat) (s : State) : State :=
  let o := sets.roomFor a seat
  let s1 :=
    (s.modMix o fun m =>
      { m with
        release :=
          m.release ++ [{ seat := seat, gain := gain, stamp := s.releaseCounter, fresh := true }] }).setReleaseCounter
      (s.releaseCounter + 1)
  match sets with
  | .current => capRelease a s1
  | .before _ => capPart a o s1

/-! ### Reading a floor -/

/-- The speaker entry of a seat (R65). -/
def speakerOf (f : Floor) (seat : SeatId) : Option Speaker :=
  f.speakers.find? fun e => e.seat == seat

/-- Whether a seat has a speaker entry. -/
def hasSpeaker (f : Floor) (seat : SeatId) : Bool :=
  f.speakers.any fun e => e.seat == seat

/-- Whether a seat has a request entry. -/
def hasRequest (f : Floor) (seat : SeatId) : Bool :=
  f.queue.any fun q => q.seat == seat

/-- Whether a seat holds priority (R97). -/
def isHolder (f : Floor) (seat : SeatId) : Bool :=
  f.holders.any fun h => h.seat == seat

/-- Priority is held in a room (R97). -/
def priorityHeld (s : State) (a : Segment) : Bool :=
  !(floorOf s a).holders.isEmpty

/-- The open count: the non-chair entries, OPEN and SUSPENDED (R66). -/
def openCount (f : Floor) : Nat :=
  (f.speakers.filter fun e => !e.chairAtGrant).length

/-- Whether the speaker list holds fewer than ten entries. -/
def listHasRoom (f : Floor) : Bool :=
  decide (f.speakers.length < Config.speakerCap)

/-- Whether a place is free for a seat in the room with anchor `a` (R66). -/
def placeFree (s : State) (a : Segment) (seat : SeatId) : Bool :=
  listHasRoom (floorOf s a) &&
    ((s.seats.get seat).chair || decide (openCount (floorOf s a) < (profileOf s a).maxOpen))

/-- Send a FLOOR notice to the room's ports (R70). -/
def floorNotice (a : Segment) (seat : SeatId) (change : FloorChange) (reason : FloorReason) (s : State) : State :=
  notifyRoom a (.floor a seat change reason) s

/-! ### Grant and removal (R75 to R77) -/

/-- A seat's request entry leaves the queue and returns to the pool, without a notice (R75 step 1). -/
def takeRequest (a : Segment) (seat : SeatId) (s : State) : State :=
  if hasRequest (floorOf s a) seat then
    (s.modFloor a fun f => { f with queue := f.queue.eraseP fun q => q.seat == seat }).setPoolFree (s.poolFree + 1)
  else s

/-- The speaker entry that a grant creates (R75 step 2), with its speaker state at L = 0 and g = 0 (R146). -/
def newSpeaker (s : State) (a : Segment) (seat : SeatId) (byPriority : Bool) : Speaker where
  seat := seat
  grantTime := s.clock
  state := .opened
  chairAtGrant := (s.seats.get seat).chair
  byPriority := byPriority
  deadline :=
    if (s.seats.get seat).chair || (profileOf s a).speechLimit == 0 then none
    else some (s.clock + BitVec.ofNat 32 (1000 * (profileOf s a).speechLimit))
  remaining := none
  level := 0
  gain := 0

/-- A grant of a seat in the room with anchor `a` (R75, R146). -/
def grantSeat (sets : Sets) (a : Segment) (seat : SeatId) (reason : FloorReason) (byPriority : Bool) (s : State) :
    State :=
  let s1 := takeRequest a seat s
  let s2 := s1.modFloor a fun f =>
    { f with speakers := insertBy (speakerBefore s.clock) (newSpeaker s a seat byPriority) f.speakers }
  let s3 := claimChannel seat (endRelease (sets.roomFor a seat) seat s2)
  floorNotice a seat .granted reason s3

/-- Whether a removal for this reason moves the gain to the release set; the offline reasons drop it (R76). -/
def keepsGain : FloorReason → Bool
  | .seatOffline | .trunkLost | .trunkOff => false
  | .none | .bySeat | .byCommand | .timeUp | .priorityBump | .priorityEnd | .replaced | .mergeTrim | .cancelled
  | .denied | .cleared | .modeDirect => true

/-- A removal of a speaker entry (R76). The hold of a holder ends with it (R102). -/
def removeSpeaker (sets : Sets) (a : Segment) (seat : SeatId) (reason : FloorReason) (s : State) : State :=
  match speakerOf (floorOf s a) seat with
  | none => s
  | some e =>
    let s1 := s.modFloor a fun f =>
      { f with
        speakers := f.speakers.eraseP fun x => x.seat == seat
        holders := f.holders.filter fun h => h.seat != seat }
    let s2 := floorNotice a seat .closed reason s1
    if keepsGain reason then addRelease sets a seat e.gain s2 else freeChannel seat s2

/-- Whether a removal of a request entry for this reason gives the seat a refusal mark (R77). -/
def marksRefusal : FloorReason → Bool
  | .denied | .modeDirect => true
  | .none | .bySeat | .byCommand | .timeUp | .priorityBump | .priorityEnd | .replaced | .mergeTrim | .cancelled
  | .cleared | .seatOffline | .trunkLost | .trunkOff => false

/-- A removal of a request entry (R77). -/
def removeRequest (a : Segment) (seat : SeatId) (reason : FloorReason) (s : State) : State :=
  if hasRequest (floorOf s a) seat then
    let s1 := floorNotice a seat .dequeued reason (takeRequest a seat s)
    if marksRefusal reason then markRefusal seat s1 else s1
  else s

/-- Remove the request entries of several seats in the order given. -/
def removeRequests (a : Segment) (seats : List SeatId) (reason : FloorReason) (s : State) : State :=
  seats.foldl (fun s seat => removeRequest a seat reason s) s

/-- Create a request entry with the next stamp, drawn from the pool, at the tail of its group (R67, R68, R73). -/
def enqueueSeat (a : Segment) (seat : SeatId) (reason : FloorReason) (s : State) : State :=
  floorNotice a seat .queued reason
    (((s.modFloor a fun f =>
      { f with queue := f.queue ++ [{ seat := seat, stamp := s.stampCounter, returned := false }] }).setPoolFree
        (s.poolFree - 1)).setStampCounter (s.stampCounter + 1))

/-! ### Suspension and resumption (R98, R103) -/

/-- A non-chair OPEN entry suspended at hall clock `now`; other entries are kept (R98). -/
def suspendEntry (now : Clock) (e : Speaker) : Speaker :=
  if e.chairAtGrant || e.state == .suspended then e
  else
    { e with
      state := .suspended
      remaining := e.deadline.map fun d => max 1 (d - now).toInt.toNat
      deadline := none }

/-- A SUSPENDED entry resumed at hall clock `now`; other entries are kept (R103 step 1). -/
def resumeEntry (now : Clock) (e : Speaker) : Speaker :=
  if e.state == .suspended then
    { e with
      state := .opened
      deadline := e.remaining.map fun r => now + BitVec.ofNat 32 r
      remaining := none }
  else e

/-- Send one FLOOR notice without a reason for each seat, in order. -/
def floorNotices (a : Segment) (seats : List SeatId) (change : FloorChange) (s : State) : State :=
  seats.foldl (fun s seat => floorNotice a seat change .none s) s

/-- Suspend every non-chair OPEN entry of a room, in list order (R98). -/
def suspendAll (a : Segment) (s : State) : State :=
  let seats := ((floorOf s a).speakers.filter fun e => !e.chairAtGrant && e.state == .opened).map Speaker.seat
  floorNotices a seats .suspended
    (s.modFloor a fun f => { f with speakers := f.speakers.map (suspendEntry s.clock) })

/-- Resume every SUSPENDED entry of a room, in list order (R103 step 1). -/
def resumeAll (a : Segment) (s : State) : State :=
  let seats := ((floorOf s a).speakers.filter fun e => e.state == .suspended).map Speaker.seat
  floorNotices a seats .resumed
    (s.modFloor a fun f => { f with speakers := f.speakers.map (resumeEntry s.clock) })

/-- Send a PRIORITY notice to the room's ports (R105). -/
def priorityNotice (a : Segment) (held : Bool) (s : State) : State :=
  notifyRoom a (.priority a held) s

/-! ### Auto-advance and the end of the handling (R79, R80, R103) -/

/-- Whether auto-advance may grant the head of the queue (R79). -/
def mayAdvance (s : State) (a : Segment) : Bool :=
  (profileOf s a).floorMode == .autoQueue && decide (openCount (floorOf s a) < (profileOf s a).maxOpen) &&
    listHasRoom (floorOf s a) && !priorityHeld s a && !isDraining s a

/-- Grant heads of the queue, at most `n` of them, as long as R79 allows. -/
def advance (sets : Sets) : Nat → Segment → State → State
  | 0, _, s => s
  | n + 1, a, s =>
    match (floorOf s a).queue with
    | [] => s
    | q :: _ => if mayAdvance s a then advance sets n a (grantSeat sets a q.seat .none false s) else s

/-- Auto-advance (R79). Each grant takes one entry from the queue, so the queue's length bounds the grants. -/
def autoAdvance (sets : Sets) (a : Segment) (s : State) : State :=
  advance sets (floorOf s a).queue.length a s

/-- The end of the handling of an event or command in the room with anchor `a`: resumption where priority was held
before and no holder is left (R103), and auto-advance where the handling started it (R80). -/
def endHandling (sets : Sets) (a : Segment) (wasHeld started : Bool) (s : State) : State :=
  if wasHeld && !priorityHeld s a then autoAdvance sets a (priorityNotice a false (resumeAll a s))
  else if started then autoAdvance sets a s
  else s

/-! ### Seat events at the floor (R71 to R74, R99 to R101) -/

/-- A TALK that enqueues, or is refused (R73). -/
def talkEnqueue (a : Segment) (seat : SeatId) (s : State) : State :=
  if (profileOf s a).requestCap ≤ (floorOf s a).queue.length || s.poolFree == 0 then markRefusal seat s
  else enqueueSeat a seat .bySeat s

/-- A TALK of a non-chair seat with no floor entry (R72). -/
def talkByMode (sets : Sets) (a : Segment) (seat : SeatId) (s : State) : State :=
  match (profileOf s a).floorMode with
  | .direct =>
    if placeFree s a seat && !priorityHeld s a then grantSeat sets a seat .bySeat false s else markRefusal seat s
  | .autoQueue =>
    if placeFree s a seat && (floorOf s a).queue.isEmpty && !priorityHeld s a then grantSeat sets a seat .bySeat false s
    else talkEnqueue a seat s
  | .chair => talkEnqueue a seat s

/-- TALK (R71). -/
def talk (sets : Sets) (a : Segment) (seat : SeatId) (s : State) : State :=
  if hasSpeaker (floorOf s a) seat then
    endHandling sets a (priorityHeld s a) true (removeSpeaker sets a seat .bySeat s)
  else if hasRequest (floorOf s a) seat then removeRequest a seat .cancelled s
  else if (s.seats.get seat).chair then
    (if listHasRoom (floorOf s a) then grantSeat sets a seat .bySeat false s else markRefusal seat s)
  else talkByMode sets a seat s

/-- What a grant answers: a refusal code, or the seat granted and the state after the command. -/
inductive GrantResult where
  | refused (code : ReplyCode)
  | granted (seat : SeatId) (s : State)

/-- Grant a seat where a place is free, or with replace in place of the oldest non-chair speaker (R84). -/
def grantOrReplace (sets : Sets) (a : Segment) (seat : SeatId) (replace : Bool) (s : State) : GrantResult :=
  if placeFree s a seat then .granted seat (grantSeat sets a seat .byCommand false s)
  else if replace then
    match (floorOf s a).speakers.find? fun e => !e.chairAtGrant with
    | some e =>
      let s1 := removeSpeaker sets a e.seat .replaced s
      .granted seat (autoAdvance sets a (grantSeat sets a seat .byCommand false s1))
    | none => .refused .floorFull
  else .refused .floorFull

/-- Whether a seat is of the room with anchor `a`, ONLINE and enabled (R82, R87). -/
def seatInRoom (s : State) (a : Segment) (seat : SeatId) : Bool :=
  (membersOf s a).contains (segmentOf seat) && (s.seats.get seat).online && (s.seats.get seat).enabled

/-- GRANT of a named seat, after the checks of R81 (R82). -/
def grantNamed (a : Segment) (seat : SeatId) (replace : Bool) (s : State) : GrantResult :=
  if priorityHeld s a then .refused .priorityActive
  else if !seatInRoom s a seat then .refused .noSuch
  else if hasSpeaker (floorOf s a) seat then .refused .seatBusy
  else grantOrReplace .current a seat replace s

/-- GRANT NEXT, after the checks of R81 (R83). -/
def grantHead (sets : Sets) (a : Segment) (replace : Bool) (s : State) : GrantResult :=
  if priorityHeld s a then .refused .priorityActive
  else if (profileOf s a).floorMode == .direct then .refused .wrongMode
  else
    match (floorOf s a).queue with
    | [] => .refused .noSuch
    | q :: _ => grantOrReplace sets a q.seat replace s

/-- NEXT of a chair seat: GRANT NEXT without replace, or a refusal mark (R74). -/
def nextKey (sets : Sets) (a : Segment) (seat : SeatId) (s : State) : State :=
  match grantHead sets a false s with
  | .refused _ => markRefusal seat s
  | .granted _ s' => s'

/-- A seat joins the holder set, non-chair OPEN entries are suspended, and PRIORITY on is sent where the set was
empty (R100 steps 3 to 5). -/
def joinHold (a : Segment) (seat : SeatId) (s : State) : State :=
  let wasHeld := priorityHeld s a
  let s1 := s.modFloor a fun f =>
    { f with holders := insertBy (holderBefore s.clock) { seat := seat, pressTime := s.clock } f.holders }
  let s2 := suspendAll a s1
  if wasHeld then s2 else priorityNotice a true s2

/-- PRIORITY_DOWN (R99, R100). -/
def priorityDown (sets : Sets) (a : Segment) (seat : SeatId) (s : State) : State :=
  let f := floorOf s a
  if isHolder f seat then s
  else if Config.holderCap ≤ f.holders.length then markRefusal seat s
  else if hasSpeaker f seat then joinHold a seat s
  else if listHasRoom f then joinHold a seat (grantSeat sets a seat .bySeat true s)
  else
    match (f.speakers.filter fun e => !e.chairAtGrant).getLast? with
    | some e =>
      let s1 := removeSpeaker sets a e.seat .priorityBump s
      autoAdvance sets a (joinHold a seat (grantSeat sets a seat .bySeat true s1))
    | none => markRefusal seat s

/-- Whether a seat's speaker entry was opened by priority. -/
def openedByPriority (f : Floor) (seat : SeatId) : Bool :=
  f.speakers.any fun e => e.seat == seat && e.byPriority

/-- A holder leaves the set; an entry opened by priority closes with PRIORITY_END (R101). -/
def leaveHold (sets : Sets) (a : Segment) (seat : SeatId) (s : State) : State :=
  let s1 := s.modFloor a fun f => { f with holders := f.holders.filter fun h => h.seat != seat }
  if openedByPriority (floorOf s a) seat then removeSpeaker sets a seat .priorityEnd s1 else s1

/-- PRIORITY_UP (R101). -/
def priorityUp (sets : Sets) (a : Segment) (seat : SeatId) (s : State) : State :=
  if isHolder (floorOf s a) seat then
    endHandling sets a true (openedByPriority (floorOf s a) seat) (leaveHold sets a seat s)
  else s

/-! ### Seats that go offline or restart (R61, R78, R151) -/

/-- The removals of a seat that goes offline or restarts: its floor entry with the reason, its hold, its release
entry and its channel. The end of the handling follows after the last seat of the event. -/
def dropSeat (sets : Sets) (a : Segment) (seat : SeatId) (reason : FloorReason) (s : State) : State :=
  let s1 := removeRequest a seat reason (removeSpeaker sets a seat reason s)
  let s2 := s1.modFloor a fun f => { f with holders := f.holders.filter fun h => h.seat != seat }
  freeChannel seat (endRelease (sets.roomFor a seat) seat s2)

/-! ### Speech deadlines (R108) -/

/-- Whether a seat's speaker entry has reached its deadline. -/
def deadlineReached (s : State) (a : Segment) (seat : SeatId) : Bool :=
  match speakerOf (floorOf s a) seat with
  | some e =>
    match e.deadline with
    | some d => reached s.clock d
    | none => false
  | none => false

/-- The expiry of a speech deadline (R108). A non-chair entry is no holder, so priority does not end by it. -/
def expireDeadline (a : Segment) (seat : SeatId) (s : State) : State :=
  endHandling .current a (priorityHeld s a) true (removeSpeaker .current a seat .timeUp s)

end Sys2Proof.Machine
end

