-- ==== Sys2Proof/Machine/Seats.lean ====
section
/-! DEFINITION. The seat table: validation of seat events, seats going offline, the seat fields of the downlink (02,
R52, R58 to R63). -/

namespace Sys2Proof.Machine

/-- Send a SEAT notice to the port of the seat's segment (R59). -/
def seatNotice (seat : SeatId) (cause : SeatCause) (s : State) : State :=
  let r := s.seats.get seat
  notify [segmentOf seat] (.seat seat r.online r.enabled r.chair cause) s

/-- Whether the room with anchor `a` has fewer speaker entries in `after` than in `before`. -/
def lostSpeaker (a : Segment) (before after : State) : Bool :=
  decide ((floorOf after a).speakers.length < (floorOf before a).speakers.length)

/-- Take a seat offline: its record, and the removals (R61). -/
def takeOffline (sets : Sets) (seat : SeatId) (reason : FloorReason) (s : State) : State :=
  let s1 := s.modSeat seat fun r => { r with online := false, lastToggle := none }
  let s2 := s1.modTrunk (segmentOf seat) fun t => { t with refusals := t.refusals.set (positionOf seat) false }
  dropSeat sets (seatRoom s2 seat) seat reason s2

/-- HELLO (R59). -/
def hello (sets : Sets) (seat : SeatId) (s : State) : State :=
  if (s.seats.get seat).online then
    let a := seatRoom s seat
    let s1 := dropSeat sets a seat .seatOffline s
    endHandling sets a (priorityHeld s a) (lostSpeaker a s s1) (seatNotice seat .restart s1)
  else seatNotice seat .online (s.modSeat seat fun r => { r with online := true })

/-- BYE (R59, R61). -/
def bye (sets : Sets) (seat : SeatId) (s : State) : State :=
  if (s.seats.get seat).online then
    let a := seatRoom s seat
    let s1 := takeOffline sets seat .seatOffline s
    endHandling sets a (priorityHeld s a) (lostSpeaker a s s1) (seatNotice seat .offline s1)
  else s

/-- Validation of a seat event and its routing to the floor of the seat's room (R59, R60). -/
def seatEvent (sets : Sets) (seat : SeatId) (kind : EventKind) (s : State) : State :=
  let r := s.seats.get seat
  let a := seatRoom s seat
  match kind with
  | .hello => hello sets seat s
  | .bye => bye sets seat s
  | .talk => if !r.online then s else if r.enabled then talk sets a seat s else markRefusal seat s
  | .priorityDown =>
    if !r.online || !r.chair then s else if r.enabled then priorityDown sets a seat s else markRefusal seat s
  | .priorityUp => if !r.online || !r.chair then s else priorityUp sets a seat s
  | .nextKey => if !r.online || !r.chair then s else if r.enabled then nextKey sets a seat s else markRefusal seat s

/-- The ONLINE seats of a trunk, in ascending seat number. -/
def onlineSeats (s : State) (t : TrunkId) : List SeatId :=
  ((List.finRange 40).map (seatAt t)).filter fun seat => (s.seats.get seat).online

/-- Take every ONLINE seat of a trunk offline, each complete before the next (R61). -/
def takeSeatsOffline (t : TrunkId) (reason : FloorReason) (s : State) : State :=
  (onlineSeats s t).foldl (fun s seat => takeOffline .current seat reason s) s

/-- The indicator of a seat (R52). -/
def indicatorOf (s : State) (seat : SeatId) : Indicator :=
  let f := floorOf s (seatRoom s seat)
  match speakerOf f seat with
  | some e => if e.state == .opened then .speaking else .suspended
  | none => if hasRequest f seat then .requested else .idle

/-- The seat fields that a downlink frame carries for a position (R52). -/
def seatFields (s : State) (t : TrunkId) (pos : Position) : SeatFields :=
  let seat := seatAt t pos
  let trunk := s.trunks.get t
  { online := (s.seats.get seat).online
    indicator := indicatorOf s seat
    channel := channelOf s seat
    refusal := trunk.refusals.get pos
    ack := trunk.acks.get pos }

/-- A seat record (08, "Seat record"; R63). -/
def seatBytes (s : State) (seat : SeatId) : List Byte :=
  let r := s.seats.get seat
  [num seat, flagByte r.online, flagByte r.enabled, flagByte r.chair, toggleCode r.lastToggle,
    indicatorCode (indicatorOf s seat), numOrZero (channelOf s seat), flagByte (hasRelease s (seatRoom s seat) seat)]

end Sys2Proof.Machine
end

