-- ==== Sys2Proof/Machine/Trunks.lean ====
section
/-! DEFINITION. The trunk interfaces: power, check-word supervision, link hold, counters, uplink events, and the trunk
and seat commands (02). -/

namespace Sys2Proof.Machine

/-! ### The shift register (R37) -/

/-- The bit that the register produces next. Stage k is bit k - 1. -/
def lfsrBit (r : BitVec 15) : Bool :=
  r == 0 || (r.getLsbD 13 ^^ r.getLsbD 14)

/-- Every stage passes its value on, and stage 1 takes the new bit. -/
def lfsrStep (r : BitVec 15) : BitVec 15 :=
  (r <<< 1) ||| (if lfsrBit r then 1 else 0)

/-- Produce `n` bits, the first as most significant. -/
def lfsrRun : Nat → BitVec 15 → BitVec 16 → BitVec 15 × BitVec 16
  | 0, r, w => (r, w)
  | n + 1, r, w => lfsrRun n (lfsrStep r) ((w <<< 1) ||| (if lfsrBit r then 1 else 0))

/-- The register after a word, and the word. -/
def nextWord (r : BitVec 15) : BitVec 15 × BitVec 16 :=
  lfsrRun 16 r 0

/-- The register loaded from a word (R39). -/
def loadWord (w : BitVec 16) : BitVec 15 :=
  w.extractLsb' 0 15

/-- The number of positions in which two words differ (R41). -/
def bitErrors (a b : BitVec 16) : Nat :=
  (List.range 16).countP fun i => (a ^^^ b).getLsbD i

/-! ### Supervision (R39 to R41, R44, R47) -/

/-- A counter stops at its top (R47). -/
def countUp (n d : Nat) : Nat :=
  min (n + d) Config.counterTop

/-- What a frame compared in LOCKED adds to the live counters (R47). -/
def addCounts (errors : Nat) (loss : Bool) (c : Counters) : Counters where
  lockedFrames := countUp c.lockedFrames 1
  erroredFrames := countUp c.erroredFrames (if errors = 0 then 0 else 1)
  bitErrors := countUp c.bitErrors errors
  syncLosses := countUp c.syncLosses (if loss then 1 else 0)

/-- Supervision leaves LOCKED for HUNT and the link hold starts (R41 step 3, R42, R44). -/
def leaveLocked (now : Clock) (hold : Nat) (r : Trunk) : Trunk :=
  { r with
    supervision := some .hunt
    blockPos := 0
    blockErrors := 0
    holdDeadline := some (now + BitVec.ofNat 32 hold) }

/-- Supervision enters LOCKED: a new error block, link view UP, no hold (R40, R44). -/
def enterLocked (r : Trunk) : Trunk :=
  { r with supervision := some .locked, blockPos := 0, blockErrors := 0, linkUp := true, holdDeadline := none }

/-- A received word taken in HUNT (R39). -/
def huntWord (w : BitVec 16) (r : Trunk) : Trunk :=
  if loadWord w = 0 then { r with supervision := some .hunt }
  else { r with predictor := loadWord w, supervision := some .confirm, confirmCount := 0 }

/-- A received word taken in CONFIRM (R40). -/
def confirmWord (w : BitVec 16) (r : Trunk) : Trunk :=
  let p := nextWord r.predictor
  if w = p.2 then
    let r1 := { r with predictor := p.1, confirmCount := r.confirmCount + 1 }
    if 4 ≤ r1.confirmCount then enterLocked r1 else r1
  else huntWord w { r with predictor := p.1 }

/-- The bit errors of a frame against a prediction; a missing frame has 16 (R41). -/
def frameErrors (prediction : BitVec 16) : Option (BitVec 16) → Nat
  | some w => bitErrors w prediction
  | none => 16

/-- A frame, received or missing, compared in LOCKED (R41, R47). -/
def lockedWord (now : Clock) (hold : Nat) (word : Option (BitVec 16)) (r : Trunk) : Trunk :=
  let p := nextWord r.predictor
  let errors := frameErrors p.2 word
  let blockErrors := r.blockErrors + (if errors = 0 then 0 else 1)
  let r1 := { r with predictor := p.1, live := addCounts errors (decide (6 ≤ blockErrors)) r.live }
  if 6 ≤ blockErrors then leaveLocked now hold r1
  else if 64 ≤ r.blockPos + 1 then { r1 with blockPos := 0, blockErrors := 0 }
  else { r1 with blockPos := r.blockPos + 1, blockErrors := blockErrors }

/-- Supervision of a frame by a LIVE trunk; `none` is a missing frame (R38 to R41). -/
def supervise (now : Clock) (hold : Nat) (word : Option (BitVec 16)) (r : Trunk) : Trunk :=
  match r.supervision, word with
  | some .hunt, some w => huntWord w r
  | some .hunt, none => r
  | some .confirm, some w => confirmWord w r
  | some .confirm, none => { r with supervision := some .hunt }
  | some .locked, w => lockedWord now hold w r
  | none, _ => r

/-- Whether a trunk is LOCKED. -/
def isLocked (r : Trunk) : Bool :=
  r.supervision == some .locked

/-- Whether the events of a frame with this word are accepted: it was compared in LOCKED with 0 bit errors (R54). -/
def acceptsEvents (r : Trunk) (word : BitVec 16) : Bool :=
  isLocked r && frameErrors (nextWord r.predictor).2 (some word) == 0

/-- The TRUNK notice of a trunk, to its port (R46). -/
def trunkNotice (t : TrunkId) (s : State) : State :=
  let r := s.trunks.get t
  notify [t] (.trunk t r.power r.supervision r.linkUp r.holdDeadline) s

/-- A LIVE trunk takes a frame, received or missing: supervision, the TRUNK notice where LOCKED is entered or left
(R46), and the channel audio, which is used where the frame was compared in LOCKED (R141). -/
def takeFrame (t : TrunkId) (frame : Option UplinkFrame) (s : State) : State :=
  let before := s.trunks.get t
  let after := supervise s.clock s.hall.trunkHold (frame.map UplinkFrame.word) before
  let audio := if isLocked before then frame.map UplinkFrame.audio else none
  let s1 := s.modTrunk t fun _ => { after with audio := audio }
  if isLocked before = isLocked after then s1 else trunkNotice t s1

/-! ### Uplink events (R54 to R56) -/

/-- Set the pending acknowledgement of a position (R53). -/
def acknowledge (t : TrunkId) (pos : Position) (toggle : Bool) (s : State) : State :=
  s.modTrunk t fun r => { r with acks := r.acks.set pos (some toggle) }

/-- Store the last toggle of a seat (R55). -/
def storeToggle (seat : SeatId) (toggle : Bool) (s : State) : State :=
  s.modSeat seat fun r => { r with lastToggle := some toggle }

/-- An accepted event at a position: the duplicate filter, the intake hold, or the seat table (R55, R56). -/
def acceptEvent (t : TrunkId) (pos : Position) (kind : EventKind) (toggle : Bool) (s : State) : State :=
  let seat := seatAt t pos
  let trunk := s.trunks.get t
  if (s.seats.get seat).lastToggle = some toggle then acknowledge t pos toggle s
  else if trunk.holding then
    if trunk.intake.length < Config.intakeCap then
      (acknowledge t pos toggle (storeToggle seat toggle s)).modTrunk t fun r =>
        { r with intake := r.intake ++ [{ seat := seat, kind := kind, toggle := toggle }] }
    else s
  else seatEvent .current seat kind (acknowledge t pos toggle (storeToggle seat toggle s))

/-- An event of an accepted frame; one whose position is outside 1 to 40 is discarded (R54). -/
def uplinkEvent (t : TrunkId) (s : State) (e : UplinkEvent) : State :=
  if h : 1 ≤ e.position ∧ e.position ≤ 40 then
    acceptEvent t ⟨e.position - 1, by omega⟩ e.kind e.toggle s
  else s

/-- The events of a frame in ascending position (R54). -/
def eventsInOrder (events : List UplinkEvent) : List UplinkEvent :=
  sortBy (fun x y => decide (x.position < y.position)) events

/-- A LIVE trunk passes a frame to supervision and then its events to the acceptance test; in WARMING the frame is ignored
(R34), and an UNPOWERED trunk takes none. -/
def takeUplink (t : TrunkId) (frame : UplinkFrame) (s : State) : State :=
  let before := s.trunks.get t
  if before.power = .live then
    let s1 := takeFrame t (some frame) s
    if acceptsEvents before frame.word then (eventsInOrder frame.events).foldl (uplinkEvent t) s1 else s1
  else s

/-- UPLINK_FRAME (R38). -/
def execUplinkFrame (t : TrunkId) (frame : UplinkFrame) (s : State) : Host.Outcome State Fault Refusal :=
  carryOut (takeUplink t frame) s

/-- A LIVE trunk passes a missing frame to supervision. -/
def takeMissing (t : TrunkId) (s : State) : State :=
  if (s.trunks.get t).power = .live then takeFrame t none s else s

/-- MISSING_FRAME (R38). -/
def execMissingFrame (t : TrunkId) (s : State) : Host.Outcome State Fault Refusal :=
  carryOut (takeMissing t) s

/-! ### Warming, link hold and power (R33 to R35, R45) -/

/-- The end of a warming time that is reached (R34). -/
def endWarming (t : TrunkId) (s : State) : State :=
  let r := s.trunks.get t
  match r.power, r.warmDeadline with
  | .warming, some d =>
    if reached s.clock d then
      trunkNotice t (s.modTrunk t fun r =>
        { r with
          power := .live
          warmDeadline := none
          supervision := some .hunt
          confirmCount := 0
          blockPos := 0
          blockErrors := 0 })
    else s
  | _, _ => s

/-- WARMING_EXPIRY (R34). -/
def execWarmingExpiry (t : TrunkId) (s : State) : Host.Outcome State Fault Refusal :=
  carryOut (endWarming t) s

/-- A trunk whose link view was UP is lost or switched off: `change` to its record, hold absent, link view DOWN,
intake queue emptied, every ONLINE seat offline, one TRUNK notice, and the end of the handling on the floor (R35,
R45, R78; log entry 13). -/
def loseLink (t : TrunkId) (reason : FloorReason) (change : Trunk → Trunk) (s : State) : State :=
  let a := roomOf s t
  let s1 := s.modTrunk t fun r => { change r with holdDeadline := none, linkUp := false, intake := [] }
  let s2 := takeSeatsOffline t reason s1
  endHandling .current a (priorityHeld s a) (lostSpeaker a s s2) (trunkNotice t s2)

/-- The end of a link hold that is reached (R45). -/
def expireHold (t : TrunkId) (s : State) : State :=
  match (s.trunks.get t).holdDeadline with
  | some d => if reached s.clock d then loseLink t .trunkLost id s else s
  | none => s

/-- HOLD_EXPIRY (R45). -/
def execHoldExpiry (t : TrunkId) (s : State) : Host.Outcome State Fault Refusal :=
  carryOut (expireHold t) s

/-- The record of a trunk switched OFF (R33, R35). -/
def powerDown (r : Trunk) : Trunk :=
  { r with
    power := .unpowered
    warmDeadline := none
    supervision := none
    testPending := false
    acks := Tab.replicate 40 none }

/-- The effect of TRUNK_POWER ON (R33). -/
def trunkOn (t : TrunkId) (s : State) : State :=
  if (s.trunks.get t).power = .unpowered then
    trunkNotice t (s.modTrunk t fun r =>
      { r with power := .warming, warmDeadline := some (s.clock + BitVec.ofNat 32 s.hall.trunkStart) })
  else s

/-- The effect of TRUNK_POWER OFF (R33, R35). -/
def trunkOff (t : TrunkId) (s : State) : State :=
  let r := s.trunks.get t
  match r.power with
  | .unpowered => s
  | .warming => trunkNotice t (s.modTrunk t powerDown)
  | .live => if r.linkUp then loseLink t .trunkOff powerDown s else trunkNotice t (s.modTrunk t powerDown)

/-! ### Trunk commands -/

/-- The checks of a SEGMENT command that names a trunk (R33). -/
def trunkCommand (p : Port) (trunk : Byte) (rule : TrunkId → State → Answer) (s : State) : Answer :=
  match idArg 6 trunk with
  | none => refuse .badArgument s
  | some t => if p = t then rule t s else refuse .notSegment s

/-- TRUNK_POWER (R33, R35). -/
def ruleTrunkPower (p : Port) (trunk switch : Byte) (s : State) : Answer :=
  match flagArg switch with
  | none => refuse .badArgument s
  | some on =>
    trunkCommand p trunk (fun t s =>
      let s1 := if on then trunkOn t s else trunkOff t s
      { code := .done, results := [powerCode (s1.trunks.get t).power], state := s1 }) s

/-- TRUNK_RESTART (R42). -/
def ruleTrunkRestart (p : Port) (trunk : Byte) (s : State) : Answer :=
  trunkCommand p trunk (fun t s =>
    match (s.trunks.get t).power, (s.trunks.get t).supervision with
    | .live, some .locked =>
      { code := .done, results := [],
        state := trunkNotice t (s.modTrunk t (leaveLocked s.clock s.hall.trunkHold)) }
    | .live, some .confirm =>
      { code := .done, results := [],
        state := s.modTrunk t fun r => { r with supervision := some .hunt, confirmCount := 0 } }
    | .live, _ => { code := .done, results := [], state := s }
    | _, _ => refuse .trunkNotLive s) s

/-- TRUNK_TEST (R43). -/
def ruleTrunkTest (p : Port) (trunk : Byte) (s : State) : Answer :=
  trunkCommand p trunk (fun t s =>
    if (s.trunks.get t).power == .live && isLocked (s.trunks.get t) then
      { code := .done, results := [], state := s.modTrunk t fun r => { r with testPending := true } }
    else refuse .trunkNotLive s) s

/-- SNAPSHOT (R48). -/
def ruleSnapshot (p : Port) (trunk : Byte) (s : State) : Answer :=
  trunkCommand p trunk (fun t s =>
    { code := .done
      results := counterBytes (s.trunks.get t).live ++ clockBytes s.clock
      state := s.modTrunk t fun r => { r with snap := r.live, live := Counters.zero, snapTime := s.clock } }) s

/-- READ_TRUNK (R49). -/
def ruleReadTrunk (trunk : Byte) (s : State) : Answer :=
  match idArg 6 trunk with
  | none => refuse .badArgument s
  | some t => { code := .done, results := trunkBytes (s.trunks.get t), state := s }

/-! ### Seat commands -/

/-- SET_SEAT (R62). -/
def ruleSetSeat (p : Port) (seat enabled chair : Byte) (s : State) : Answer :=
  match idArg 240 seat, flagArg enabled, flagArg chair with
  | some i, some e, some c =>
    let a := seatRoom s i
    if p ≠ segmentOf i then refuse .notSegment s
    else if isDraining s a then refuse .busyRepartition s
    else if hasSpeaker (floorOf s a) i || hasRequest (floorOf s a) i then refuse .seatBusy s
    else
      let s1 := s.modSeat i fun r => { r with enabled := e, chair := c }
      { code := .done, results := seatBytes s1 i, state := s1 }
  | _, _, _ => refuse .badArgument s

/-- READ_SEAT (R63). -/
def ruleReadSeat (seat : Byte) (s : State) : Answer :=
  match idArg 240 seat with
  | none => refuse .badArgument s
  | some i => { code := .done, results := seatBytes s i, state := s }

/-! ### The commands as they arrive -/

def serveTrunkPower (p : Port) (tag trunk switch : Byte) (s : State) : State :=
  serve p tag false (ruleTrunkPower p trunk switch) s

def serveTrunkRestart (p : Port) (tag trunk : Byte) (s : State) : State :=
  serve p tag false (ruleTrunkRestart p trunk) s

def serveTrunkTest (p : Port) (tag trunk : Byte) (s : State) : State :=
  serve p tag false (ruleTrunkTest p trunk) s

def serveSnapshot (p : Port) (tag trunk : Byte) (s : State) : State :=
  serve p tag false (ruleSnapshot p trunk) s

def serveReadTrunk (p : Port) (tag trunk : Byte) (s : State) : State :=
  serve p tag true (ruleReadTrunk trunk) s

def serveSetSeat (p : Port) (tag seat enabled chair : Byte) (s : State) : State :=
  serve p tag false (ruleSetSeat p seat enabled chair) s

def serveReadSeat (p : Port) (tag seat : Byte) (s : State) : State :=
  serve p tag true (ruleReadSeat seat) s

/-- TRUNK_POWER (R33). -/
def execTrunkPower (p : Port) (tag trunk switch : Byte) (s : State) : Host.Outcome State Fault Refusal :=
  carryOut (serveTrunkPower p tag trunk switch) s

/-- TRUNK_RESTART (R42). -/
def execTrunkRestart (p : Port) (tag trunk : Byte) (s : State) : Host.Outcome State Fault Refusal :=
  carryOut (serveTrunkRestart p tag trunk) s

/-- TRUNK_TEST (R43). -/
def execTrunkTest (p : Port) (tag trunk : Byte) (s : State) : Host.Outcome State Fault Refusal :=
  carryOut (serveTrunkTest p tag trunk) s

/-- SNAPSHOT (R48). -/
def execSnapshot (p : Port) (tag trunk : Byte) (s : State) : Host.Outcome State Fault Refusal :=
  carryOut (serveSnapshot p tag trunk) s

/-- READ_TRUNK (R49). -/
def execReadTrunk (p : Port) (tag trunk : Byte) (s : State) : Host.Outcome State Fault Refusal :=
  carryOut (serveReadTrunk p tag trunk) s

/-- SET_SEAT (R62). -/
def execSetSeat (p : Port) (tag seat enabled chair : Byte) (s : State) : Host.Outcome State Fault Refusal :=
  carryOut (serveSetSeat p tag seat enabled chair) s

/-- READ_SEAT (R63). -/
def execReadSeat (p : Port) (tag seat : Byte) (s : State) : Host.Outcome State Fault Refusal :=
  carryOut (serveReadSeat p tag seat) s

end Sys2Proof.Machine
end

