-- ==== Sys2Proof/Machine/Mix.lean ====
section
/-! DEFINITION. The frame event: hall clock, wall samples, booth inputs, the frame computation of every room, outputs,
release ends and downlink frames (06; 01, R3; 02, R36; 05, R116, R123, R131; 10, R198). -/

namespace Sys2Proof.Machine

/-! ### Arithmetic (00, "Audio and gain arithmetic"; R152, R153) -/

/-- The ends of the sample range. -/
def sampleMin : Int := -8388608
def sampleMax : Int := 8388607

/-- A value set to the nearer end of the sample range where it lies outside. -/
def saturate (x : Int) : Int :=
  max sampleMin (min sampleMax x)

/-- Whether a value lies outside the sample range. -/
def saturates (x : Int) : Bool :=
  decide (x < sampleMin) || decide (sampleMax < x)

/-- A sum of products divided by unity, rounded to the nearest integer, halves upward (R152). The divisor is
positive, so the division rounds down. -/
def roundUnity (p : Int) : Int :=
  (p + 2048) / 4096

/-- Scaling a sample value by a factor, before saturation (R153). -/
def scaleRaw (v : Int) (k : Nat) : Int :=
  roundUnity (v * (k : Int))

/-- Scaling a sample value by a factor (R153). -/
def scale (v : Int) (k : Nat) : Int :=
  saturate (scaleRaw v k)

/-- A value of the sample range as a sample. -/
def toSample (x : Int) : Sample :=
  BitVec.ofInt 24 x

/-- Scaling a frame of audio by a factor. -/
def scaleAudio (a : Audio) (k : Nat) : Audio :=
  a.map fun v => toSample (scale v.toInt k)

/-! ### Levels, weights and ramps (R143 to R145) -/

/-- The level of a frame: the absolute sum divided by 12,288, rounded down (R143). -/
def frameLevel (a : Audio) : Nat :=
  (a.items.map fun v => v.toInt.natAbs).sum / 12288

/-- The level estimate after a frame of level `a` (R143). -/
def nextLevel (level a : Nat) : Nat :=
  (7 * level + a) / 8

/-- The room's level sum S: the level estimates of the OPEN entries (R144). -/
def levelSum (speakers : List Speaker) : Nat :=
  ((speakers.filter fun e => e.state == .opened).map Speaker.level).sum

/-- The target weight of a speaker entry under the divisor `d` (R144). -/
def weightOf (d : Nat) (e : Speaker) : Nat :=
  match e.state with
  | .opened => e.level * 4096 / d
  | .suspended => 0

/-- One frame's move of a gain toward a target, by at most 256 (R145). -/
def ramp (g w : Nat) : Nat :=
  if g ≤ w then g + min (w - g) Config.rampStep else g - min (g - w) Config.rampStep

/-- The fade and its phase after the step of a frame (R157). -/
def stepFade (m : MixRoom) : MixRoom :=
  match m.phase with
  | .full | .silent => m
  | .falling => { m with fade := m.fade - Config.rampStep }
  | .rising =>
    let f := min (m.fade + Config.rampStep) Config.unity
    { m with fade := f, phase := if f = Config.unity then .full else .rising }

/-! ### The computation of one room (R141, R142) -/

/-- The audio of a seat in this frame: its channel in the frame its trunk took, or silence (R141). -/
def seatAudio (s : State) (seat : SeatId) : Audio :=
  match (s.trunks.get (segmentOf seat)).audio, channelOf s seat with
  | some audio, some c => audio.get c
  | _, _ => silence

/-- Stage 2: the speaker entries with their level estimates updated (R143). -/
def updateLevels (s : State) (speakers : List Speaker) : List Speaker :=
  speakers.map fun e => { e with level := nextLevel e.level (frameLevel (seatAudio s e.seat)) }

/-- Stages 3 and 4: the speaker entries with their gains moved toward their weights (R144, R145). -/
def updateGains (levelFloor : Nat) (speakers : List Speaker) : List Speaker :=
  let d := max (levelSum speakers) levelFloor
  speakers.map fun e => { e with gain := ramp e.gain (weightOf d e) }

/-- Stage 4 for the release entries (R150); a frame has now been computed for each. -/
def updateReleases (release : List Release) : List Release :=
  release.map fun e => { e with gain := e.gain - Config.rampStep, fresh := false }

/-- The sum P of the sources at one sample position (R152). -/
def mixSum (sources : List (Audio × Nat)) (i : Fin 48) : Int :=
  (sources.map fun x => (x.1.get i).toInt * (x.2 : Int)).sum

/-- What the computation of a room gives: its speakers, what the mix engine holds for it, its floor mix, and whether
y or z was saturated. -/
structure RoomFrame where
  speakers : List Speaker
  mix : MixRoom
  floorMix : Audio
  saturated : Bool

/-- Stages 1 to 5 of a room's frame computation (R142 to R155). -/
def computeRoom (s : State) (a : Segment) : RoomFrame :=
  let profile := profileOf s a
  let mix := stepFade (s.mixes.get a)
  let speakers := updateGains profile.levelFloor (updateLevels s (floorOf s a).speakers)
  let release := updateReleases mix.release
  let sources :=
    (speakers.map fun e => (seatAudio s e.seat, e.gain)) ++ (release.map fun e => (seatAudio s e.seat, e.gain))
  let y := fun i => roundUnity (mixSum sources i)
  let z := fun i => scaleRaw (saturate (y i)) profile.roomGain
  let saturated := (List.finRange 48).any fun i => saturates (y i) || saturates (z i)
  { speakers := speakers
    mix := { mix with release := release, clip := mix.clip || saturated }
    floorMix := Tab.ofFn fun i => toSample (scale (saturate (z i)) mix.fade)
    saturated := saturated }

/-! ### Outputs (R161 to R168) -/

/-- The audio of a booth input in this frame; no readable frame is silence (R116). -/
def boothAudio (inputs : Tab 8 (Option BoothFrame)) (b : BoothId) : Audio :=
  match inputs.get b with
  | some f => f.audio
  | none => silence

/-- The tally of a booth input in this frame; no readable frame is not live (R116). -/
def boothTally (inputs : Tab 8 (Option BoothFrame)) (b : BoothId) : Bool :=
  match inputs.get b with
  | some f => f.tally
  | none => false

/-- The signal of one slot: a live ON_AIR booth under the room's fade, or the floor mix (R123, R161). -/
def slotSignal (inputs : Tab 8 (Option BoothFrame)) (map : SlotMap) (fade : Nat) (floorMix : Audio) (slot : Slot) :
    Audio :=
  match map.get slot with
  | some b => if boothTally inputs b then scaleAudio (boothAudio inputs b) fade else floorMix
  | none => floorMix

/-- The signals of the room with anchor `a` (R161); silence where `a` is no anchor. -/
def roomSignals (s : State) (inputs : Tab 8 (Option BoothFrame)) (a : Segment) (f : RoomFrame) : RoomSignals :=
  if (s.rooms.get a).isSome then
    { floorMix := f.floorMix
      slots := Tab.ofFn fun slot => slotSignal inputs (s.slotMaps.get a) f.mix.fade f.floorMix slot }
  else RoomSignals.silent

/-- The listen feed of a booth, from the rooms' signals and fades (R131, R162). -/
def listenFeed (s : State) (inputs : Tab 8 (Option BoothFrame)) (b : BoothId) : Audio :=
  match boothRoom s b with
  | none => silence
  | some a =>
    match (s.booths.get b).source with
    | none => (s.signals.get a).floorMix
    | some k =>
      if boothTally inputs k then scaleAudio (boothAudio inputs k) (s.mixes.get a).fade else (s.signals.get a).floorMix

/-- The output of a tap (R168). -/
def tapSignal (s : State) (inputs : Tab 8 (Option BoothFrame)) (k : TapId) : Audio :=
  match s.taps.get k with
  | none => silence
  | some t =>
    let a := roomOf s t.owner
    match t.source with
    | .floor => (s.signals.get a).floorMix
    | .slot slot => (s.signals.get a).slots.get slot
    | .boothOut b => scaleAudio (boothAudio inputs b) (s.mixes.get a).fade
    | .boothFeed b => s.listen.get b

/-- The PA output of a segment (R165). -/
def paSignal (s : State) (g : Segment) : Audio :=
  scaleAudio (s.signals.get (roomOf s g)).floorMix (s.paGains.get g)

/-! ### The parts of a frame event -/

/-- The sample of one wall's sense input (R3). -/
def sampleWall (now : Clock) (level : WallState) (r : Wall) : Wall :=
  if level = r.raw then r
  else { r with raw := level, changeTime := if level = r.sensed then none else some now }

/-- A floor record in the order of the ages at hall clock `now`. An age that passes 2^32 - 1 returns to 0, and its entry
goes from the head of its list to its end (R65, R97). -/
def Floor.inAgeOrder (now : Clock) (f : Floor) : Floor :=
  { f with speakers := sortBy (speakerBefore now) f.speakers, holders := sortBy (holderBefore now) f.holders }

/-- The hall clock rises by one (R138), and the WALL_SETTLE of the frame is noted (R4). The speaker lists and the holder
sets keep their orders by age (R65, R97). -/
def advanceClock (s : State) : State :=
  { s with
    clock := s.clock + 1
    edgeSeen := true
    settleAtFrame := s.hall.wallSettle
    floors := s.floors.map (Floor.inAgeOrder (s.clock + 1)) }

/-- Sample the walls (R3). -/
def sampleWalls (levels : WallMap) (s : State) : State :=
  s.setWalls (Tab.ofFn fun w => sampleWall s.clock (levels.get w) (s.walls.get w))

/-- Take the live tallies of the booth inputs (R116). -/
def takeTallies (inputs : Tab 8 (Option BoothFrame)) (s : State) : State :=
  { s with booths := Tab.ofFn fun b => { s.booths.get b with live := boothTally inputs b } }

/-- The CLIP notice of a room whose flag goes from clear to set (R155). -/
def clipNotice (a : Segment) (before after : State) : State :=
  if !(before.mixes.get a).clip && (after.mixes.get a).clip then notifyRoom a (.clip a) after else after

/-- Stages 1 to 5 of every room of the room table, with the CLIP notices, and the signals of stage 6 (R142, R155,
R161). -/
def computeRooms (inputs : Tab 8 (Option BoothFrame)) (s : State) : State :=
  let frames := Tab.ofFn fun a => computeRoom s a
  let s1 :=
    { s with
      floors := Tab.ofFn fun a =>
        if (s.rooms.get a).isSome then { s.floors.get a with speakers := (frames.get a).speakers } else s.floors.get a
      mixes := Tab.ofFn fun a => if (s.rooms.get a).isSome then (frames.get a).mix else s.mixes.get a
      signals := Tab.ofFn fun a => roomSignals s inputs a (frames.get a) }
  allSegments.foldl (fun s2 a => clipNotice a s s2) s1

/-- The listen feeds, PA outputs and tap outputs of stage 6 (R162, R165, R168). -/
def formOutputs (inputs : Tab 8 (Option BoothFrame)) (s : State) : State :=
  let s1 := { s with listen := Tab.ofFn fun b => listenFeed s inputs b, paOut := Tab.ofFn fun g => paSignal s g }
  { s1 with tapOut := Tab.ofFn fun k => tapSignal s1 inputs k }

/-- Whether a release entry ends: a frame has brought its gain to 0 (R150). An entry made with gain 0 ends at its first
frame. -/
def Release.atEnd (e : Release) : Bool :=
  e.gain == 0 && !e.fresh

/-- A release entry of a seat that is at its end leaves the set, and its channel is freed (R150). -/
def releaseEndOf (a : Segment) (seat : SeatId) (s : State) : State :=
  if (s.mixes.get a).release.any fun e => e.seat == seat && e.atEnd then freeChannel seat (endRelease a seat s) else s

/-- Stage 7 of one room: every release entry at its end leaves the set (R142, R150). -/
def endReleases (a : Segment) (s : State) : State :=
  ((s.mixes.get a).release.map Release.seat).foldl (fun s seat => releaseEndOf a seat s) s

/-- The check word of a downlink frame: with a test pending, its least significant bit is inverted (R37, R43). -/
def sentWord (r : Trunk) : BitVec 16 :=
  (nextWord r.generator).2 ^^^ (if r.testPending then 1 else 0)

/-- The downlink frame a trunk sends in state `s`; none while it is UNPOWERED (R36, R52, R163). -/
def downlinkOf (s : State) (t : TrunkId) : Option Downlink :=
  let r := s.trunks.get t
  match r.power with
  | .unpowered => none
  | .warming | .live =>
    some
      { word := sentWord r
        fields := Tab.ofFn fun pos => seatFields s t pos
        signals := s.signals.get (roomOf s t) }

/-- The trunk record after the frame event: a frame that was sent runs the generator and clears the test, the
acknowledgements and the refusal marks (R37, R43, R52, R53); the channel audio of the period is used up (R141). -/
def afterDownlink (r : Trunk) : Trunk :=
  match r.power with
  | .unpowered => { r with audio := none }
  | .warming | .live =>
    { r with
      generator := (nextWord r.generator).1
      testPending := false
      acks := Tab.replicate 40 none
      refusals := Tab.replicate 40 false
      audio := none }

/-- Every trunk sends its downlink frame (R36). -/
def sendDownlinks (s : State) : State :=
  { s with downlinks := Tab.ofFn fun t => downlinkOf s t, trunks := s.trunks.map afterDownlink }

/-- A taken frame event: everything that the rules place in it as one operation. -/
def frameStep (levels : WallMap) (inputs : Tab 8 (Option BoothFrame)) (s : State) : State :=
  let s1 := takeTallies inputs (sampleWalls levels (advanceClock s))
  let s2 := formOutputs inputs (computeRooms inputs s1)
  let s3 := allSegments.foldl (fun s a => endReleases a s) s2
  sendDownlinks s3

/-- An edge of the frame clock (R138, R198): one that comes sooner than 900 microseconds after the last one taken is
ignored; the first edge after reset is taken whatever its timing. -/
def takeEdge (micros : Nat) (levels : WallMap) (booths : Tab 8 (Option BoothFrame)) (s : State) : State :=
  if s.edgeSeen && decide (micros < Config.edgeGap) then s else frameStep levels booths s

/-- FRAME_EVENT (R138, R198). -/
def execFrameEvent (micros : Nat) (levels : WallMap) (booths : Tab 8 (Option BoothFrame)) (s : State) :
    Host.Outcome State Fault Refusal :=
  carryOut (takeEdge micros levels booths) s

/-- RELEASE_END (R150): the end of one release entry whose gain a frame has brought to 0. A frame event carries out stage 7
itself, with the same operation (log entry 6). -/
def execReleaseEnd (seat : SeatId) (s : State) : Host.Outcome State Fault Refusal :=
  carryOut (fun s => releaseEndOf (seatRoom s seat) seat s) s

/-- A FALLING room whose fade is 0 becomes SILENT and is reported ready (R158). -/
def becomeSilent (a : Segment) (s : State) : State :=
  let m := s.mixes.get a
  if (s.rooms.get a).isSome && m.phase == .falling && m.fade == 0 then
    reportReady a (s.modMix a fun m => { m with phase := .silent })
  else s

/-- READY_REPORT (R158). -/
def execReadyReport (a : Segment) (s : State) : Host.Outcome State Fault Refusal :=
  carryOut (becomeSilent a) s

/-- The end of a speech whose deadline is reached (R108). -/
def endSpeech (seat : SeatId) (s : State) : State :=
  let a := seatRoom s seat
  if deadlineReached s a seat then expireDeadline a seat s else s

/-- DEADLINE_EXPIRY (R108). -/
def execDeadlineExpiry (seat : SeatId) (s : State) : Host.Outcome State Fault Refusal :=
  carryOut (endSpeech seat) s

end Sys2Proof.Machine
end

