-- ==== Sys2Proof/WellFormed.lean ====
section
/-! DEFINITION. When a command's operands are as the manual describes them. -/

namespace Sys2Proof

/-- Every share of a commit once (R29). -/
def allShares : List CommitShare :=
  [.mix, .floor, .booths, .taps, .trunk 0, .trunk 1, .trunk 2, .trunk 3, .trunk 4, .trunk 5, .startTest]

/-- The shares of `order` that stand before the floor controller's share. -/
def beforeFloor : List CommitShare → List CommitShare
  | [] => []
  | .floor :: _ => []
  | c :: cs => c :: beforeFloor cs

/-- A share of a trunk interface. -/
def CommitShare.isTrunk : CommitShare → Bool
  | .trunk _ => true
  | .mix | .floor | .booths | .taps | .startTest => false

/-- An order of a commit names every share once, and every trunk takes its share after the floor controller's
(R57). -/
def orderOk (order : List CommitShare) : Bool :=
  order.Nodup && allShares.all (fun c => order.contains c) && !(beforeFloor order).any CommitShare.isTrunk

/-- An uplink frame carries at most one event for each position (R38). -/
def eventsOk (events : List UplinkEvent) : Bool :=
  (events.map UplinkEvent.position).Nodup

/-- The check of a command's operands. Argument bytes are not checked here: the part answers any byte (R193). -/
def wellFormed : Instr → Bool
  | .commit order => orderOk order
  | .uplinkFrame _ frame => eventsOk frame.events
  | .grant _ _ seat _ => seat != 0
  | .powerOnReset _ | .frameEvent _ _ _ | .debounceEnd _ | .consentExpiry _ | .warmingExpiry _ | .holdExpiry _
  | .deadlineExpiry _ | .releaseEnd _ | .readyReport _ | .missingFrame _ | .messageArrival _ | .portReset _
  | .messageSent _ | .attach _ _ | .detach _ _ | .setHall _ _ _ _ _ | .readHall _ _ | .readClock _ _
  | .setWall _ _ _ _ | .readWall _ _ _ | .readRoom _ _ _ | .setProfile _ _ _ _ _ _ _ _ | .readProfile _ _ _
  | .trunkPower _ _ _ _ | .trunkRestart _ _ _ | .trunkTest _ _ _ | .snapshot _ _ _ | .readTrunk _ _ _
  | .setSeat _ _ _ _ _ | .readSeat _ _ _ | .grantNext _ _ _ | .close _ _ _ | .deny _ _ _ | .enqueue _ _ _
  | .clear _ _ _ | .priorityCancel _ _ _ | .readFloor _ _ _ _ _ _ | .assignBooth _ _ _ _ _ | .releaseBooth _ _ _
  | .setRelay _ _ _ _ | .readBooth _ _ _ | .setPaGain _ _ _ _ | .joinTap _ _ _ _ _ | .leaveTap _ _ _ | .readTap _ _ _
  | .startBit _ _ | .characterComplete _ _ | .lineHighInLowWait _ | .breakWaitEnd _ => true

end Sys2Proof
end

