-- ==== Sys2Proof/Machine/Commit.lean ====
section
/-! DEFINITION. The commit of a repartition, and each block's share of it (01, R29 to R31; 02, R57; 03, R92 to R95; 04,
R112, R113; 05, R134 to R136; 06, R159, R160, R170). -/

namespace Sys2Proof.Machine

/-! ### The partition controller's share (R29) -/

/-- The room table of a target map: new rooms are built STEADY with their leads elected, affected rooms leave the
table, and the others keep their records (R16, R17, R29). -/
def rebuiltRooms (s : State) (rp : Repartition) : Tab 6 (Option Room) :=
  Tab.ofFn fun a =>
    if (newRooms s rp.target).contains a then
      let members := component rp.target a
      some { members := members, lead := electLead s members, status := .steady }
    else if rp.affected.contains a then none
    else s.rooms.get a

/-- Committed states and room table are rebuilt; WALL notices, then ROOM notices (R29). Where the start test at the
end of the commit finds the loop case, the committed states follow the effective states at the same event (R26, R30),
and each wall concerned gives one notice (R6; log entry 14). -/
def commitPartition (rp : Repartition) (s : State) : State :=
  let walls := Tab.ofFn fun w => { s.walls.get w with committed := rp.target.get w }
  let s1 := ((s.setWalls walls).setRooms (rebuiltRooms s rp)).setRepartition none
  let s2 := if startPlan s1 = .loop then commitLoop s1 else s1
  let changed := allWalls.filter fun w =>
    (committedChanged s.walls s1.walls).contains w || (committedChanged s1.walls s2.walls).contains w
  (newRooms s rp.target).foldl (fun s a => sendRoom a s) (sendWalls changed s2)

/-! ### The mix engine's share (R159, R160) -/

/-- The new room with anchor `a` as the mix engine makes it, with the release entries gathered for it: SILENT where a
drain request has named it already (R158, R159, R160). -/
def newMix (s : State) (a : Segment) (entries : List Release) : MixRoom where
  fade := 0
  phase := if isDraining s a then .silent else .rising
  clip := false
  release := sortBy releaseBefore (entries.filter fun e => (membersOf s a).contains (segmentOf e.seat))

/-- The mix engine discards what it holds for the affected rooms and makes the new rooms (R159). The release entries of the
affected rooms go to the new room that holds their seat's segment; the newest six stay, and the others free their
channels (R160). A new room that a drain request has named already is reported ready (R158). -/
def commitMix (affected news : List Segment) (s : State) : State :=
  let entries := affected.flatMap fun a => (s.mixes.get a).release
  let mixes := Tab.ofFn fun a =>
    if news.contains a then newMix s a entries
    else if affected.contains a then MixRoom.atReset
    else s.mixes.get a
  let s1 := news.foldl (fun s a => capRelease a s) (s.setMixes mixes)
  (news.filter fun a => isDraining s a).foldl (fun s a => reportReady a s) s1

/-! ### The floor controller's share (R92 to R95, R112, R113) -/

/-- The entry that a trim takes: the latest-granted non-chair entry, else the latest-granted chair entry whose seat is
no holder, else the latest-granted entry (R93). -/
def trimVictim (f : Floor) : Option Speaker :=
  match (f.speakers.filter fun e => !e.chairAtGrant).getLast? with
  | some e => some e
  | none =>
    match (f.speakers.filter fun e => !isHolder f e.seat).getLast? with
    | some e => some e
    | none => f.speakers.getLast?

/-- Trim entries one at a time, at most `n` of them, until ten remain (R93). -/
def trimSpeakers (sets : Sets) : Nat → Segment → State → State
  | 0, _, s => s
  | n + 1, a, s =>
    if (floorOf s a).speakers.length ≤ Config.speakerCap then s
    else
      match trimVictim (floorOf s a) with
      | some e => trimSpeakers sets n a (removeSpeaker sets a e.seat .mergeTrim s)
      | none => s

/-- Requeue one trimmed speaker with a fresh stamp and the returned flag, where the pool has a free entry (R94 step
1). -/
def requeueSpeaker (a : Segment) (s : State) (seat : SeatId) : State :=
  if s.poolFree = 0 then s
  else
    floorNotice a seat .queued .mergeTrim
      (((s.modFloor a fun f =>
        { f with queue := f.queue ++ [{ seat := seat, stamp := s.stampCounter, returned := true }] }).setPoolFree
          (s.poolFree - 1)).setStampCounter (s.stampCounter + 1))

/-- The holders beyond the earliest four lose their holds; their entries become ordinary chair entries (R112). -/
def capHolders (now : Clock) (f : Floor) : Floor :=
  let sorted := sortBy (holderBefore now) f.holders
  let lost := (sorted.drop Config.holderCap).map Holder.seat
  { f with
    holders := sorted.take Config.holderCap
    speakers := f.speakers.map fun e => if lost.contains e.seat then { e with byPriority := false } else e }

/-- The PRIORITY notices of a new room by segment: to the port of each member whose old room had another status
(R113). `old` is the state before the commit. -/
def commitPriority (old : State) (a : Segment) (s : State) : State :=
  (membersOf s a).foldl
    (fun s g =>
      if priorityHeld old (roomOf old g) == priorityHeld s a then s else notify [g] (.priority a (priorityHeld s a)) s)
    s

/-- The gathered floor of a new room, before trimming: the entries of the affected rooms whose seats' segments are
members, the speakers in list order (R92). -/
def gatherFloor (old : State) (affected members : List Segment) : Floor :=
  let mine := fun (seat : SeatId) => members.contains (segmentOf seat)
  let floors := affected.map (floorOf old)
  { speakers := sortBy (speakerBefore old.clock) ((floors.flatMap Floor.speakers).filter fun e => mine e.seat)
    queue := (floors.flatMap Floor.queue).filter fun q => mine q.seat
    holders := (floors.flatMap Floor.holders).filter fun h => mine h.seat }

/-- Build the floor of one new room and complete it through its auto-advance (R92 to R95). -/
def buildFloor (sets : Sets) (old : State) (affected : List Segment) (s : State) (a : Segment) : State :=
  let gathered := gatherFloor old affected (membersOf s a)
  let s1 := s.modFloor a fun _ => gathered
  let s2 := trimSpeakers sets gathered.speakers.length a s1
  let trimmed := (gathered.speakers.map Speaker.seat).filter fun seat => !hasSpeaker (floorOf s2 a) seat
  let direct := (profileOf s2 a).floorMode == .direct
  let s3 := if direct then s2 else trimmed.foldl (requeueSpeaker a) s2
  let s4 := s3.modFloor a fun f => capHolders s3.clock { f with queue := sortBy requestBefore f.queue }
  let s5 := if direct then removeRequests a ((floorOf s4 a).queue.map Request.seat) .modeDirect s4 else s4
  let s6 := if priorityHeld s5 a then suspendAll a s5 else resumeAll a s5
  autoAdvance sets a (commitPriority old a s6)

/-- The floor controller's share: the records of the affected rooms are discarded, and those of the new rooms are
built in ascending order of anchor (R92). -/
def commitFloors (sets : Sets) (old : State) (affected news : List Segment) (s : State) : State :=
  let cleared := s.setFloors (Tab.ofFn fun a => if affected.contains a then Floor.empty else s.floors.get a)
  news.foldl (buildFloor sets old affected) cleared

/-! ### The booth allocator's and the tap table's shares (R134 to R136, R170) -/

/-- The booths of the room with anchor `a` whose source booth is no booth of it, in ascending number (R135). -/
def crossingRelays (s : State) (a : Segment) : List BoothId :=
  allBooths.filter fun b =>
    boothRoom s b == some a &&
      match (s.booths.get b).source with
      | some k => boothRoom s k != some a
      | none => false

/-- One new room's reversions, then its allocator run (R134 to R136). -/
def commitBoothRoom (s : State) (a : Segment) : State :=
  let s1 := revertRelays a (crossingRelays s a) s
  runAllocator a s1 s1

/-- The booth allocator's share, over the new rooms in ascending order of anchor (R134). -/
def commitBooths (affected news : List Segment) (s : State) : State :=
  news.foldl commitBoothRoom (affected.foldl (fun s a => s.setSlotMap a (Tab.replicate 6 none)) s)

/-- The tap table's share: booth taps whose booth left the owner's room are freed, in ascending tap number (R170). -/
def commitTaps (s : State) : State :=
  allTaps.foldl (releaseTapIf boothLeftRoom) s

/-! ### A trunk interface's share (R57) -/

/-- A trunk of the affected rooms stops holding and replays its intake queue. Where a drain request of the next
repartition has been taken first, it stays holding and keeps its queue (R57). -/
def commitTrunk (sets : Sets) (segments : List Segment) (t : TrunkId) (s : State) : State :=
  if segments.contains t && !isDraining s (roomOf s t) then
    let events := (s.trunks.get t).intake
    events.foldl (fun s e => seatEvent sets e.seat e.kind s)
      (s.modTrunk t fun r => { r with holding := false, intake := [] })
  else s

/-! ### The whole commit -/

/-- The new rooms that the mix engine has not made yet. -/
def Sets.uncreated (news : List Segment) : Sets → List Segment
  | .current => []
  | .before _ => news

/-- One share of the commit. `old` is the state before the commit, and `sets` says where the release sets stand. -/
def commitShare (sets : Sets) (old : State) (affected news : List Segment) (s : State) : CommitShare → State
  | .mix => commitMix affected news s
  | .floor => commitFloors sets old affected news s
  | .booths => commitBooths affected news s
  | .taps => commitTaps s
  | .trunk t => commitTrunk sets (affected.flatMap (membersOf old)) t s
  | .startTest => startTest (sets.uncreated news) s

/-- The shares one after another. The release sets stand with the old rooms until the mix engine has taken its share
(R159, R160). -/
def takeShares (old : State) (affected news : List Segment) (sets : Sets) (s : State) : List CommitShare → State
  | [] => s
  | c :: rest =>
    takeShares old affected news (if c = .mix then .current else sets) (commitShare sets old affected news s c) rest

/-- The order of the shares; an order that is not one (WellFormed) is taken as `allShares` (log entry 4). -/
def shareOrder (order : List CommitShare) : List CommitShare :=
  if orderOk order then order else allShares

/-- The commit of the repartition `rp`: the partition controller's share, and the other shares in the order given (R29,
R57). -/
def commitStep (order : List CommitShare) (rp : Repartition) (s : State) : State :=
  takeShares s rp.affected (newRooms s rp.target) (.before (roomOf s)) (commitPartition rp s) (shareOrder order)

/-- The commit, where the partition controller is DRAINING and every affected room has been reported ready (R28, R29). -/
def takeCommit (order : List CommitShare) (s : State) : State :=
  match s.repartition with
  | some rp => if rp.affected.all fun a => rp.ready.contains a then commitStep order rp s else s
  | none => s

/-- COMMIT (R28, R29). -/
def execCommit (order : List CommitShare) (s : State) : Host.Outcome State Fault Refusal :=
  carryOut (takeCommit order) s

end Sys2Proof.Machine
end

