-- ==== Sys2Proof/Machine/FloorCommands.lean ====
section
/-! DEFINITION. The floor commands of the room controllers (03, R81 to R89; 04, R104). -/

namespace Sys2Proof.Machine

/-- The reply to a GRANT: the seat, its channel and its speech deadline (R82). -/
def grantBytes (s : State) (a : Segment) (seat : SeatId) : List Byte :=
  [num seat, numOrZero (channelOf s seat)] ++ clockOrZero ((speakerOf (floorOf s a) seat).bind Speaker.deadline)

/-- The answer to a GRANT. -/
def grantAnswer (a : Segment) (s : State) : GrantResult → Answer
  | .refused code => refuse code s
  | .granted seat s1 => { code := .done, results := grantBytes s1 a seat, state := s1 }

/-- GRANT NEXT (R83). -/
def ruleGrantNext (p : Port) (replace : Byte) (s : State) : Answer :=
  match flagArg replace with
  | none => refuse .badArgument s
  | some r => leadCommand p (fun a s => grantAnswer a s (grantHead .current a r s)) s

/-- GRANT (R82); the seat byte 0 spells NEXT (R81). -/
def ruleGrant (p : Port) (seat replace : Byte) (s : State) : Answer :=
  if seat = 0 then ruleGrantNext p replace s
  else
    match idArg 240 seat, flagArg replace with
    | some i, some r => leadCommand p (fun a s => grantAnswer a s (grantNamed a i r s)) s
    | _, _ => refuse .badArgument s

/-- CLOSE (R85). -/
def ruleClose (p : Port) (seat : Byte) (s : State) : Answer :=
  match idArg 240 seat with
  | none => refuse .badArgument s
  | some i =>
    leadCommand p (fun a s =>
      if hasSpeaker (floorOf s a) i then
        { code := .done, results := [],
          state := endHandling .current a (priorityHeld s a) true (removeSpeaker .current a i .byCommand s) }
      else refuse .noSuch s) s

/-- DENY (R86). -/
def ruleDeny (p : Port) (seat : Byte) (s : State) : Answer :=
  match idArg 240 seat with
  | none => refuse .badArgument s
  | some i =>
    leadCommand p (fun a s =>
      if hasRequest (floorOf s a) i then { code := .done, results := [], state := removeRequest a i .denied s }
      else refuse .noSuch s) s

/-- The position of a seat in a queue, the head as 1, and 0 where it is not in the queue (R87). -/
def queuePosition (seat : SeatId) (queue : List Request) : Nat :=
  if queue.any fun q => q.seat == seat then (queue.findIdx fun q => q.seat == seat) + 1 else 0

/-- ENQUEUE (R87). -/
def ruleEnqueue (p : Port) (seat : Byte) (s : State) : Answer :=
  match idArg 240 seat with
  | none => refuse .badArgument s
  | some i =>
    leadCommand p (fun a s =>
      if (profileOf s a).floorMode == .direct then refuse .wrongMode s
      else if !seatInRoom s a i then refuse .noSuch s
      else if hasSpeaker (floorOf s a) i || hasRequest (floorOf s a) i then refuse .seatBusy s
      else if (profileOf s a).requestCap ≤ (floorOf s a).queue.length then refuse .queueFull s
      else if s.poolFree = 0 then refuse .poolFull s
      else
        let s1 := autoAdvance .current a (enqueueSeat a i .byCommand s)
        { code := .done
          results := clockBytes s.stampCounter ++ [BitVec.ofNat 8 (queuePosition i (floorOf s1 a).queue)]
          state := s1 }) s

/-- Remove every speaker entry of a room, oldest first (R88). -/
def clearSpeakers (a : Segment) (s : State) : State :=
  ((floorOf s a).speakers.map Speaker.seat).foldl (fun s seat => removeSpeaker .current a seat .cleared s) s

/-- CLEAR (R88). -/
def ruleClear (p : Port) (selector : Byte) (s : State) : Answer :=
  match clearArg selector with
  | none => refuse .badArgument s
  | some (speakers, requests) =>
    leadCommand p (fun a s =>
      let s1 := if speakers then clearSpeakers a s else s
      let s2 := if requests then removeRequests a ((floorOf s1 a).queue.map Request.seat) .cleared s1 else s1
      { code := .done, results := [], state := endHandling .current a (priorityHeld s a) (lostSpeaker a s s2) s2 }) s

/-- Several holders leave the holder set, in the order given (R104). -/
def leaveHolds (a : Segment) (seats : List SeatId) (s : State) : State :=
  seats.foldl (fun s seat => leaveHold .current a seat s) s

/-- The holders that a PRIORITY_CANCEL removes: the one named, or with seat 0 every holder (R104). -/
def cancelledHolders (f : Floor) (seat : Option SeatId) : List SeatId :=
  match seat with
  | some i => if isHolder f i then [i] else []
  | none => f.holders.map Holder.seat

/-- The effect of a PRIORITY_CANCEL (R104). -/
def cancelPriority (a : Segment) (seats : List SeatId) (s : State) : State :=
  let s1 := leaveHolds a seats s
  endHandling .current a true (lostSpeaker a s s1) s1

/-- PRIORITY_CANCEL (R104). -/
def rulePriorityCancel (p : Port) (seat : Byte) (s : State) : Answer :=
  match (if seat = 0 then some none else (idArg 240 seat).map some) with
  | none => refuse .badArgument s
  | some target =>
    leadCommand p (fun a s =>
      match cancelledHolders (floorOf s a) target with
      | [] => refuse .noSuch s
      | i :: rest =>
        let s1 := cancelPriority a (i :: rest) s
        { code := .done, results := [BitVec.ofNat 8 (floorOf s1 a).holders.length], state := s1 }) s

/-- The entries of the selected list, each as its bytes (R89). -/
def listEntries (s : State) (a : Segment) : FloorList → List (List Byte)
  | .speakers => (floorOf s a).speakers.map speakerBytes
  | .queue => (floorOf s a).queue.map requestBytes
  | .holders => (floorOf s a).holders.map holderBytes
  | .release => (s.mixes.get a).release.map releaseBytes

/-- A floor page (08, "Floor page"; R89). -/
def floorPage (s : State) (a : Segment) (list : FloorList) (start count : Nat) : List Byte :=
  let entries := listEntries s a list
  let page := (entries.drop start).take count
  [num a, BitVec.ofNat 8 entries.length, BitVec.ofNat 8 (openCount (floorOf s a)), BitVec.ofNat 8 s.poolFree] ++
    clockBytes s.stampCounter ++ [BitVec.ofNat 8 page.length] ++ page.flatten

/-- READ_FLOOR (R89). -/
def ruleReadFloor (p : Port) (room selector start count : Byte) (s : State) : Answer :=
  match roomArg (roomOf s p) room, floorListArg selector with
  | some a, some list =>
    if (s.rooms.get a).isSome then
      let n := clamp 1 8 count.toNat
      { code := adjustedIf (n != count.toNat), results := floorPage s a list start.toNat n, state := s }
    else refuse .noSuch s
  | _, _ => refuse .badArgument s

/-! ### The commands as they arrive -/

def serveGrant (p : Port) (tag seat replace : Byte) (s : State) : State :=
  serve p tag false (ruleGrant p seat replace) s

def serveGrantNext (p : Port) (tag replace : Byte) (s : State) : State :=
  serve p tag false (ruleGrantNext p replace) s

def serveClose (p : Port) (tag seat : Byte) (s : State) : State :=
  serve p tag false (ruleClose p seat) s

def serveDeny (p : Port) (tag seat : Byte) (s : State) : State :=
  serve p tag false (ruleDeny p seat) s

def serveEnqueue (p : Port) (tag seat : Byte) (s : State) : State :=
  serve p tag false (ruleEnqueue p seat) s

def serveClear (p : Port) (tag selector : Byte) (s : State) : State :=
  serve p tag false (ruleClear p selector) s

def servePriorityCancel (p : Port) (tag seat : Byte) (s : State) : State :=
  serve p tag false (rulePriorityCancel p seat) s

def serveReadFloor (p : Port) (tag room selector start count : Byte) (s : State) : State :=
  serve p tag true (ruleReadFloor p room selector start count) s

/-- GRANT (R82). -/
def execGrant (p : Port) (tag seat replace : Byte) (s : State) : Host.Outcome State Fault Refusal :=
  carryOut (serveGrant p tag seat replace) s

/-- GRANT NEXT (R83). -/
def execGrantNext (p : Port) (tag replace : Byte) (s : State) : Host.Outcome State Fault Refusal :=
  carryOut (serveGrantNext p tag replace) s

/-- CLOSE (R85). -/
def execClose (p : Port) (tag seat : Byte) (s : State) : Host.Outcome State Fault Refusal :=
  carryOut (serveClose p tag seat) s

/-- DENY (R86). -/
def execDeny (p : Port) (tag seat : Byte) (s : State) : Host.Outcome State Fault Refusal :=
  carryOut (serveDeny p tag seat) s

/-- ENQUEUE (R87). -/
def execEnqueue (p : Port) (tag seat : Byte) (s : State) : Host.Outcome State Fault Refusal :=
  carryOut (serveEnqueue p tag seat) s

/-- CLEAR (R88). -/
def execClear (p : Port) (tag selector : Byte) (s : State) : Host.Outcome State Fault Refusal :=
  carryOut (serveClear p tag selector) s

/-- PRIORITY_CANCEL (R104). -/
def execPriorityCancel (p : Port) (tag seat : Byte) (s : State) : Host.Outcome State Fault Refusal :=
  carryOut (servePriorityCancel p tag seat) s

/-- READ_FLOOR (R89). -/
def execReadFloor (p : Port) (tag room selector start count : Byte) (s : State) : Host.Outcome State Fault Refusal :=
  carryOut (serveReadFloor p tag room selector start count) s

end Sys2Proof.Machine
end

