-- ==== Sys2Proof/Machine/HallCommands.lean ====
section
/-! DEFINITION. Power-on reset, the timed events of the walls, and the commands of the partition controller and the hall
clock (01; 06, R139; 10, R197). -/

namespace Sys2Proof.Machine

/-! ### The reset input (R197) -/

/-- A trunk record while its supply switch is held off (R197). -/
def Trunk.supplyOff (r : Trunk) : Trunk :=
  { r with power := .unpowered, warmDeadline := none, supervision := none, linkUp := false, holdDeadline := none }

/-- The part while the reset input is low: every trunk supply switch off and no downlink frame, silent PA and tap outputs,
every transmit line high (R197). What else the blocks hold shows nowhere, and is lost when the input goes high (log entry
18). -/
def holdReset (s : State) : State :=
  { s with
    held := true
    trunks := s.trunks.map Trunk.supplyOff
    ports := s.ports.map fun r => { r with transmitter := .idle }
    paOut := Tab.replicate 6 silence
    tapOut := Tab.replicate 4 silence
    downlinks := Tab.replicate 6 none }

/-- POWER_ON_RESET (R197). When the reset input goes low the part is held in reset; when it goes high every block takes its
power-on values. The waiting commands are the sender's and stay. -/
def execPowerOnReset (levels : Option WallMap) (s : State) : Host.Outcome State Fault Refusal :=
  match levels with
  | none => .next (holdReset s)
  | some high => .next { State.powerOn high with pending := s.pending }

/-! ### Timed events -/

/-- Whether a wall's debounce has ended, by the WALL_SETTLE in force at the frame of the test (R4; log entry 8). -/
def debounceDue (s : State) (w : WallId) : Bool :=
  match (s.walls.get w).changeTime with
  | some c => decide ((s.settleAtFrame : Int) ≤ (s.clock - c).toInt)
  | none => false

/-- The end of a debounce that is due (R4). -/
def endDebounce (w : WallId) (s : State) : State :=
  if debounceDue s w then settleWall w (s.modWall w fun r => { r with sensed := r.raw, changeTime := none }) else s

/-- DEBOUNCE_END (R4). -/
def execDebounceEnd (w : WallId) (s : State) : Host.Outcome State Fault Refusal :=
  carryOut (endDebounce w) s

/-- The expiry of a consent record whose time is reached (R12). -/
def expireConsent (w : WallId) (s : State) : State :=
  match (s.walls.get w).consent with
  | some c =>
    if reached s.clock c.expiry then
      notify [c.requester] (.consent w .expired c.requester c.expiry) (s.modWall w fun r => { r with consent := none })
    else s
  | none => s

/-- CONSENT_EXPIRY (R12). -/
def execConsentExpiry (w : WallId) (s : State) : Host.Outcome State Fault Refusal :=
  carryOut (expireConsent w) s

/-! ### Hall settings and clock -/

/-- SET_HALL (R22). -/
def ruleSetHall (wallSettle trunkStart trunkHold : Half) (s : State) : Answer :=
  let stored : HallSettings :=
    { wallSettle := clamp 50 2000 wallSettle.toNat
      trunkStart := clamp 100 5000 trunkStart.toNat
      trunkHold := clamp 50 2000 trunkHold.toNat }
  let changed :=
    stored.wallSettle != wallSettle.toNat || stored.trunkStart != trunkStart.toNat ||
      stored.trunkHold != trunkHold.toNat
  { code := adjustedIf changed
    results := hallBytes stored
    state := notify allSegments (.hall stored) (s.setHallSettings stored) }

/-- READ_HALL (R22). -/
def ruleReadHall (s : State) : Answer :=
  { code := .done, results := hallBytes s.hall, state := s }

/-- READ_CLOCK (R139). -/
def ruleReadClock (s : State) : Answer :=
  { code := .done, results := clockBytes s.clock, state := s }

/-! ### Walls -/

/-- The results of a SET_WALL: the mode after the command and the consent expiry (08). -/
def setWallResults (s : State) (w : WallId) : List Byte :=
  let r := s.walls.get w
  wallModeCode r.mode :: clockOrZero (r.consent.map Consent.expiry)

/-- SET_WALL for SENSED or FORCED_CLOSED (R8). -/
def setWallMode (w : WallId) (mode : WallMode) (s : State) : Answer :=
  let s1 := cancelConsent w s
  let s2 := if (s1.walls.get w).mode = mode then s1 else settleWall w (s1.modWall w fun r => { r with mode := mode })
  { code := .done, results := setWallResults s2 w, state := s2 }

/-- A consent record of the issuer is created or restarted: PENDING, and CONSENT(pending) to the peer (R9, R10). -/
def requestConsent (w : WallId) (p : Port) (s : State) : Answer :=
  let expiry := s.clock + Config.consentWindow
  let s1 := s.modWall w fun r => { r with consent := some { requester := p, expiry := expiry } }
  let s2 := notify [otherSide w p] (.consent w .pending p expiry) s1
  { code := .pending, results := setWallResults s2 w, state := s2 }

/-- SET_WALL for FORCED_OPEN (R9 to R11). -/
def forceOpen (w : WallId) (p : Port) (s : State) : Answer :=
  let r := s.walls.get w
  match r.consent with
  | none =>
    if r.mode = .forcedOpen then { code := .done, results := setWallResults s w, state := s }
    else if !isAttached s (otherSide w p) then refuse .peerAbsent s
    else requestConsent w p s
  | some c =>
    if c.requester = p then requestConsent w p s
    else
      let s1 := settleWall w (s.modWall w fun r => { r with mode := .forcedOpen, consent := none })
      { code := .done, results := setWallResults s1 w, state := s1 }

/-- SET_WALL (R7 to R11). -/
def ruleSetWall (p : Port) (wall mode : Byte) (s : State) : Answer :=
  match idArg 7 wall, wallModeArg mode with
  | some w, some m =>
    if !adjacentTo w p then refuse .notAdjacent s
    else
      match m with
      | .sensed => setWallMode w .sensed s
      | .forcedClosed => setWallMode w .forcedClosed s
      | .forcedOpen => forceOpen w p s
  | _, _ => refuse .badArgument s

/-- READ_WALL (R14). -/
def ruleReadWall (wall : Byte) (s : State) : Answer :=
  match idArg 7 wall with
  | none => refuse .badArgument s
  | some w => { code := .done, results := wallBytes (s.walls.get w), state := s }

/-! ### Rooms and profiles -/

/-- The results of a READ_ROOM (08). -/
def roomBytes (a : Segment) (r : Room) (clip : Bool) : List Byte :=
  [num a, memberBits r.members, numOrZero r.lead, statusCode r.status, flagByte clip]

/-- READ_ROOM (R16, R156): the clip flag is returned and then cleared. -/
def ruleReadRoom (p : Port) (room : Byte) (s : State) : Answer :=
  match roomArg (roomOf s p) room with
  | none => refuse .badArgument s
  | some a =>
    match s.rooms.get a with
    | none => refuse .noSuch s
    | some r =>
      { code := .done
        results := roomBytes a r (s.mixes.get a).clip
        state := s.modMix a fun m => { m with clip := false } }

/-- The profile that a SET_PROFILE stores (R20). -/
def storedProfile (mode : FloorMode) (maxOpen requestCap : Byte) (speechLimit levelFloor roomGain : Half) : Profile where
  floorMode := mode
  maxOpen := clamp 1 8 maxOpen.toNat
  requestCap := clamp 1 96 requestCap.toNat
  speechLimit := clamp 0 3600 speechLimit.toNat
  levelFloor := clamp 16 4096 levelFloor.toNat
  roomGain := clamp 0 4096 roomGain.toNat

/-- The effect of a new profile on the floor (R90): a mode that becomes DIRECT empties the queue, and auto-advance is
started where the mode is AUTO_QUEUE. -/
def applyProfile (a : Segment) (profile : Profile) (s : State) : State :=
  let wasDirect := (profileOf s a).floorMode == .direct
  let s1 := s.setProfileOf a profile
  match profile.floorMode with
  | .direct => if wasDirect then s1 else removeRequests a ((floorOf s1 a).queue.map Request.seat) .modeDirect s1
  | .autoQueue => autoAdvance .current a s1
  | .chair => s1

/-- SET_PROFILE (R20, R90). The lead is judged before the mode code, in the order of R20's table. -/
def ruleSetProfile (p : Port) (floorMode maxOpen requestCap : Byte) (speechLimit levelFloor roomGain : Half) (s : State) :
    Answer :=
  if !isLead s p then refuse .notLead s
  else
    match floorModeArg floorMode with
    | none => refuse .badArgument s
    | some mode =>
      let a := roomOf s p
      if isDraining s a then refuse .busyRepartition s
      else
        let stored := storedProfile mode maxOpen requestCap speechLimit levelFloor roomGain
        let changed :=
          stored.maxOpen != maxOpen.toNat || stored.requestCap != requestCap.toNat ||
            stored.speechLimit != speechLimit.toNat || stored.levelFloor != levelFloor.toNat ||
            stored.roomGain != roomGain.toNat
        { code := adjustedIf changed, results := profileBytes stored, state := applyProfile a stored s }

/-- READ_PROFILE (R21). -/
def ruleReadProfile (p : Port) (segment : Byte) (s : State) : Answer :=
  match roomArg (roomOf s p) segment with
  | none => refuse .badArgument s
  | some g => { code := .done, results := num g :: profileBytes (s.profiles.get g), state := s }

/-! ### The commands as they arrive -/

def serveSetHall (p : Port) (tag : Byte) (wallSettle trunkStart trunkHold : Half) (s : State) : State :=
  serve p tag false (ruleSetHall wallSettle trunkStart trunkHold) s

def serveReadHall (p : Port) (tag : Byte) (s : State) : State :=
  serve p tag true ruleReadHall s

def serveReadClock (p : Port) (tag : Byte) (s : State) : State :=
  serve p tag true ruleReadClock s

def serveSetWall (p : Port) (tag wall mode : Byte) (s : State) : State :=
  serve p tag false (ruleSetWall p wall mode) s

def serveReadWall (p : Port) (tag wall : Byte) (s : State) : State :=
  serve p tag true (ruleReadWall wall) s

def serveReadRoom (p : Port) (tag room : Byte) (s : State) : State :=
  serve p tag true (ruleReadRoom p room) s

def serveSetProfile (p : Port) (tag floorMode maxOpen requestCap : Byte) (speechLimit levelFloor roomGain : Half)
    (s : State) : State :=
  serve p tag false (ruleSetProfile p floorMode maxOpen requestCap speechLimit levelFloor roomGain) s

def serveReadProfile (p : Port) (tag segment : Byte) (s : State) : State :=
  serve p tag true (ruleReadProfile p segment) s

/-- SET_HALL (R22). -/
def execSetHall (p : Port) (tag : Byte) (wallSettle trunkStart trunkHold : Half) (s : State) :
    Host.Outcome State Fault Refusal :=
  carryOut (serveSetHall p tag wallSettle trunkStart trunkHold) s

/-- READ_HALL (R22). -/
def execReadHall (p : Port) (tag : Byte) (s : State) : Host.Outcome State Fault Refusal :=
  carryOut (serveReadHall p tag) s

/-- READ_CLOCK (R139). -/
def execReadClock (p : Port) (tag : Byte) (s : State) : Host.Outcome State Fault Refusal :=
  carryOut (serveReadClock p tag) s

/-- SET_WALL (R7). -/
def execSetWall (p : Port) (tag wall mode : Byte) (s : State) : Host.Outcome State Fault Refusal :=
  carryOut (serveSetWall p tag wall mode) s

/-- READ_WALL (R14). -/
def execReadWall (p : Port) (tag wall : Byte) (s : State) : Host.Outcome State Fault Refusal :=
  carryOut (serveReadWall p tag wall) s

/-- READ_ROOM (R16). -/
def execReadRoom (p : Port) (tag room : Byte) (s : State) : Host.Outcome State Fault Refusal :=
  carryOut (serveReadRoom p tag room) s

/-- SET_PROFILE (R20). -/
def execSetProfile (p : Port) (tag floorMode maxOpen requestCap : Byte) (speechLimit levelFloor roomGain : Half)
    (s : State) : Host.Outcome State Fault Refusal :=
  carryOut (serveSetProfile p tag floorMode maxOpen requestCap speechLimit levelFloor roomGain) s

/-- READ_PROFILE (R21). -/
def execReadProfile (p : Port) (tag segment : Byte) (s : State) : Host.Outcome State Fault Refusal :=
  carryOut (serveReadProfile p tag segment) s

end Sys2Proof.Machine
end

