-- ==== Sys2Proof/Machine/Ports.lean ====
section
/-! DEFINITION. The port controllers: the line receiver, port reset, the transmitter, attach and detach (07). -/

namespace Sys2Proof.Machine

/-! ### The receiver (R173 to R175) -/

/-- A bit takes the value held by at least two of its three samples (R173). -/
def majority (b : BitSamples) : Bool :=
  (b.first && b.second) || (b.first && b.third) || (b.second && b.third)

/-- The three samples of a bit disagree (R173). -/
def disagree (b : BitSamples) : Bool :=
  !(b.first == b.second && b.second == b.third)

/-- The byte of a character, least significant bit first, from its data bits (R173). -/
def characterByte (samples : Tab 9 BitSamples) : Byte :=
  (List.finRange 8).foldr
    (fun k b => (b <<< 1) ||| (if majority (samples.get (k.castLE (by decide))) then 1 else 0)) 0

/-- Whether the character has a noise mark, given that of its start bit (R173). -/
def hasNoise (startNoise : Bool) (samples : Tab 9 BitSamples) : Bool :=
  startNoise || samples.items.any disagree

/-- Whether the stop bit is read low (R173). -/
def framingError (samples : Tab 9 BitSamples) : Bool :=
  !majority (samples.get 8)

/-- The check of a candidate start bit in HUNT (R173): two or three low samples accept it. -/
def PortRec.startBit (b : BitSamples) (r : PortRec) : PortRec :=
  match r.receiver with
  | .hunt => if majority b then r else { r with receiver := .character (disagree b), gapRunning := false }
  | .character _ | .lowWait | .breakWait => r

/-- A complete character (R173, R175). -/
def PortRec.character (samples : Tab 9 BitSamples) (r : PortRec) : PortRec :=
  match r.receiver with
  | .character startNoise =>
    let fits := decide (r.buffer.length < Config.bufferCap)
    let framing := framingError samples
    { r with
      buffer := if fits then r.buffer ++ [characterByte samples] else r.buffer
      tooLong := r.tooLong || !fits
      lineFault := r.lineFault || hasNoise startNoise samples || framing
      receiver := if framing then .lowWait else .hunt
      gapRunning := !framing }
  | .hunt | .lowWait | .breakWait => r

/-- In LOW_WAIT the line is sampled high (R174). -/
def PortRec.lineHigh (r : PortRec) : PortRec :=
  match r.receiver with
  | .lowWait => { r with receiver := .hunt, gapRunning := true }
  | .hunt | .character _ | .breakWait => r

/-- In BREAK_WAIT the line has been high for 20 bit times (R174). -/
def PortRec.breakEnds (r : PortRec) : PortRec :=
  match r.receiver with
  | .breakWait => { r with receiver := .hunt, gapRunning := false }
  | .hunt | .character _ | .lowWait => r

/-- START_BIT (R173). -/
def execStartBit (p : Port) (samples : BitSamples) (s : State) : Host.Outcome State Fault Refusal :=
  carryOut (fun s => s.modPort p (PortRec.startBit samples)) s

/-- CHARACTER_COMPLETE (R173, R175). -/
def execCharacterComplete (p : Port) (samples : Tab 9 BitSamples) (s : State) : Host.Outcome State Fault Refusal :=
  carryOut (fun s => s.modPort p (PortRec.character samples)) s

/-- LINE_HIGH_IN_LOW_WAIT (R174). -/
def execLineHighInLowWait (p : Port) (s : State) : Host.Outcome State Fault Refusal :=
  carryOut (fun s => s.modPort p PortRec.lineHigh) s

/-- BREAK_WAIT_END (R174). -/
def execBreakWaitEnd (p : Port) (s : State) : Host.Outcome State Fault Refusal :=
  carryOut (fun s => s.modPort p PortRec.breakEnds) s

/-! ### Port reset (R177) -/

/-- The port record after a port reset (R172, R177). -/
def resetPort (_ : PortRec) : PortRec :=
  PortRec.atReset

/-- A port reset. A port that was DETACHED touches no consent record and no lead (R177). -/
def leaveByReset (p : Port) (s : State) : State :=
  let s1 := s.modPort p resetPort
  if isAttached s p then portLeft p s1 else s1

/-- PORT_RESET (R177). -/
def execPortReset (p : Port) (s : State) : Host.Outcome State Fault Refusal :=
  carryOut (leaveByReset p) s

/-! ### The transmitter (R186, R189) -/

/-- The message being sent leaves its queue, and the overflow state clears when the notice queue becomes empty
(R186, R189). -/
def PortRec.sent (r : PortRec) : PortRec :=
  match r.transmitter with
  | .idle => r
  | .reply _ => { r with replies := r.replies.drop 1, transmitter := .idle }
  | .notice _ =>
    { r with
      notices := r.notices.drop 1
      overflow := r.overflow && !(r.notices.drop 1).isEmpty
      transmitter := .idle }

/-- MESSAGE_SENT (R186): the message in progress is at its end, and after the gap the next is taken. -/
def execMessageSent (p : Port) (s : State) : Host.Outcome State Fault Refusal :=
  carryOut (fun s => s.modPort p PortRec.sent) s

/-! ### ATTACH and DETACH (R180, R181) -/

/-- ATTACH (R180). -/
def ruleAttach (p : Port) (s : State) : Answer :=
  let s1 :=
    if isAttached s p then s
    else recomputeLead (roomOf s p) (s.modPort p fun r => { r with attached := true })
  let a := roomOf s1 p
  { code := .done, results := [num a, numOrZero (leadOf s1 a)], state := s1 }

/-- DETACH (R181). -/
def ruleDetach (p : Port) (s : State) : Answer :=
  { code := .done, results := [], state := portLeft p (s.modPort p fun r => { r with attached := false }) }

def serveAttach (p : Port) (tag : Byte) (s : State) : State :=
  serve p tag true (ruleAttach p) s

def serveDetach (p : Port) (tag : Byte) (s : State) : State :=
  serve p tag false (ruleDetach p) s

/-- ATTACH (R180). -/
def execAttach (p : Port) (tag : Byte) (s : State) : Host.Outcome State Fault Refusal :=
  carryOut (serveAttach p tag) s

/-- DETACH (R181). -/
def execDetach (p : Port) (tag : Byte) (s : State) : Host.Outcome State Fault Refusal :=
  carryOut (serveDetach p tag) s

end Sys2Proof.Machine
end

