-- ==== Sys2Proof/Machine/Messages.lean ====
section
/-! DEFINITION. The arrival of a message at a port: its judgement, and the command it carries (07, R175, R176, R178; 08,
R193). -/

namespace Sys2Proof.Machine

/-- Carry out a decoded command; an event of the part is no command and does nothing here. -/
def runCommand (i : Instr) (s : State) : State :=
  match i with
  | .attach port tag => serveAttach port tag s
  | .detach port tag => serveDetach port tag s
  | .setHall port tag wallSettle trunkStart trunkHold => serveSetHall port tag wallSettle trunkStart trunkHold s
  | .readHall port tag => serveReadHall port tag s
  | .readClock port tag => serveReadClock port tag s
  | .setWall port tag wall mode => serveSetWall port tag wall mode s
  | .readWall port tag wall => serveReadWall port tag wall s
  | .readRoom port tag room => serveReadRoom port tag room s
  | .setProfile port tag floorMode maxOpen requestCap speechLimit levelFloor roomGain =>
    serveSetProfile port tag floorMode maxOpen requestCap speechLimit levelFloor roomGain s
  | .readProfile port tag segment => serveReadProfile port tag segment s
  | .trunkPower port tag trunk switch => serveTrunkPower port tag trunk switch s
  | .trunkRestart port tag trunk => serveTrunkRestart port tag trunk s
  | .trunkTest port tag trunk => serveTrunkTest port tag trunk s
  | .snapshot port tag trunk => serveSnapshot port tag trunk s
  | .readTrunk port tag trunk => serveReadTrunk port tag trunk s
  | .setSeat port tag seat enabled chair => serveSetSeat port tag seat enabled chair s
  | .readSeat port tag seat => serveReadSeat port tag seat s
  | .grant port tag seat replace => serveGrant port tag seat replace s
  | .grantNext port tag replace => serveGrantNext port tag replace s
  | .close port tag seat => serveClose port tag seat s
  | .deny port tag seat => serveDeny port tag seat s
  | .enqueue port tag seat => serveEnqueue port tag seat s
  | .clear port tag selector => serveClear port tag selector s
  | .priorityCancel port tag seat => servePriorityCancel port tag seat s
  | .readFloor port tag room selector start count => serveReadFloor port tag room selector start count s
  | .assignBooth port tag booth language slot => serveAssignBooth port tag booth language slot s
  | .releaseBooth port tag booth => serveReleaseBooth port tag booth s
  | .setRelay port tag booth source => serveSetRelay port tag booth source s
  | .readBooth port tag booth => serveReadBooth port tag booth s
  | .setPaGain port tag segment gain => serveSetPaGain port tag segment gain s
  | .joinTap port tag tap kind number => serveJoinTap port tag tap kind number s
  | .leaveTap port tag tap => serveLeaveTap port tag tap s
  | .readTap port tag tap => serveReadTap port tag tap s
  | .powerOnReset _ | .frameEvent _ _ _ | .debounceEnd _ | .consentExpiry _ | .warmingExpiry _ | .holdExpiry _
  | .deadlineExpiry _ | .releaseEnd _ | .readyReport _ | .commit _ | .uplinkFrame _ _ | .missingFrame _
  | .messageArrival _ | .portReset _ | .messageSent _ | .startBit _ _ | .characterComplete _ _
  | .lineHighInLowWait _ | .breakWaitEnd _ => s

/-- The cause for which a message is discarded; none where it is taken as a command (R176). -/
def messageFault (r : PortRec) : Option FaultCause :=
  if r.lineFault then some .line
  else if r.tooLong then some .tooLong
  else if r.buffer.length < 3 then some .short
  else if byteSum r.buffer ≠ 0 then some .sum
  else none

/-- The tag of a command message, its second byte (R193). -/
def messageTag (bytes : List Byte) : Byte :=
  bytes.getD 1 0

/-- A message taken as a command: a full reply queue comes first, then an unknown code or a wrong argument count, then
the attach test (R178). -/
def takeCommand (p : Port) (bytes : List Byte) (s : State) : State :=
  match decodeCommand p bytes with
  | some i => runCommand i s
  | none => serve p (messageTag bytes) true (refuse .badArgument) s

/-- The buffer and the marks are cleared for the next message; the gap timer has run out (R175). -/
def PortRec.clearMessage (r : PortRec) : PortRec :=
  { r with buffer := [], lineFault := false, tooLong := false, gapRunning := false }

/-- Whether a message can end: the gap timer runs in HUNT (R175). -/
def PortRec.gapDue (r : PortRec) : Bool :=
  r.receiver == .hunt && r.gapRunning

/-- The judgement of the message a port holds (R176). -/
def judgeMessage (p : Port) (s : State) : State :=
  let r := s.ports.get p
  let s1 := s.modPort p PortRec.clearMessage
  match messageFault r with
  | some cause => notify [p] (.linkFault cause 0) s1
  | none => takeCommand p r.buffer s1

/-- The gap timer of a port reaches 20 bit times (R176). -/
def endMessage (p : Port) (s : State) : State :=
  if (s.ports.get p).gapDue then judgeMessage p s else s

/-- MESSAGE_ARRIVAL (R176). -/
def execMessageArrival (p : Port) (s : State) : Host.Outcome State Fault Refusal :=
  carryOut (endMessage p) s

end Sys2Proof.Machine
end

