-- ==== Sys2Proof/Machine/Dispatch.lean ====
section
/-! DEFINITION. The meaning of every command and event of the opcode table. -/

namespace Sys2Proof.Machine

/-- The effect of a command or event on everything but the queue of waiting commands. -/
def exec (i : Instr) (s : State) : Host.Outcome State Fault Refusal :=
  match i with
  | .powerOnReset levels => Sys2Proof.Machine.execPowerOnReset levels s
  | .frameEvent micros levels booths => Sys2Proof.Machine.execFrameEvent micros levels booths s
  | .debounceEnd wall => Sys2Proof.Machine.execDebounceEnd wall s
  | .consentExpiry wall => Sys2Proof.Machine.execConsentExpiry wall s
  | .warmingExpiry trunk => Sys2Proof.Machine.execWarmingExpiry trunk s
  | .holdExpiry trunk => Sys2Proof.Machine.execHoldExpiry trunk s
  | .deadlineExpiry seat => Sys2Proof.Machine.execDeadlineExpiry seat s
  | .releaseEnd seat => Sys2Proof.Machine.execReleaseEnd seat s
  | .readyReport room => Sys2Proof.Machine.execReadyReport room s
  | .commit order => Sys2Proof.Machine.execCommit order s
  | .uplinkFrame trunk frame => Sys2Proof.Machine.execUplinkFrame trunk frame s
  | .missingFrame trunk => Sys2Proof.Machine.execMissingFrame trunk s
  | .messageArrival port => Sys2Proof.Machine.execMessageArrival port s
  | .portReset port => Sys2Proof.Machine.execPortReset port s
  | .messageSent port => Sys2Proof.Machine.execMessageSent port s
  | .attach port tag => Sys2Proof.Machine.execAttach port tag s
  | .detach port tag => Sys2Proof.Machine.execDetach port tag s
  | .setHall port tag settle start hold => Sys2Proof.Machine.execSetHall port tag settle start hold s
  | .readHall port tag => Sys2Proof.Machine.execReadHall port tag s
  | .readClock port tag => Sys2Proof.Machine.execReadClock port tag s
  | .setWall port tag wall mode => Sys2Proof.Machine.execSetWall port tag wall mode s
  | .readWall port tag wall => Sys2Proof.Machine.execReadWall port tag wall s
  | .readRoom port tag room => Sys2Proof.Machine.execReadRoom port tag room s
  | .setProfile port tag mode cap reqs speech low gain => Sys2Proof.Machine.execSetProfile port tag mode cap reqs speech low gain s
  | .readProfile port tag segment => Sys2Proof.Machine.execReadProfile port tag segment s
  | .trunkPower port tag trunk switch => Sys2Proof.Machine.execTrunkPower port tag trunk switch s
  | .trunkRestart port tag trunk => Sys2Proof.Machine.execTrunkRestart port tag trunk s
  | .trunkTest port tag trunk => Sys2Proof.Machine.execTrunkTest port tag trunk s
  | .snapshot port tag trunk => Sys2Proof.Machine.execSnapshot port tag trunk s
  | .readTrunk port tag trunk => Sys2Proof.Machine.execReadTrunk port tag trunk s
  | .setSeat port tag seat enabled chair => Sys2Proof.Machine.execSetSeat port tag seat enabled chair s
  | .readSeat port tag seat => Sys2Proof.Machine.execReadSeat port tag seat s
  | .grant port tag seat replace => Sys2Proof.Machine.execGrant port tag seat replace s
  | .grantNext port tag replace => Sys2Proof.Machine.execGrantNext port tag replace s
  | .close port tag seat => Sys2Proof.Machine.execClose port tag seat s
  | .deny port tag seat => Sys2Proof.Machine.execDeny port tag seat s
  | .enqueue port tag seat => Sys2Proof.Machine.execEnqueue port tag seat s
  | .clear port tag selector => Sys2Proof.Machine.execClear port tag selector s
  | .priorityCancel port tag seat => Sys2Proof.Machine.execPriorityCancel port tag seat s
  | .readFloor port tag room selector start count => Sys2Proof.Machine.execReadFloor port tag room selector start count s
  | .assignBooth port tag booth language slot => Sys2Proof.Machine.execAssignBooth port tag booth language slot s
  | .releaseBooth port tag booth => Sys2Proof.Machine.execReleaseBooth port tag booth s
  | .setRelay port tag booth source => Sys2Proof.Machine.execSetRelay port tag booth source s
  | .readBooth port tag booth => Sys2Proof.Machine.execReadBooth port tag booth s
  | .setPaGain port tag segment gain => Sys2Proof.Machine.execSetPaGain port tag segment gain s
  | .joinTap port tag tap kind number => Sys2Proof.Machine.execJoinTap port tag tap kind number s
  | .leaveTap port tag tap => Sys2Proof.Machine.execLeaveTap port tag tap s
  | .readTap port tag tap => Sys2Proof.Machine.execReadTap port tag tap s
  | .startBit port samples => Sys2Proof.Machine.execStartBit port samples s
  | .characterComplete port samples => Sys2Proof.Machine.execCharacterComplete port samples s
  | .lineHighInLowWait port => Sys2Proof.Machine.execLineHighInLowWait port s
  | .breakWaitEnd port => Sys2Proof.Machine.execBreakWaitEnd port s

end Sys2Proof.Machine
end

