-- ==== Sys2Proof/Safety.lean ====
section
/-! DEFINITION. What a safe run keeps: the conditions that hold after power-on reset and after every step; and the terms
in which the statements say what an event leaves behind. The part raises no fault and no refusal, so every run is free
of them. -/

namespace Sys2Proof.Safety

open Sys2Proof.Machine

/-! ### What an event leaves in the ports -/

/-- A notice with the ports it is addressed to (R188). -/
abbrev Sent := List Port × NoticeBody

/-- What the port record of `q` becomes when the notices of one event are addressed in order (R188, R189). -/
def deliverAll (clock : Clock) (q : Port) (sent : List Sent) (r : PortRec) : PortRec :=
  sent.foldl (fun r n => if n.1.contains q then r.deliver { clock := clock, body := n.2 } else r) r

/-- What the port record of `q` becomes when a reply, if there is one, is queued (R184). -/
def queueReply (q : Port) (reply : Option (Port × Reply)) (r : PortRec) : PortRec :=
  match reply with
  | some x => if q = x.1 then { r with replies := r.replies ++ [x.2] } else r
  | none => r

/-- The state `s` after the notices `sent` and the reply of one event are queued and idle transmitters have taken their
next message (R184, R186, R188). Nothing but the ports changes. -/
def conclude (s : State) (sent : List Sent) (reply : Option (Port × Reply)) : State :=
  { s with ports := Tab.ofFn fun q => (queueReply q reply (deliverAll s.clock q sent (s.ports.get q))).startSending }

/-- The state `s` after a command of port `p` is answered with a code and results and sends no notice. -/
def answered (s : State) (p : Port) (tag : Byte) (code : ReplyCode) (results : List Byte) : State :=
  conclude s [] (some (p, { tag := tag, code := code, results := results }))

/-! ### When a command is taken (R178, R179, R182) -/

/-- A reply place is free at a port. -/
def hasPlace (s : State) (p : Port) : Prop :=
  (s.ports.get p).replies.length < Config.replyCap

/-- A port's command passes the checks that are the same for every command, and the part is not held in reset. -/
def served (s : State) (p : Port) : Prop :=
  s.held = false ∧ hasPlace s p ∧ (s.ports.get p).attached = true

/-- A port leads its own room, whose anchor is `a`, and the room is STEADY. -/
def leads (s : State) (p : Port) (a : Segment) : Prop :=
  served s p ∧ roomOf s p = a ∧ leadOf s a = some p ∧ isDraining s a = false

/-- A command's reply is at the end of the reply queue of its port, and no other reply queue changed. -/
def repliedWith (s t : State) (p : Port) (r : Reply) : Prop :=
  (t.ports.get p).replies = (s.ports.get p).replies ++ [r] ∧
    ∀ q, q ≠ p → (t.ports.get q).replies = (s.ports.get q).replies

/-- How a LEAD command of port `p` with the outcome `o` is turned away before its own tests: an argument out of range
(`bad`) comes first, then a port that does not lead its room, then a room that is DRAINING (R81, R104, R117, R182). -/
def turnedAway (s : State) (p : Port) (tag : Byte) (bad : Prop) (o : Host.Outcome State Fault Refusal) : Prop :=
  served s p →
    (bad → o = .next (answered s p tag .badArgument [])) ∧
    (¬bad → leadOf s (roomOf s p) ≠ some p → o = .next (answered s p tag .notLead [])) ∧
    (¬bad → leadOf s (roomOf s p) = some p → isDraining s (roomOf s p) = true →
      o = .next (answered s p tag .busyRepartition []))

/-- Whether a command is ATTACH or a read (R179). -/
def isRead : Instr → Bool
  | .attach _ _ | .readHall _ _ | .readClock _ _ | .readWall _ _ _ | .readRoom _ _ _ | .readProfile _ _ _
  | .readTrunk _ _ _ | .readSeat _ _ _ | .readFloor _ _ _ _ _ _ | .readBooth _ _ _ | .readTap _ _ _ => true
  | .powerOnReset _ | .frameEvent _ _ _ | .debounceEnd _ | .consentExpiry _ | .warmingExpiry _ | .holdExpiry _
  | .deadlineExpiry _ | .releaseEnd _ | .readyReport _ | .commit _ | .uplinkFrame _ _ | .missingFrame _
  | .messageArrival _ | .portReset _ | .messageSent _ | .detach _ _ | .setHall _ _ _ _ _ | .setWall _ _ _ _
  | .setProfile _ _ _ _ _ _ _ _ | .trunkPower _ _ _ _ | .trunkRestart _ _ _ | .trunkTest _ _ _ | .snapshot _ _ _
  | .setSeat _ _ _ _ _ | .grant _ _ _ _ | .grantNext _ _ _ | .close _ _ _ | .deny _ _ _ | .enqueue _ _ _
  | .clear _ _ _ | .priorityCancel _ _ _ | .assignBooth _ _ _ _ _ | .releaseBooth _ _ _ | .setRelay _ _ _ _
  | .setPaGain _ _ _ _ | .joinTap _ _ _ _ _ | .leaveTap _ _ _ | .startBit _ _ | .characterComplete _ _
  | .lineHighInLowWait _ | .breakWaitEnd _ => false

/-- The tag of a command. -/
def commandTag : Instr → Byte
  | .attach _ t | .detach _ t | .setHall _ t _ _ _ | .readHall _ t | .readClock _ t | .setWall _ t _ _
  | .readWall _ t _ | .readRoom _ t _ | .setProfile _ t _ _ _ _ _ _ | .readProfile _ t _ | .trunkPower _ t _ _
  | .trunkRestart _ t _ | .trunkTest _ t _ | .snapshot _ t _ | .readTrunk _ t _ | .setSeat _ t _ _ _ | .readSeat _ t _
  | .grant _ t _ _ | .grantNext _ t _ | .close _ t _ | .deny _ t _ | .enqueue _ t _ | .clear _ t _
  | .priorityCancel _ t _ | .readFloor _ t _ _ _ _ | .assignBooth _ t _ _ _ | .releaseBooth _ t _ | .setRelay _ t _ _
  | .readBooth _ t _ | .setPaGain _ t _ _ | .joinTap _ t _ _ _ | .leaveTap _ t _ | .readTap _ t _ => t
  | .powerOnReset _ | .frameEvent _ _ _ | .debounceEnd _ | .consentExpiry _ | .warmingExpiry _ | .holdExpiry _
  | .deadlineExpiry _ | .releaseEnd _ | .readyReport _ | .commit _ | .uplinkFrame _ _ | .missingFrame _
  | .messageArrival _ | .portReset _ | .messageSent _ | .startBit _ _ | .characterComplete _ _
  | .lineHighInLowWait _ | .breakWaitEnd _ => 0

/-- The reply codes of the refused group (R191). -/
def isRefusal : ReplyCode → Bool
  | .done | .adjusted | .pending => false
  | .badArgument | .notAttached | .notSegment | .notLead | .notAdjacent | .peerAbsent | .busyRepartition | .noSuch
  | .seatBusy | .floorFull | .priorityActive | .queueFull | .poolFull | .wrongMode | .boothTaken | .notSameRoom
  | .relayLoop | .relayDepth | .tapTaken | .trunkNotLive | .notOwner => true

/-! ### What a command may touch -/

/-- Between `s` and `t` only what the partition controller changes up to a drain may differ: wall records, room statuses,
the repartition, fade phases, holding trunks, and the ports. -/
def onlyWalls (s t : State) : Prop :=
  t =
      { s with
        walls := t.walls
        rooms := t.rooms
        repartition := t.repartition
        mixes := t.mixes
        trunks := t.trunks
        ports := t.ports } ∧
    (∀ a, t.mixes.get a = { s.mixes.get a with phase := (t.mixes.get a).phase }) ∧
    (∀ k, t.trunks.get k = { s.trunks.get k with holding := (t.trunks.get k).holding }) ∧
    ∀ a, (t.rooms.get a).map (fun r => (r.members, r.lead)) = (s.rooms.get a).map fun r => (r.members, r.lead)

/-! ### Grants, removals and resumptions (R75, R76, R103) -/

/-- A channel table in which a seat holds a channel: the one it has, else the lowest free one (R50). -/
def claimed (channels : Tab 16 (Option SeatId)) (i : SeatId) : Tab 16 (Option SeatId) :=
  if channels.items.contains (some i) then channels
  else
    match (List.finRange 16).find? fun c => (channels.get c).isNone with
    | some c => channels.set c (some i)
    | none => channels

/-- The channel table of trunk `k` in which the seats `gone` of the trunk hold no channel (R51). -/
def freed (k : TrunkId) (gone : List SeatId) (channels : Tab 16 (Option SeatId)) : Tab 16 (Option SeatId) :=
  channels.map fun held =>
    match held with
    | some i => if gone.contains i && segmentOf i == k then none else some i
    | none => none

/-- The state after a grant of seat `i` in the room with anchor `a`, before its notice (R75, R146). -/
def afterGrant (s : State) (a : Segment) (i : SeatId) (byPriority : Bool) : State :=
  let chair := (s.seats.get i).chair
  let limit := (s.profiles.get a).speechLimit
  let entry : Speaker :=
    { seat := i
      grantTime := s.clock
      state := .opened
      chairAtGrant := chair
      byPriority := byPriority
      deadline := if chair = true ∨ limit = 0 then none else some (s.clock + BitVec.ofNat 32 (1000 * limit))
      remaining := none
      level := 0
      gain := 0 }
  let f := s.floors.get a
  { s with
    floors :=
      s.floors.set a
        { f with
          speakers := insertBy (speakerBefore s.clock) entry f.speakers
          queue := f.queue.eraseP fun q => q.seat == i }
    poolFree := s.poolFree + if (f.queue.any fun q => q.seat == i) then 1 else 0
    mixes := s.mixes.modify a fun m => { m with release := m.release.filter fun e => e.seat != i }
    trunks := s.trunks.modify (segmentOf i) fun r => { r with channels := claimed r.channels i } }

/-- The state after the removal of seat `i`'s speaker entry, whose gain is `gain`, to the release set, before its notice
(R76, R102, R149). -/
def afterRemoval (s : State) (a : Segment) (i : SeatId) (gain : Nat) : State :=
  let grown := (s.mixes.get a).release ++ [{ seat := i, gain := gain, stamp := s.releaseCounter, fresh := true }]
  let dropped := (grown.take (grown.length - 6)).map Release.seat
  { s with
    floors :=
      s.floors.modify a fun f =>
        { f with
          speakers := f.speakers.eraseP fun e => e.seat == i
          holders := f.holders.filter fun h => h.seat != i }
    releaseCounter := s.releaseCounter + 1
    mixes := s.mixes.modify a fun m => { m with release := grown.drop (grown.length - 6) }
    trunks :=
      Tab.ofFn fun k => { s.trunks.get k with channels := freed k dropped (s.trunks.get k).channels } }

/-- The state after the removal of seat `i`'s request entry, before its notice (R77). -/
def afterDequeue (s : State) (a : Segment) (i : SeatId) (mark : Bool) : State :=
  { s with
    floors := s.floors.modify a fun f => { f with queue := f.queue.eraseP fun q => q.seat == i }
    poolFree := s.poolFree + 1
    trunks :=
      s.trunks.modify (segmentOf i) fun r =>
        { r with refusals := if mark then r.refusals.set (positionOf i) true else r.refusals } }

/-- The state after a request entry of seat `i` is created at the tail of its group, before its notice (R73). -/
def afterEnqueue (s : State) (a : Segment) (i : SeatId) : State :=
  { s with
    floors :=
      s.floors.modify a fun f =>
        { f with queue := f.queue ++ [{ seat := i, stamp := s.stampCounter, returned := false }] }
    poolFree := s.poolFree - 1
    stampCounter := s.stampCounter + 1 }

/-- The state after everything of seat `i` leaves the floor, the holder set, the release set and the channel table, before
its notices (R59, R61, R78, R151). -/
def afterDrop (s : State) (a : Segment) (i : SeatId) : State :=
  { s with
    floors :=
      s.floors.modify a fun f =>
        { speakers := f.speakers.eraseP fun e => e.seat == i
          queue := f.queue.eraseP fun q => q.seat == i
          holders := f.holders.filter fun h => h.seat != i }
    poolFree := s.poolFree + if ((s.floors.get a).queue.any fun q => q.seat == i) then 1 else 0
    mixes := s.mixes.modify a fun m => { m with release := m.release.filter fun e => e.seat != i }
    trunks :=
      s.trunks.modify (segmentOf i) fun r =>
        { r with channels := r.channels.map fun held => if held = some i then none else held } }

/-- A speaker entry resumed at hall clock `now` (R103 step 1). -/
def resumed (now : Clock) (e : Speaker) : Speaker :=
  match e.state with
  | .suspended =>
    { e with state := .opened, deadline := e.remaining.map fun r => now + BitVec.ofNat 32 r, remaining := none }
  | .opened => e

/-- A speaker entry suspended at hall clock `now` (R98). -/
def suspended (now : Clock) (e : Speaker) : Speaker :=
  match e.state, e.chairAtGrant with
  | .opened, false =>
    { e with state := .suspended, remaining := e.deadline.map fun d => max 1 (d - now).toInt.toNat, deadline := none }
  | _, _ => e

/-- The state after seat `i` joins the holder set of the room with anchor `a` and the non-chair OPEN entries are suspended,
before their notices (R98, R100). -/
def afterHold (s : State) (a : Segment) (i : SeatId) : State :=
  { s with
    floors :=
      s.floors.modify a fun f =>
        { f with
          speakers := f.speakers.map (suspended s.clock)
          holders := insertBy (holderBefore s.clock) { seat := i, pressTime := s.clock } f.holders } }

/-! ### Events that several commands share -/

/-- The state `s` after a command of port `p` sends notices and is answered with a code and results. -/
def replied (s : State) (sent : List Sent) (p : Port) (tag : Byte) (code : ReplyCode) (results : List Byte) : State :=
  conclude s sent (some (p, { tag := tag, code := code, results := results }))

/-- The WALL notice of a wall with record `r` (R6). -/
def wallSent (w : WallId) (r : Wall) : Sent :=
  (sidesOf w, .wall w r.mode r.sensed r.effective r.committed)

/-- The phase that a drain request leaves (R158). -/
def drainedPhase (m : MixRoom) : FadePhase :=
  match m.phase with
  | .full | .falling => .falling
  | .rising => if m.fade = 0 then .silent else .falling
  | .silent => .silent

/-- The state in which the rooms with the anchors `affected` begin to drain: the repartition with its target map, the
statuses, the fades and the holding trunks. A room that rises from fade 0 is ready at once (R27, R56, R158). -/
def drainBegun (s : State) (affected : List Segment) : State :=
  { s with
    repartition :=
      some
        { target := effectiveMap s
          affected := affected
          ready := affected.filter fun a => (s.mixes.get a).phase == .rising && (s.mixes.get a).fade == 0 }
    rooms :=
      Tab.ofFn fun a =>
        if affected.contains a then (s.rooms.get a).map fun r => { r with status := .draining } else s.rooms.get a
    mixes :=
      Tab.ofFn fun a =>
        if affected.contains a then { s.mixes.get a with phase := drainedPhase (s.mixes.get a) } else s.mixes.get a
    trunks :=
      Tab.ofFn fun k =>
        { s.trunks.get k with
          holding := (s.trunks.get k).holding || affected.any fun a => (membersOf s a).contains k } }

/-- The state and the notices after the record of wall `w` changes to `r`: one WALL notice; where the effective state
changed in STEADY and the maps now differ, the loop case, or the drain of the affected rooms with their ROOM notices (R6,
R25 to R27). -/
def wallChanged (s : State) (w : WallId) (r : Wall) : State × List Sent :=
  let s1 : State := { s with walls := s.walls.set w r }
  if r.effective = (s.walls.get w).effective ∨ s.repartition.isSome = true ∨ effectiveMap s1 = committedMap s1 then
    (s1, [wallSent w r])
  else if affectedRooms s1 (effectiveMap s1) = [] then
    let s2 : State := { s1 with walls := s1.walls.map fun x => { x with committed := x.effective } }
    (s2,
      (allWalls.filter fun x => x == w || (s1.walls.get x).committed != (s1.walls.get x).effective).map fun x =>
        wallSent x (s2.walls.get x))
  else
    let affected := affectedRooms s1 (effectiveMap s1)
    (drainBegun s1 affected,
      wallSent w r :: affected.map fun a => (membersOf s a, .room a (membersOf s a) (leadOf s a) .draining))

/-- The FLOOR notice of a room, to its member ports (R70). -/
def floorSent (s : State) (a : Segment) (i : SeatId) (change : FloorChange) (reason : FloorReason) : Sent :=
  (membersOf s a, .floor a i change reason)

/-- The tests of R79 on the floor: auto-advance may grant the head of the queue of the room with anchor `a`, if it is
STEADY. -/
def mayGrant (s : State) (a : Segment) : Prop :=
  let f := s.floors.get a
  (s.profiles.get a).floorMode = .autoQueue ∧ f.queue ≠ [] ∧ openCount f < (s.profiles.get a).maxOpen ∧
    f.speakers.length < 10 ∧ f.holders = []

/-- The first `n` entries of the queue of the room with anchor `a`. -/
def heads (s : State) (a : Segment) (n : Nat) : List SeatId :=
  ((s.floors.get a).queue.take n).map Request.seat

/-- The state after the first `n` heads of the queue are granted, one after another (R75, R79). -/
def afterHeads (s : State) (a : Segment) (n : Nat) : State :=
  (heads s a n).foldl (fun x i => afterGrant x a i false) s

/-- The notices of those grants: GRANTED without a reason, in queue order (R70, R79). -/
def headsSent (s : State) (a : Segment) (n : Nat) : List Sent :=
  (heads s a n).map fun i => floorSent s a i .granted .none

/-- Auto-advance, started in state `s` in the room with anchor `a`, makes `n` grants: the head of the queue is granted as long
as the tests of R79 hold, and the first test that fails stops it; in a room that is not STEADY there is none. -/
def advances (s : State) (a : Segment) (steady : Bool) (n : Nat) : Prop :=
  n ≤ (s.floors.get a).queue.length ∧ (∀ k < n, steady = true ∧ mayGrant (afterHeads s a k) a) ∧
    ¬(steady = true ∧ mayGrant (afterHeads s a n) a)

/-- The end of a handling that starts auto-advance: its own changes lead to `s` with the notices `sent`; auto-advance grants
heads of the queue, none where a test fails at once; and a command is answered with a reply, which may depend on the state
left (R79, R80). -/
def advanced (s : State) (a : Segment) (sent : List Sent) (reply : State → Option (Port × Reply))
    (o : Host.Outcome State Fault Refusal) : Prop :=
  ∃ n, advances s a (!isDraining s a) n ∧
    o = .next (conclude (afterHeads s a n) (sent ++ headsSent s a n) (reply (afterHeads s a n)))

/-- The state after priority has ended in the room with anchor `a` and its SUSPENDED entries are resumed (R103). -/
def priorityEnded (s : State) (a : Segment) : State :=
  { s with
    floors :=
      s.floors.modify a fun f => { f with holders := [], speakers := f.speakers.map (resumed s.clock) } }

/-- The notices of the end of priority: RESUMED for each SUSPENDED entry in list order, then PRIORITY off (R103). -/
def priorityEndSent (s : State) (a : Segment) : List Sent :=
  ((s.floors.get a).speakers.filter fun e => e.state == .suspended).map (fun e => floorSent s a e.seat .resumed .none) ++
    [(membersOf s a, .priority a false)]

/-- The notices of a joined hold in state `s`, before it: SUSPENDED for each non-chair OPEN entry in list order, then
PRIORITY on where no hold was there (R98, R105). -/
def holdSent (s : State) (a : Segment) : List Sent :=
  ((s.floors.get a).speakers.filter fun e => !e.chairAtGrant && e.state == .opened).map
      (fun e => floorSent s a e.seat .suspended .none) ++
    if (s.floors.get a).holders = [] then [(membersOf s a, .priority a true)] else []

/-- The notices of seat `i` leaving the floor (R70, R78). -/
def dropSent (s : State) (a : Segment) (i : SeatId) (reason : FloorReason) : List Sent :=
  (if hasSpeaker (s.floors.get a) i then [floorSent s a i .closed reason] else []) ++
    if hasRequest (s.floors.get a) i then [floorSent s a i .dequeued reason] else []

/-- The end of an event or command with the outcome `o` in the room with anchor `a`, whose holders were `before`: its own
changes lead to `s` with the notices `sent`. Where the last hold has gone, the SUSPENDED entries resume, PRIORITY off is
sent and auto-advance runs (R103); where none was there, auto-advance runs if the event started it (R80); where one is left,
nothing more is done. A command is answered with `reply`. -/
def handled (before : List Holder) (s : State) (a : Segment) (sent : List Sent) (started : Bool)
    (reply : Option (Port × Reply)) (o : Host.Outcome State Fault Refusal) : Prop :=
  let left := (s.floors.get a).holders
  (left ≠ [] ∨ before = [] ∧ started = false → o = .next (conclude s sent reply)) ∧
    (before = [] → left = [] → started = true → advanced s a sent (fun _ => reply) o) ∧
    (before ≠ [] → left = [] →
      advanced (priorityEnded s a) a (sent ++ priorityEndSent s a) (fun _ => reply) o)

/-- The state and the notices after holder `i` leaves the holder set, with its entry where priority opened it (R101). -/
def afterLeave (a : Segment) (x : State × List Sent) (i : SeatId) : State × List Sent :=
  match (x.1.floors.get a).speakers.find? fun e => e.seat == i && e.byPriority with
  | some e => (afterRemoval x.1 a i e.gain, x.2 ++ [floorSent x.1 a i .closed .priorityEnd])
  | none =>
    ({ x.1 with
        floors := x.1.floors.modify a fun f => { f with holders := f.holders.filter fun h => h.seat != i } }, x.2)

/-- A run of the allocator over the booths of the room with anchor `a` (R121). -/
def allocatorRun (s : State) (a : Segment) : List (BoothId × Allocation) × SlotMap :=
  allocateAll s (boothsInOrder s a) (Tab.replicate 6 none) []

/-- The state after a run of the allocator for the room with anchor `a` (R121). -/
def allocated (s : State) (a : Segment) : State :=
  { s with
    booths :=
      Tab.ofFn fun b =>
        { s.booths.get b with
          allocation :=
            match (allocatorRun s a).1.find? fun x => x.1 == b with
            | some x => x.2
            | none => (s.booths.get b).allocation }
    slotMaps := s.slotMaps.set a (allocatorRun s a).2 }

/-- The BOOTH notice of a booth in state `s`, to the member ports of the room with anchor `a` (R119). -/
def boothSent (s : State) (a : Segment) (b : BoothId) : Sent :=
  let r := s.booths.get b
  (membersOf s a, .booth b r.assignment (boothRoom s b) r.language r.preferred r.allocation r.source)

/-- The BOOTH notices of a run: one for each booth of the room whose allocation differs from that before, in the
allocator's order (R119, R121). -/
def allocatedSent (before s : State) (a : Segment) : List Sent :=
  ((allocatorRun s a).1.filter fun x => (before.booths.get x.1).allocation != x.2).map fun x =>
    boothSent (allocated s a) a x.1

/-! ### Conditions that every step keeps -/

/-- The room table is the connected components of the committed wall states, each under its lowest segment (R15). -/
def roomsFollowWalls (s : State) : Prop :=
  ∀ a, (s.rooms.get a).map Room.members =
    if anchorIn (committedMap s) a = a then some (component (committedMap s) a) else none

/-- A repartition in progress holds exactly the rooms its target changes, and exactly these are DRAINING (R25, R27). -/
def drainMatches (s : State) : Prop :=
  match s.repartition with
  | none => ∀ a, isDraining s a = false
  | some rp => rp.affected = affectedRooms s rp.target ∧ ∀ a, isDraining s a = rp.affected.contains a

/-- The room table and the repartition are in order. -/
def roomsOk (s : State) : Prop :=
  roomsFollowWalls s ∧ drainMatches s

/-- The lead of each room is the port of its lowest member that is ATTACHED (R17). -/
def leadsOk (s : State) : Prop :=
  ∀ a r, s.rooms.get a = some r → r.lead = r.members.find? fun g => (s.ports.get g).attached

/-- A wall record is in order: the effective state follows the mode, a debounce runs exactly while raw and sensed
differ, and a consent record belongs to a side of the wall, to a wall that is not FORCED_OPEN, and to two attached ports
(R3, R5, R9, R13). -/
def wallOk (s : State) (w : WallId) : Prop :=
  let r := s.walls.get w
  r.effective = effectiveFor r.mode r.sensed ∧
    (r.changeTime.isSome = true ↔ r.raw ≠ r.sensed) ∧
    ∀ c, r.consent = some c → adjacentTo w c.requester = true ∧ r.mode ≠ .forcedOpen ∧
      ∀ g, adjacentTo w g = true → (s.ports.get g).attached = true

/-- Every wall record is in order. -/
def wallsOk (s : State) : Prop :=
  ∀ w, wallOk s w

/-- A trunk record is in order: the items that are present with a power state are present exactly with it, a hold runs
exactly while the link view is UP and the trunk is not LOCKED, and the counts stay in their ranges (R32, R44, R196). -/
def trunkOk (r : Trunk) : Prop :=
  (r.supervision.isSome = true ↔ r.power = .live) ∧
    (r.warmDeadline.isSome = true ↔ r.power = .warming) ∧
    (r.linkUp = true → r.power = .live) ∧
    (r.supervision = some .locked → r.linkUp = true) ∧
    (r.holdDeadline.isSome = true ↔ r.linkUp = true ∧ r.supervision ≠ some .locked) ∧
    r.confirmCount ≤ 4 ∧ (r.supervision = some .confirm → r.confirmCount ≤ 3) ∧
    r.blockPos ≤ 63 ∧ r.blockErrors ≤ 5 ∧ r.intake.length ≤ Config.intakeCap ∧
    (r.holding = false → r.intake = [])

/-- Every trunk record is in order. -/
def trunksOk (s : State) : Prop :=
  ∀ t, trunkOk (s.trunks.get t)

/-- A channel table holds seats of its own trunk, each on one channel (R50). -/
def channelsOk (s : State) : Prop :=
  ∀ t c i, (s.trunks.get t).channels.get c = some i →
    segmentOf i = t ∧ ∀ c', (s.trunks.get t).channels.get c' = some i → c' = c

/-- The seats of all release entries and of all speaker entries of the hall. -/
def soundingSeats (s : State) : List SeatId :=
  (allSegments.flatMap fun a => (s.mixes.get a).release.map Release.seat) ++
    allSegments.flatMap fun a => (s.floors.get a).speakers.map Speaker.seat

/-- The channel table of each trunk holds exactly the seats of the trunk with a speaker entry or a release entry (R50). -/
def channelsExact (s : State) : Prop :=
  ∀ i, (∃ c, (s.trunks.get (segmentOf i)).channels.get c = some i) ↔ i ∈ soundingSeats s

/-- Every holder is a chair with a speaker entry in the list of the same room, no seat appears twice in a holder set, and every
speaker entry is a chair entry exactly when its seat is a chair (R62, R65, R97). -/
def holdersOk (s : State) : Prop :=
  ∀ a,
    ((s.floors.get a).holders.map Holder.seat).Nodup ∧
    (∀ h ∈ (s.floors.get a).holders, ∃ e ∈ (s.floors.get a).speakers, e.seat = h.seat ∧ e.chairAtGrant = true) ∧
    ∀ e ∈ (s.floors.get a).speakers, e.chairAtGrant = (s.seats.get e.seat).chair

/-- The collections of every room stay within their capacities (R64, R65, R97, R148). -/
def floorsBounded (s : State) : Prop :=
  ∀ a, (s.floors.get a).speakers.length ≤ Config.speakerCap ∧ (s.floors.get a).holders.length ≤ Config.holderCap ∧
    (s.mixes.get a).release.length ≤ Config.releaseCap

/-- Every release entry stands under the room of its seat's segment (R148, R149). -/
def releasesAtHome (s : State) : Prop :=
  ∀ a, ∀ e ∈ (s.mixes.get a).release, segmentOf e.seat ∈ membersOf s a

/-- Every event in an intake queue is of a seat of the trunk (R54, R56). -/
def intakesAtHome (s : State) : Prop :=
  ∀ k, ∀ e ∈ (s.trunks.get k).intake, segmentOf e.seat = k

/-- Speaker lists and holder sets are in order of age, the oldest first, and of seat number where ages are equal (R65,
R97). -/
def listsOrdered (s : State) : Prop :=
  ∀ a,
    ((s.floors.get a).speakers.Pairwise fun x y =>
      age s.clock y.grantTime < age s.clock x.grantTime ∨
        age s.clock y.grantTime = age s.clock x.grantTime ∧ x.seat ≤ y.seat) ∧
    (s.floors.get a).holders.Pairwise fun x y =>
      age s.clock y.pressTime < age s.clock x.pressTime ∨
        age s.clock y.pressTime = age s.clock x.pressTime ∧ x.seat ≤ y.seat

/-- Release sets are in the order of their stamps, the oldest first; the stamps of the hall differ and lie behind the
release counter, by at most `span`; no seat has two release entries, nor one beside a speaker entry (R148). -/
def releasesOrdered (span : Nat) (s : State) : Prop :=
  let all := allSegments.flatMap fun a => (s.mixes.get a).release
  (∀ a, (s.mixes.get a).release.Pairwise fun x y => stampEarlier x.stamp y.stamp = true) ∧
    (∀ e ∈ all, 0 < age s.releaseCounter e.stamp ∧ age s.releaseCounter e.stamp ≤ span) ∧
    (all.map Release.stamp).Nodup ∧ (soundingSeats s).Nodup

/-- Request queues are in order: returned entries first, then the others, each group by stamp; the stamps of the hall differ
and lie behind the request stamp counter, by at most `span` (R67, R68). -/
def queuesOrdered (span : Nat) (s : State) : Prop :=
  let all := allSegments.flatMap fun a => (s.floors.get a).queue
  (∀ a, (s.floors.get a).queue.Pairwise fun x y =>
      x.returned = true ∧ y.returned = false ∨
        x.returned = y.returned ∧ stampEarlier x.stamp y.stamp = true) ∧
    (∀ q ∈ all, 0 < age s.stampCounter q.stamp ∧ age s.stampCounter q.stamp ≤ span) ∧
    (all.map Request.stamp).Nodup

/-- Levels, gains and fades stay in their ranges (R140). -/
def mixInRange (s : State) : Prop :=
  ∀ a, (∀ e ∈ (s.floors.get a).speakers, e.level ≤ Config.levelTop ∧ e.gain ≤ Config.unity) ∧
    (∀ e ∈ (s.mixes.get a).release, e.gain ≤ Config.unity) ∧ (s.mixes.get a).fade ≤ Config.unity ∧
    s.paGains.get a ≤ Config.unity

/-- A speaker entry is SUSPENDED exactly when it is a non-chair entry and priority is held in its room (R98, R103). -/
def priorityOk (s : State) : Prop :=
  ∀ a, ∀ e ∈ (s.floors.get a).speakers,
    e.state = .suspended ↔ e.chairAtGrant = false ∧ (s.floors.get a).holders ≠ []

/-- The seats of the floor entries of a room. -/
def entrySeats (f : Floor) : List SeatId :=
  f.speakers.map Speaker.seat ++ f.queue.map Request.seat

/-- Every floor entry belongs to a seat that is ONLINE, enabled and of the room, no seat has two, and the pool is whole
(R67, R69). -/
def entriesOk (s : State) : Prop :=
  (∀ a, (entrySeats (s.floors.get a)).Nodup) ∧
    (∀ a, ∀ i ∈ entrySeats (s.floors.get a),
      segmentOf i ∈ membersOf s a ∧ (s.seats.get i).online = true ∧ (s.seats.get i).enabled = true) ∧
    (allSegments.map fun a => (s.floors.get a).queue.length).sum + s.poolFree = Config.poolSize

/-- Every booth's source is FLOOR or a booth of the same room, at most 2 relay hops from FLOOR (R125). -/
def relaysOk (s : State) : Prop :=
  ∀ b, relayDepth s b ≤ 2 ∧
    ∀ k, (s.booths.get b).source = some k → (boothRoom s b).isSome = true ∧ boothRoom s k = boothRoom s b

/-- A port record is in order: its queues and its buffer stay within their capacities, and the overflow state is set
exactly as its last notice says (R172, R185, R189). -/
def portOk (r : PortRec) : Prop :=
  r.replies.length ≤ Config.replyCap ∧ r.notices.length ≤ Config.noticeCap ∧ r.buffer.length ≤ Config.bufferCap ∧
    (r.overflow = false → r.notices.length < Config.noticeCap) ∧
    (r.overflow = true → r.notices.getLast?.map Notice.body = some .overflow)

/-- Every port record is in order. -/
def portsOk (s : State) : Prop :=
  ∀ p, portOk (s.ports.get p)

/-- No transmitter is idle while its port holds a message, unless the part is held in reset (R186, R197). -/
def transmittersOk (s : State) : Prop :=
  s.held = false → ∀ p, (s.ports.get p).transmitter = .idle → (s.ports.get p).replies = [] ∧ (s.ports.get p).notices = []

/-- All the conditions together. -/
def safe (s : State) : Prop :=
  roomsOk s ∧ leadsOk s ∧ wallsOk s ∧ trunksOk s ∧ channelsOk s ∧ floorsBounded s ∧ mixInRange s ∧ priorityOk s ∧
    entriesOk s ∧ relaysOk s ∧ portsOk s ∧ listsOrdered s ∧ releasesAtHome s ∧ intakesAtHome s ∧
    transmittersOk s ∧ channelsExact s ∧ holdersOk s

/-! ### Terms of the commit -/

/-- The entries of the affected rooms whose seats' segments are members of the new room with anchor `a` (R92). -/
def gathered (s : State) (rp : Repartition) (a : Segment) : Floor :=
  let mine := fun i : SeatId => (component rp.target a).contains (segmentOf i)
  let floors := rp.affected.map fun b => s.floors.get b
  { speakers := sortBy (speakerBefore s.clock) ((floors.flatMap Floor.speakers).filter fun e => mine e.seat)
    queue := (floors.flatMap Floor.queue).filter fun q => mine q.seat
    holders := (floors.flatMap Floor.holders).filter fun h => mine h.seat }

/-- The release entries gathered for the new room with anchor `a` (R160). -/
def gatheredRelease (s : State) (rp : Repartition) (a : Segment) : List Release :=
  (rp.affected.flatMap fun b => (s.mixes.get b).release).filter fun e =>
    (component rp.target a).contains (segmentOf e.seat)

/-- The entries that a trim takes from a gathered floor, in the order taken: the non-chair entries from the latest on, then
the chair entries that are no holder, then the others, until ten remain (R93). -/
def trimmed (g : Floor) : List Speaker :=
  let late := g.speakers.reverse
  let holds := fun e : Speaker => g.holders.any fun h => h.seat == e.seat
  ((late.filter fun e => !e.chairAtGrant) ++ (late.filter fun e => e.chairAtGrant && !holds e) ++
    late.filter fun e => e.chairAtGrant && holds e).take (g.speakers.length - 10)

/-- The request entries that trimmed speakers take, in list order, as far as the pool goes; none in DIRECT (R94). -/
def requeued (s : State) (g : Floor) (mode : FloorMode) : List Request :=
  let gone := (trimmed g).map Speaker.seat
  match mode with
  | .direct => []
  | .autoQueue | .chair =>
    ((g.speakers.filter fun e => gone.contains e.seat).take s.poolFree).zipIdx.map fun x =>
      { seat := x.1.seat, stamp := s.stampCounter + BitVec.ofNat 32 x.2, returned := true }

/-- The floor that a commit builds for the new room with anchor `a`, before auto-advance: trimmed and requeued (R93, R94),
the earliest four holds kept (R112), and the entries suspended where one is left and resumed where none is (R113). -/
def builtFloor (s : State) (rp : Repartition) (a : Segment) : Floor :=
  let g := gathered s rp a
  let mode := (s.profiles.get a).floorMode
  let gone := (trimmed g).map Speaker.seat
  let holders := sortBy (holderBefore s.clock) (g.holders.filter fun h => !gone.contains h.seat)
  let lost := (holders.drop 4).map Holder.seat
  let turn := if holders = [] then resumed s.clock else suspended s.clock
  { speakers :=
      (g.speakers.filter fun e => !gone.contains e.seat).map fun e =>
        turn { e with byPriority := e.byPriority && !lost.contains e.seat }
    queue := if mode = .direct then [] else sortBy requestBefore (g.queue ++ requeued s g mode)
    holders := holders.take 4 }

/-- A commit takes the share `x` before the floor controller's. -/
def isBeforeFloor (order : List CommitShare) (x : CommitShare) : Bool :=
  (beforeFloor (shareOrder order)).contains x

/-- A commit takes the share `x` before the share `y`. -/
def isBefore (order : List CommitShare) (x y : CommitShare) : Bool :=
  ((shareOrder order).takeWhile fun c => c != y).contains x

/-- What the floor of the new room with anchor `a` adds to the pool and the two counters at a commit; `t` shows what
auto-advance has left in its queue (R67, R68, R77, R92 to R95). -/
def roomBuilt (t : State) (rp : Repartition) (x : State) (a : Segment) : State :=
  let g := gathered x rp a
  let mode := (x.profiles.get a).floorMode
  let added := (requeued x g mode).length
  let removed := if mode = .direct then g.queue.length else 0
  let granted := (builtFloor x rp a).queue.length - (t.floors.get a).queue.length
  { x with
    poolFree := x.poolFree - added + removed + granted
    stampCounter := x.stampCounter + BitVec.ofNat 32 added
    releaseCounter := x.releaseCounter + BitVec.ofNat 32 (trimmed g).length }

/-- The state `s` with the pool and the two counters as a commit finds them when it comes to the new room with anchor `a`: the
new rooms below it are complete (R92). -/
def atTurn (s t : State) (rp : Repartition) (a : Segment) : State :=
  ((newRooms s rp.target).filter fun b => b < a).foldl (roomBuilt t rp) s

/-- The FLOOR and PRIORITY notices of the floor that a commit builds for the new room with anchor `a`, up to its auto-advance:
CLOSED for the entries trimmed, in the order taken; QUEUED for those requeued; DEQUEUED for the requests that a DIRECT room
removes; SUSPENDED or RESUMED in list order; and PRIORITY by segment where its status differs (R70, R93 to R95, R113). -/
def builtSent (s : State) (rp : Repartition) (a : Segment) : List Sent :=
  let g := gathered s rp a
  let mode := (s.profiles.get a).floorMode
  let members := component rp.target a
  let note := fun (change : FloorChange) (reason : FloorReason) (i : SeatId) =>
    ((members, .floor a i change reason) : Sent)
  let gone := (trimmed g).map Speaker.seat
  let stay := g.speakers.filter fun e => !gone.contains e.seat
  let held := !(builtFloor s rp a).holders.isEmpty
  gone.map (note .closed .mergeTrim) ++ (requeued s g mode).map (fun q => note .queued .mergeTrim q.seat) ++
    (if mode = .direct then (sortBy requestBefore g.queue).map fun q => note .dequeued .modeDirect q.seat else []) ++
    (if held then
      (stay.filter fun e => !e.chairAtGrant && e.state == .opened).map fun e => note .suspended .none e.seat
    else (stay.filter fun e => e.state == .suspended).map fun e => note .resumed .none e.seat) ++
    members.filterMap fun g =>
      if (!(s.floors.get (roomOf s g)).holders.isEmpty) = held then none else some ([g], .priority a held)

/-- The newest six of release entries that stand in order of age, and the seats of the others (R149, R160). -/
def newest (l : List Release) : List Release :=
  l.drop (l.length - 6)

def older (l : List Release) : List SeatId :=
  (l.take (l.length - 6)).map Release.seat

/-- Release stamps are in order: each set by stamp, all stamps recent ones of the release counter, and no seat twice, nor
beside a speaker entry (R148). -/
def releasesOk (s : State) (affected : List Segment) : Prop :=
  ((affected.flatMap fun b => (s.mixes.get b).release).map Release.seat ++
      (affected.flatMap fun b => (s.floors.get b).speakers).map Speaker.seat).Nodup ∧
    ∀ b ∈ affected,
      ((s.mixes.get b).release.Pairwise fun x y => stampEarlier x.stamp y.stamp = true) ∧
        ∀ e ∈ (s.mixes.get b).release, 0 < age s.releaseCounter e.stamp ∧ age s.releaseCounter e.stamp < 1073741824

/-- The state in which trunk `k` is LIVE and LOCKED and seat `i` is free of a last toggle, so that an event of the seat is
accepted (R54, R55). -/
def listening (s : State) (k : TrunkId) (i : SeatId) : State :=
  { s with
    trunks := s.trunks.modify k fun r => { r with power := .live, supervision := some .locked, blockErrors := 0 }
    seats := s.seats.modify i fun x => { x with lastToggle := none } }

/-- The frame that trunk `k` expects next, with one event of seat `i` and no audio (R37, R54). -/
def frameWith (s : State) (k : TrunkId) (i : SeatId) (kind : EventKind) (toggle : Bool) : Instr :=
  .uplinkFrame k
    { word := (nextWord (s.trunks.get k).predictor).2
      events := [{ position := (positionOf i).val + 1, kind := kind, toggle := toggle }]
      audio := Tab.replicate 16 (Tab.replicate 48 0) }

/-- The kinds of notice that the blocks send at a commit. -/
def isWallNotice : NoticeBody → Bool
  | .wall _ _ _ _ _ => true
  | _ => false

def isRoomNotice : NoticeBody → Bool
  | .room _ _ _ _ => true
  | _ => false

def isFloorNotice : NoticeBody → Bool
  | .floor _ _ _ _ | .priority _ _ => true
  | _ => false

def isSeatNotice : NoticeBody → Bool
  | .seat _ _ _ _ _ => true
  | _ => false

def isBoothNotice : NoticeBody → Bool
  | .booth _ _ _ _ _ _ _ => true
  | .relay _ _ _ _ => true
  | _ => false

def isTapNotice : NoticeBody → Bool
  | .tap _ _ _ _ => true
  | _ => false

/-- Between `s` and `t` only what the blocks change at a commit may differ: hall settings, profiles, PA gains, the clock and
the outputs of the last frame stay, and so do the fields of the trunks that are not named here. -/
def onlyCommit (s t : State) : Prop :=
  t =
      { s with
        walls := t.walls, rooms := t.rooms, repartition := t.repartition, trunks := t.trunks, seats := t.seats
        floors := t.floors, poolFree := t.poolFree, stampCounter := t.stampCounter, booths := t.booths
        slotMaps := t.slotMaps, mixes := t.mixes, releaseCounter := t.releaseCounter, taps := t.taps
        ports := t.ports } ∧
    ∀ k, t.trunks.get k =
      { s.trunks.get k with
        holding := (t.trunks.get k).holding, intake := (t.trunks.get k).intake
        channels := (t.trunks.get k).channels, refusals := (t.trunks.get k).refusals }

/-! ### Terms of the frame computation -/

/-- The gains of a room's release set after stage 4 (R150); what stands at a segment that is no anchor is left alone. -/
def lowered (s : State) (a : Segment) : List Release :=
  if (s.rooms.get a).isSome then (s.mixes.get a).release.map fun e => { e with gain := e.gain - 256, fresh := false }
  else (s.mixes.get a).release

/-- Whether the release entry of a seat ends at the frame (R150). -/
def endsAtFrame (s : State) (seat : SeatId) : Bool :=
  allSegments.any fun a => (lowered s a).any fun e => e.seat == seat && e.gain == 0 && !e.fresh

/-- A value set to the nearer end of the sample range (00, "Audio and gain arithmetic"). -/
def nearest (x : Int) : Int :=
  max (-8388608) (min 8388607 x)

/-- A product divided by 4096 and rounded to the nearest integer, halves upward (R152, R153). -/
def rounded (p : Int) : Int :=
  (p + 2048) / 4096

/-- One frame of audio is another scaled by a factor (R153). -/
def isScaled (x v : Audio) (k : Nat) : Prop :=
  ∀ i, (x.get i).toInt = nearest (rounded ((v.get i).toInt * k))

/-- The audio of a source at the next frame: the samples of the seat's channel in the frame that its trunk took and compared
in LOCKED, or 48 samples of 0 (R141). -/
def sourceAudio (s : State) (i : SeatId) : Audio :=
  let r := s.trunks.get (segmentOf i)
  match r.audio, (List.finRange 16).find? fun c => r.channels.get c == some i with
  | some audio, some c => audio.get c
  | _, _ => Tab.replicate 48 0

/-- The sum P of a room at a sample position: each source's sample times its gain after stage 4 (R152). -/
def sumOfSources (s : State) (speakers : List Speaker) (release : List Release) (i : Fin 48) : Int :=
  (speakers.map fun e => ((sourceAudio s e.seat).get i).toInt * (e.gain : Int)).sum +
    (release.map fun e => ((sourceAudio s e.seat).get i).toInt * (e.gain : Int)).sum

end Sys2Proof.Safety
end

