-- ==== Sys2Proof/Certificates/Slice0/Obligations.lean ====
section
/-! DEFINITION. The statements for the provers. A docstring names the rules a statement formalises, and the log entry where
a clause is the model's choice. Where a statement says what the ports hold after an event, through `conclude`, it follows
log entry 11 for the moment at which a transmitter starts. -/

section

open Sys2Proof Sys2Proof.Machine Sys2Proof.Safety

/-! ### One step -/

/-- Step carries out the command at the front of the queue with the queue's rest. That an empty queue leaves the part
as it is is the model's choice (log entry 2). -/
def Obligations.StepTakesFront : Prop :=
  ∀ (s : State) (c : Instr) (rest : List Instr),
    step { s with pending := c :: rest } = exec c { s with pending := rest } ∧
      step { s with pending := [] } = .next { s with pending := [] }

/-- Every command and event completes, from every state, and leaves the queue of waiting commands alone (log entry
26: the manual describes nothing that stops the part). -/
def Obligations.EveryEventCompletes : Prop :=
  ∀ (c : Instr) (s : State), ∃ t, exec c s = .next t ∧ t.pending = s.pending

/-! ### Power-on reset -/

/-- The power-on values of every block when the reset input goes high (R2, R19, R22, R32, R58, R64, R114, R121, R140, R166,
R172), and what the part does while it is low (R197). -/
def Obligations.PowerOnResetValues : Prop :=
  (∀ s : State, ∃ t, exec (.powerOnReset none) s = .next t ∧ t.held = true ∧
    (∀ k, (t.trunks.get k).power = .unpowered ∧ t.downlinks.get k = none) ∧ (∀ g, t.paOut.get g = silence) ∧
    (∀ k, t.tapOut.get k = silence) ∧ ∀ p, (t.ports.get p).transmitter = .idle) ∧
  (∀ (c : Instr) (s : State), s.held = true → (∀ x, c ≠ .powerOnReset x) → exec c s = .next s) ∧
  ∀ (levels : WallMap) (s : State), ∃ t, exec (.powerOnReset (some levels)) s = .next t ∧ t.held = false ∧
    t.clock = 0 ∧ t.edgeSeen = false ∧
    (∀ w, t.walls.get w =
      { mode := .sensed
        raw := levels.get w
        sensed := .closed
        changeTime := if levels.get w = .opened then some 0 else none
        consent := none
        effective := .closed
        committed := .closed }) ∧
    (t.hall.wallSettle, t.hall.trunkStart, t.hall.trunkHold) = (500, 1000, 250) ∧
    (∀ g, t.profiles.get g =
      { floorMode := .autoQueue, maxOpen := 4, requestCap := 24, speechLimit := 0, levelFloor := 256,
        roomGain := 4096 }) ∧
    (∀ a, t.rooms.get a = some { members := [a], lead := none, status := .steady }) ∧ t.repartition = none ∧
    (∀ k, (t.trunks.get k).power = .warming ∧ (t.trunks.get k).warmDeadline = some 1000 ∧
      (t.trunks.get k).supervision = none ∧ (t.trunks.get k).generator = BitVec.allOnes 15 ∧
      (t.trunks.get k).predictor = BitVec.allOnes 15 ∧ (t.trunks.get k).confirmCount = 0 ∧
      (t.trunks.get k).blockPos = 0 ∧ (t.trunks.get k).blockErrors = 0 ∧ (t.trunks.get k).linkUp = false ∧
      (t.trunks.get k).holdDeadline = none ∧ (t.trunks.get k).testPending = false ∧
      (t.trunks.get k).live = { lockedFrames := 0, erroredFrames := 0, bitErrors := 0, syncLosses := 0 } ∧
      (t.trunks.get k).snap = { lockedFrames := 0, erroredFrames := 0, bitErrors := 0, syncLosses := 0 } ∧
      (t.trunks.get k).snapTime = 0 ∧ (∀ c, (t.trunks.get k).channels.get c = none) ∧
      (t.trunks.get k).intake = [] ∧ (t.trunks.get k).holding = false ∧
      (∀ pos, (t.trunks.get k).acks.get pos = none) ∧ ∀ pos, (t.trunks.get k).refusals.get pos = false) ∧
    (∀ i, t.seats.get i = { online := false, enabled := true, chair := false, lastToggle := none }) ∧
    (∀ a, t.floors.get a = { speakers := [], queue := [], holders := [] }) ∧ t.poolFree = 96 ∧ t.stampCounter = 0 ∧
    (∀ b, t.booths.get b =
      { assignment := none, language := none, preferred := none, source := none, live := false,
        allocation := .unassigned }) ∧
    (∀ a slot, (t.slotMaps.get a).get slot = none) ∧
    (∀ a, t.mixes.get a = { fade := 4096, phase := .full, clip := false, release := [] }) ∧ t.releaseCounter = 0 ∧
    (∀ g, t.paGains.get g = 4096) ∧ (∀ k, t.taps.get k = none) ∧
    ∀ p, t.ports.get p =
      { attached := false, receiver := .breakWait, buffer := [], lineFault := false, tooLong := false,
        gapRunning := false, replies := [], notices := [], overflow := false, transmitter := .idle }

/-- The state after power-on reset meets every condition that the statements below say a step keeps, whatever the
levels at the wall inputs, with no stamp behind its counter. -/
def Obligations.PowerOnIsSafe : Prop :=
  ∀ levels : WallMap, safe (State.powerOn levels) ∧ releasesOrdered 0 (State.powerOn levels) ∧
    queuesOrdered 0 (State.powerOn levels)

/-! ### Conditions that every step keeps -/

/-- R15, with R25 and R27: the room table stays the connected components of the committed wall states. -/
def Obligations.StepKeepsRooms : Prop :=
  ∀ s t : State, roomsOk s → step s = .next t → roomsOk t

/-- R17: the lead of every room stays the port of its lowest member that is ATTACHED. -/
def Obligations.StepKeepsLeads : Prop :=
  ∀ s t : State, roomsOk s → leadsOk s → step s = .next t → leadsOk t

/-- R3, R5, R9, R13: wall records stay in order. -/
def Obligations.StepKeepsWalls : Prop :=
  ∀ s t : State, wallsOk s → step s = .next t → wallsOk t

/-- R32, R44, R56, R196: trunk records stay in order. -/
def Obligations.StepKeepsTrunks : Prop :=
  ∀ s t : State, trunksOk s → step s = .next t → trunksOk t

/-- R50: no seat comes to hold two channels, and no channel a seat of another trunk; and a channel table holds exactly the
seats of the trunk that have a speaker entry or a release entry. The latter needs whole rooms and entries, lists within their
capacities and no seat twice among the speaker and release entries (R69, R148): then a grant always finds a free channel. -/
def Obligations.StepKeepsChannels : Prop :=
  (∀ s t : State, channelsOk s → step s = .next t → channelsOk t) ∧
  ∀ s t : State, channelsOk s → roomsOk s → entriesOk s → releasesAtHome s → intakesAtHome s → floorsBounded s →
    (soundingSeats s).Nodup → channelsExact s → step s = .next t → channelsExact t ∧ (soundingSeats t).Nodup

/-- R65, R97, R148: speaker lists, holder sets and release sets stay within their capacities, and speaker lists and holder
sets in their order by age modulo 2^32. R54, R56, R149: every release entry stays under the room of its seat's segment, and
every held event in the intake queue of its seat's trunk; without these, and whole rooms and entries, a commit could
overfill a release set in states that no run reaches. R67, R68, R148: release sets and request queues stay in the order of
their stamps. A stamp compares rightly within 2^31 - 1 of another, so `span` says how far the oldest stamp lies behind its
counter; a step on a well-formed command takes at most 108 new stamps of a kind (60 entries trimmed and 48 events replayed
at one commit), for which the statement allows 128. -/
def Obligations.StepKeepsCapacities : Prop :=
  (∀ s t : State, roomsOk s → entriesOk s → releasesAtHome s → intakesAtHome s → floorsBounded s → step s = .next t →
    floorsBounded t) ∧
  (∀ s t : State, roomsOk s → entriesOk s → releasesAtHome s → intakesAtHome s → step s = .next t →
    releasesAtHome t ∧ intakesAtHome t) ∧
  (∀ (span : Nat) (s t : State), span + 128 < 2147483648 → (∀ c ∈ s.pending.head?, wellFormed c = true) → roomsOk s →
    entriesOk s → trunksOk s → floorsBounded s → releasesAtHome s → intakesAtHome s → step s = .next t →
    (releasesOrdered span s → releasesOrdered (span + 128) t) ∧ (queuesOrdered span s → queuesOrdered (span + 128) t)) ∧
  ∀ s t : State, listsOrdered s → step s = .next t → listsOrdered t

/-- R140: levels, gains and fades stay in their ranges. -/
def Obligations.StepKeepsMixRanges : Prop :=
  ∀ s t : State, mixInRange s → step s = .next t → mixInRange t

/-- R98, R103, R113: an entry is SUSPENDED exactly when it is a non-chair entry of a room where priority is held. R97, R102:
where rooms and entries are whole, every holder stays a chair with a speaker entry in the same room, and no seat holds
twice. -/
def Obligations.StepKeepsPriority : Prop :=
  (∀ s t : State, priorityOk s → step s = .next t → priorityOk t) ∧
    ∀ s t : State, roomsOk s → entriesOk s → holdersOk s → step s = .next t → holdersOk t

/-- R67, R69: floor entries stay with ONLINE, enabled seats of their room, one to a seat, and the pool stays whole. -/
def Obligations.StepKeepsEntries : Prop :=
  ∀ s t : State, roomsOk s → entriesOk s → step s = .next t → entriesOk t

/-- R125: every source stays FLOOR or a booth of the same room, at most 2 relay hops from FLOOR. -/
def Obligations.StepKeepsRelays : Prop :=
  ∀ s t : State, roomsOk s → relaysOk s → step s = .next t → relaysOk t

/-- R172, R175, R185, R189: reply queues, notice queues and message buffers stay within their capacities. R186: outside a
held reset no transmitter stays idle while its port holds a message; that it starts at the end of the event is log entry
11. -/
def Obligations.StepKeepsQueues : Prop :=
  (∀ s t : State, portsOk s → step s = .next t → portsOk t) ∧
    ∀ s t : State, transmittersOk s → step s = .next t → transmittersOk t

/-! ### The room relation and the shift register -/

/-- R15: two segments are of one room exactly when a chain of open walls leads from one to the other. -/
def Obligations.RoomsAreComponents : Prop :=
  ∀ (m : WallMap) (g h : Segment),
    h ∈ component m g ↔
      Relation.ReflTransGen
        (fun x y : Segment => ∃ w : WallId, m.get w = .opened ∧ x ≠ y ∧
          (wallSides.get w = (x, y) ∨ wallSides.get w = (y, x))) g h

/-- R37, R39: the 16 bits of a word, each the exclusive-or of stages 14 and 15 or a one where all stages are zero, the
first as most significant, with every stage passing its value on. The register after a word holds the word's 15 least
significant bits, so a predictor loaded from a word predicts the word that the generator sends next. -/
def Obligations.PredictorFollowsGenerator : Prop :=
  ∀ r : BitVec 15,
    let bit := fun x : BitVec 15 => if x = 0 then true else x.getLsbD 13 != x.getLsbD 14
    let shifted := fun x : BitVec 15 => x.extractLsb' 0 14 ++ BitVec.ofBool (bit x)
    let stages := fun n : Nat => shifted^[n] r
    (nextWord r).1 = stages 16 ∧ (∀ n : Fin 16, (nextWord r).2.getLsbD (15 - n.val) = bit (stages n.val)) ∧
    (nextWord r).1 = (nextWord r).2.extractLsb' 0 15 ∧ nextWord (loadWord (nextWord r).2) = nextWord (nextWord r).1

/-! ### Commands on the line -/

/-- R193, R196: every well-formed command is decoded from its own message, which has 3 to 64 bytes that sum to 0. -/
def Obligations.CommandsDecodeAsEncoded : Prop :=
  ∀ (c : Instr) (p : Port) (bytes : List Byte),
    wellFormed c = true → commandPort c = some p → encodeCommand c = some bytes →
      decodeCommand p bytes = some c ∧ 3 ≤ bytes.length ∧ bytes.length ≤ 64 ∧ byteSum bytes = 0

/-- R175, R176, R178: a message is judged at its arrival, the first case that applies deciding, and a message taken as a
command has that command's effect. -/
def Obligations.MessageIsJudged : Prop :=
  ∀ (p : Port) (s : State), s.held = false →
    let r := s.ports.get p
    let cleared : State :=
      { s with
        ports :=
          s.ports.set p { r with buffer := [], lineFault := false, tooLong := false, gapRunning := false } }
    (¬(r.receiver = .hunt ∧ r.gapRunning = true) → exec (.messageArrival p) s = .next (conclude s [] none)) ∧
      (r.receiver = .hunt ∧ r.gapRunning = true →
        (r.lineFault = true →
          exec (.messageArrival p) s = .next (conclude cleared [([p], .linkFault .line 0)] none)) ∧
        (r.lineFault = false → r.tooLong = true →
          exec (.messageArrival p) s = .next (conclude cleared [([p], .linkFault .tooLong 0)] none)) ∧
        (r.lineFault = false → r.tooLong = false → r.buffer.length < 3 →
          exec (.messageArrival p) s = .next (conclude cleared [([p], .linkFault .short 0)] none)) ∧
        (r.lineFault = false → r.tooLong = false → 3 ≤ r.buffer.length → byteSum r.buffer ≠ 0 →
          exec (.messageArrival p) s = .next (conclude cleared [([p], .linkFault .sum 0)] none)) ∧
        (r.lineFault = false → r.tooLong = false → 3 ≤ r.buffer.length → byteSum r.buffer = 0 →
          (∀ c, decodeCommand p r.buffer = some c → exec (.messageArrival p) s = exec c cleared) ∧
          (decodeCommand p r.buffer = none → hasPlace s p →
            exec (.messageArrival p) s = .next (answered cleared p (r.buffer.getD 1 0) .badArgument [])) ∧
          (decodeCommand p r.buffer = none → ¬hasPlace s p →
            exec (.messageArrival p) s =
              .next (conclude cleared [([p], .linkFault .overrun (r.buffer.getD 1 0))] none))))

/-- R178, R179, R184, R185: a command that finds 4 replies held is discarded with LINK_FAULT(OVERRUN); a command of a
DETACHED port that is no read is answered NOT_ATTACHED; every other command gets exactly one reply, at the end of its
port's queue, with its tag. -/
def Obligations.CommandsAreAnswered : Prop :=
  ∀ (c : Instr) (p : Port) (s : State), s.held = false → commandPort c = some p →
    (¬hasPlace s p → exec c s = .next (conclude s [([p], .linkFault .overrun (commandTag c))] none)) ∧
      (hasPlace s p → (s.ports.get p).attached = false → isRead c = false →
        exec c s = .next (answered s p (commandTag c) .notAttached [])) ∧
      (hasPlace s p → ∃ t r, exec c s = .next t ∧ repliedWith s t p r ∧ r.tag = commandTag c)

/-- R191, R194: a command whose reply is of the refused group changes nothing but that reply, which carries no
results. -/
def Obligations.RefusedChangesNothing : Prop :=
  ∀ (c : Instr) (p : Port) (s t : State) (r : Reply),
    commandPort c = some p → hasPlace s p → exec c s = .next t → repliedWith s t p r → isRefusal r.code = true →
      t = conclude s [] (some (p, r)) ∧ r.results = []

/-! ### The line receiver and the transmitter -/

/-- R173: the check of a start bit; that it stops the gap timer is log entry 10. -/
def Obligations.StartBitCheck : Prop :=
  ∀ (p : Port) (b : BitSamples) (s : State), s.held = false →
    let r := s.ports.get p
    let low := ([b.first, b.second, b.third].filter fun x => !x).length
    exec (.startBit p b) s =
      .next (conclude
        { s with
          ports :=
            s.ports.set p
              (if r.receiver = .hunt ∧ 2 ≤ low then
                { r with receiver := .character (low == 2), gapRunning := false }
              else r) } [] none)

/-- R173, R175: a character's bits take the value of two of their three samples, least significant first; its byte joins
the message while fewer than 64 are held; a disagreement of samples or a low stop bit sets the line-fault mark. -/
def Obligations.CharacterJoinsMessage : Prop :=
  ∀ (p : Port) (samples : Tab 9 BitSamples) (s : State), s.held = false →
    let r := s.ports.get p
    let high := fun k : Fin 9 =>
      (([(samples.get k).first, (samples.get k).second, (samples.get k).third].filter id).length : Nat)
    (∀ noise, r.receiver = .character noise → ∃ byte : Byte,
      (∀ k : Fin 8, byte.getLsbD k.val = decide (2 ≤ high (k.castLE (by decide)))) ∧
      exec (.characterComplete p samples) s =
        .next (conclude
          { s with
            ports :=
              s.ports.set p
                { r with
                  buffer := if r.buffer.length < 64 then r.buffer ++ [byte] else r.buffer
                  tooLong := r.tooLong || decide (64 ≤ r.buffer.length)
                  lineFault :=
                    r.lineFault || noise || decide (∃ k, high k = 1 ∨ high k = 2) || decide (high 8 < 2)
                  receiver := if high 8 < 2 then .lowWait else .hunt
                  gapRunning := decide (2 ≤ high 8) } } [] none)) ∧
      ((∀ noise, r.receiver ≠ .character noise) →
        exec (.characterComplete p samples) s = .next (conclude s [] none))

/-- R174: the ends of LOW_WAIT, with the gap timer started, and of BREAK_WAIT, with the gap timer stopped (log entry
10). -/
def Obligations.WaitsEnd : Prop :=
  ∀ (p : Port) (s : State), s.held = false →
    let r := s.ports.get p
    exec (.lineHighInLowWait p) s =
        .next (conclude
          { s with
            ports :=
              s.ports.set p
                (if r.receiver = .lowWait then { r with receiver := .hunt, gapRunning := true } else r) } [] none) ∧
      exec (.breakWaitEnd p) s =
        .next (conclude
          { s with
            ports :=
              s.ports.set p
                (if r.receiver = .breakWait then { r with receiver := .hunt, gapRunning := false } else r) } [] none)

/-- R186, R189: a sent message leaves its queue, the overflow state clears when the notice queue becomes empty, and the
transmitter takes the oldest reply, else the oldest notice. The gap after a message is inside the event (log entry
11). -/
def Obligations.MessageSentMakesRoom : Prop :=
  ∀ (p : Port) (s : State), s.held = false →
    let r := s.ports.get p
    ∃ t, exec (.messageSent p) s = .next t ∧
      t = { s with ports := t.ports } ∧ (∀ q, q ≠ p → t.ports.get q = (s.ports.get q).startSending) ∧
      t.ports.get p =
        { r with
          replies := (t.ports.get p).replies, notices := (t.ports.get p).notices
          overflow := (t.ports.get p).overflow, transmitter := (t.ports.get p).transmitter } ∧
      (r.transmitter = .idle → t.ports.get p = r.startSending) ∧
      (∀ bytes, r.transmitter = .reply bytes →
        (t.ports.get p).replies = r.replies.tail ∧ (t.ports.get p).notices = r.notices ∧
          (t.ports.get p).overflow = r.overflow) ∧
      (∀ bytes, r.transmitter = .notice bytes →
        (t.ports.get p).replies = r.replies ∧ (t.ports.get p).notices = r.notices.tail ∧
          (t.ports.get p).overflow = (r.overflow && !r.notices.tail.isEmpty)) ∧
      (r.transmitter ≠ .idle →
        (t.ports.get p).transmitter =
          match (t.ports.get p).replies, (t.ports.get p).notices with
          | q :: _, _ =>
            .reply (replyBytes (if (t.ports.get p).overflow then 0 else 32 - (t.ports.get p).notices.length) q)
          | [], n :: _ => .notice (noticeBytes n)
          | [], [] => .idle)

/-- R188, R189: what a copy of a notice does at a port. -/
def Obligations.NoticeQueueRule : Prop :=
  ∀ (n : Notice) (r : PortRec),
    (r.attached = false → r.deliver n = r) ∧
      (r.attached = true → r.overflow = true → r.deliver n = r) ∧
      (r.attached = true → r.overflow = false → r.notices.length + 2 ≤ 32 →
        r.deliver n = { r with notices := r.notices ++ [n] }) ∧
      (r.attached = true → r.overflow = false → r.notices.length = 31 →
        r.deliver n =
          { r with notices := r.notices ++ [{ clock := n.clock, body := .overflow }], overflow := true })

/-- R17, R18, R180: ATTACH. -/
def Obligations.AttachTakesEffect : Prop :=
  ∀ (p : Port) (tag : Byte) (s : State) (r : Room), s.held = false → hasPlace s p → s.rooms.get (roomOf s p) = some r →
    let a := roomOf s p
    let lead := r.members.find? fun g => g == p || (s.ports.get g).attached
    ((s.ports.get p).attached = true →
      exec (.attach p tag) s = .next (answered s p tag .done [num a, numOrZero r.lead])) ∧
      ((s.ports.get p).attached = false →
        exec (.attach p tag) s =
          .next (conclude
            { s with
              ports := s.ports.set p { s.ports.get p with attached := true }
              rooms := s.rooms.set a (some { r with lead := lead }) }
            (if lead = r.lead then [] else [(r.members, .room a r.members lead r.status)])
            (some (p, { tag := tag, code := .done, results := [num a, numOrZero lead] }))))

/-- R13, R17, R18, R177, R181: DETACH and a port reset of an ATTACHED port leave the port DETACHED, cancel the consent
records of its walls with their notices, and recompute the lead of its room with the ROOM notice of a change; a port reset
also empties the port record. The CONSENT notices are in ascending wall number (log entry 28). -/
def Obligations.PortLeaves : Prop :=
  ∀ (p : Port) (tag : Byte) (s : State),
    let a := roomOf s p
    let lead := fun r : Room => r.members.find? fun g => g != p && (s.ports.get g).attached
    let left := fun r : PortRec =>
      ({ s with
          ports := s.ports.set p r
          walls :=
            Tab.ofFn fun w =>
              { s.walls.get w with consent := if adjacentTo w p then none else (s.walls.get w).consent }
          rooms := s.rooms.modify a fun x => x.map fun r => { r with lead := lead r } } : State)
    let cancelled : List Sent :=
      (allWalls.filter fun w => adjacentTo w p).filterMap fun w =>
        (s.walls.get w).consent.map fun c => (sidesOf w, .consent w .cancelled c.requester c.expiry)
    let moved : List Sent :=
      match s.rooms.get a with
      | some r => if lead r = r.lead then [] else [(r.members, .room a r.members (lead r) r.status)]
      | none => []
    (served s p →
      exec (.detach p tag) s =
        .next (replied (left { s.ports.get p with attached := false }) (cancelled ++ moved) p tag .done [])) ∧
    (s.held = false → (s.ports.get p).attached = true →
      exec (.portReset p) s = .next (conclude (left PortRec.atReset) (cancelled ++ moved) none)) ∧
    (s.held = false → (s.ports.get p).attached = false →
      exec (.portReset p) s = .next (conclude { s with ports := s.ports.set p PortRec.atReset } [] none))

/-! ### Reads -/

/-- R14, R16, R21, R22, R139, R156: the reads of the partition controller and the clock return the state as it stands
and change nothing but a room's clip flag, which READ_ROOM clears. -/
def Obligations.HallReads : Prop :=
  ∀ (p : Port) (tag : Byte) (s : State), s.held = false → hasPlace s p →
    exec (.readHall p tag) s =
        .next (answered s p tag .done
          (natHalf s.hall.wallSettle ++ natHalf s.hall.trunkStart ++ natHalf s.hall.trunkHold)) ∧
      exec (.readClock p tag) s = .next (answered s p tag .done (clockBytes s.clock)) ∧
      (∀ (b : Byte) (w : WallId), b.toNat = w.val + 1 →
        exec (.readWall p tag b) s = .next (answered s p tag .done (wallBytes (s.walls.get w)))) ∧
      (∀ b : Byte, b.toNat = 0 ∨ 7 < b.toNat →
        exec (.readWall p tag b) s = .next (answered s p tag .badArgument [])) ∧
      (∀ (b : Byte) (g : Segment), (b = 0 ∧ g = roomOf s p) ∨ b.toNat = g.val + 1 →
        exec (.readProfile p tag b) s =
          .next (answered s p tag .done (num g :: profileBytes (s.profiles.get g)))) ∧
      (∀ b : Byte, 6 < b.toNat →
        exec (.readProfile p tag b) s = .next (answered s p tag .badArgument []) ∧
          exec (.readRoom p tag b) s = .next (answered s p tag .badArgument [])) ∧
      ∀ (b : Byte) (a : Segment), (b = 0 ∧ a = roomOf s p) ∨ b.toNat = a.val + 1 →
        (s.rooms.get a = none → exec (.readRoom p tag b) s = .next (answered s p tag .noSuch [])) ∧
        ∀ r, s.rooms.get a = some r →
          exec (.readRoom p tag b) s =
            .next (answered
              { s with mixes := s.mixes.set a { s.mixes.get a with clip := false } } p tag .done
              [num a, memberBits r.members, numOrZero r.lead, statusCode r.status, flagByte (s.mixes.get a).clip])

/-- R49, R63, R89, R137, R171: the reads of trunks, seats, booths, taps and floors return the state as it stands and
change nothing. -/
def Obligations.BlockReads : Prop :=
  ∀ (p : Port) (tag : Byte) (s : State), s.held = false → hasPlace s p →
    (∀ (b : Byte) (k : TrunkId), b.toNat = k.val + 1 →
      exec (.readTrunk p tag b) s = .next (answered s p tag .done (trunkBytes (s.trunks.get k)))) ∧
      (∀ b : Byte, b.toNat = 0 ∨ 6 < b.toNat →
        exec (.readTrunk p tag b) s = .next (answered s p tag .badArgument [])) ∧
      (∀ (b : Byte) (i : SeatId), b.toNat = i.val + 1 →
        exec (.readSeat p tag b) s = .next (answered s p tag .done (seatBytes s i))) ∧
      (∀ b : Byte, b.toNat = 0 ∨ 240 < b.toNat →
        exec (.readSeat p tag b) s = .next (answered s p tag .badArgument [])) ∧
      (∀ (b : Byte) (x : BoothId), b.toNat = x.val + 1 →
        exec (.readBooth p tag b) s = .next (answered s p tag .done (boothBytes s x))) ∧
      (∀ b : Byte, b.toNat = 0 ∨ 8 < b.toNat →
        exec (.readBooth p tag b) s = .next (answered s p tag .badArgument [])) ∧
      (∀ (b : Byte) (k : TapId), b.toNat = k.val + 1 →
        exec (.readTap p tag b) s = .next (answered s p tag .done (tapBytes s k))) ∧
      (∀ b : Byte, b.toNat = 0 ∨ 4 < b.toNat →
        exec (.readTap p tag b) s = .next (answered s p tag .badArgument [])) ∧
      (∀ room list start count : Byte, 6 < room.toNat ∨ 3 < list.toNat →
        exec (.readFloor p tag room list start count) s = .next (answered s p tag .badArgument [])) ∧
      ∀ (room start count : Byte) (a : Segment), (room = 0 ∧ a = roomOf s p) ∨ room.toNat = a.val + 1 →
        ((s.rooms.get a).isSome = false → ∀ list : Byte, list.toNat ≤ 3 →
          exec (.readFloor p tag room list start count) s = .next (answered s p tag .noSuch [])) ∧
        ((s.rooms.get a).isSome = true →
          let n := max 1 (min 8 count.toNat)
          let page := fun entries : List (List Byte) =>
            [num a, BitVec.ofNat 8 entries.length,
                BitVec.ofNat 8 ((s.floors.get a).speakers.filter fun e => !e.chairAtGrant).length,
                BitVec.ofNat 8 s.poolFree] ++
              clockBytes s.stampCounter ++ [BitVec.ofNat 8 ((entries.drop start.toNat).take n).length] ++
              ((entries.drop start.toNat).take n).flatten
          let code := if n = count.toNat then ReplyCode.done else .adjusted
          exec (.readFloor p tag room 0 start count) s =
              .next (answered s p tag code (page ((s.floors.get a).speakers.map speakerBytes))) ∧
            exec (.readFloor p tag room 1 start count) s =
              .next (answered s p tag code (page ((s.floors.get a).queue.map requestBytes))) ∧
            exec (.readFloor p tag room 2 start count) s =
              .next (answered s p tag code (page ((s.floors.get a).holders.map holderBytes))) ∧
            exec (.readFloor p tag room 3 start count) s =
              .next (answered s p tag code (page ((s.mixes.get a).release.map releaseBytes))))

/-! ### The frame event -/

/-- R3, R4, R138, R198: which edges are taken, the clock, the walls, and what a frame event leaves alone. The time since the
last taken edge is an operand (log entry 3), and the WALL_SETTLE of the frame is noted (log entry 8). -/
def Obligations.FrameEventTaken : Prop :=
  ∀ (micros : Nat) (levels : WallMap) (booths : Tab 8 (Option BoothFrame)) (s : State), s.held = false →
    (s.edgeSeen = true → micros < 900 →
      exec (.frameEvent micros levels booths) s = .next (conclude s [] none)) ∧
    (s.edgeSeen = false ∨ 900 ≤ micros → ∃ t, exec (.frameEvent micros levels booths) s = .next t ∧
      t.clock = s.clock + 1 ∧ t.edgeSeen = true ∧ t.settleAtFrame = s.hall.wallSettle ∧
      (∀ w, t.walls.get w =
        if levels.get w = (s.walls.get w).raw then s.walls.get w
        else
          { s.walls.get w with
            raw := levels.get w
            changeTime := if levels.get w = (s.walls.get w).sensed then none else some (s.clock + 1) }) ∧
      (∀ b, t.booths.get b =
        { s.booths.get b with live := match booths.get b with | some f => f.tally | none => false }) ∧
      (∀ a, (t.floors.get a).queue = (s.floors.get a).queue ∧
        (t.floors.get a).holders = sortBy (holderBefore (s.clock + 1)) (s.floors.get a).holders) ∧
      t =
        { s with
          clock := t.clock, edgeSeen := t.edgeSeen, settleAtFrame := t.settleAtFrame, walls := t.walls
          booths := t.booths, floors := t.floors, mixes := t.mixes, trunks := t.trunks, ports := t.ports
          signals := t.signals, listen := t.listen, paOut := t.paOut, tapOut := t.tapOut
          downlinks := t.downlinks })

/-- R142 to R145, R147: stages 2 to 4 for the speaker entries of a room. The level takes the frame's absolute sum over
12,288, the target weight is the share of the level sum or of the level floor, and the gain moves toward it by at most
256. -/
def Obligations.FrameMovesGains : Prop :=
  ∀ (micros : Nat) (levels : WallMap) (booths : Tab 8 (Option BoothFrame)) (s : State) (a : Segment),
    s.held = false → (s.edgeSeen = false ∨ 900 ≤ micros) → (s.rooms.get a).isSome = true →
    ∃ t, exec (.frameEvent micros levels booths) s = .next t ∧
      let level := fun e : Speaker =>
        (7 * e.level + (((sourceAudio s e.seat).items.map fun v => v.toInt.natAbs).sum) / 12288) / 8
      let sum := (((s.floors.get a).speakers.filter fun e => e.state == .opened).map level).sum
      let divisor := max sum (s.profiles.get a).levelFloor
      let weight := fun e : Speaker => if e.state = .opened then level e * 4096 / divisor else 0
      (t.floors.get a).speakers =
          (sortBy (speakerBefore (s.clock + 1)) (s.floors.get a).speakers).map (fun e =>
            { e with
              level := level e
              gain := ((e.gain : Int) + max (-256) (min 256 ((weight e : Int) - e.gain))).toNat }) ∧
        (((s.floors.get a).speakers.map weight).sum ≤ 4096 ∨ divisor = 0)

/-- R152 to R155: the floor mix of a room and its clip flag, from the gains after stage 4 and the fade after stage 1. -/
def Obligations.FrameMixesFloor : Prop :=
  ∀ (micros : Nat) (levels : WallMap) (booths : Tab 8 (Option BoothFrame)) (s : State) (a : Segment),
    s.held = false → (s.edgeSeen = false ∨ 900 ≤ micros) → (s.rooms.get a).isSome = true →
    ∃ t, exec (.frameEvent micros levels booths) s = .next t ∧
      let y := fun i => rounded (sumOfSources s (t.floors.get a).speakers (lowered s a) i)
      let z := fun i => rounded (nearest (y i) * ((s.profiles.get a).roomGain : Int))
      (∀ i, ((t.signals.get a).floorMix.get i).toInt =
        nearest (rounded (nearest (z i) * ((t.mixes.get a).fade : Int)))) ∧
      ((t.mixes.get a).clip = true ↔
        (s.mixes.get a).clip = true ∨ ∃ i, nearest (y i) ≠ y i ∨ nearest (z i) ≠ z i)

/-- R155: a frame event sends one CLIP notice for each room whose flag goes from clear to set, and no other notice. -/
def Obligations.FrameSendsClip : Prop :=
  ∀ (micros : Nat) (levels : WallMap) (booths : Tab 8 (Option BoothFrame)) (s : State),
    s.held = false → (s.edgeSeen = false ∨ 900 ≤ micros) →
    ∃ t, exec (.frameEvent micros levels booths) s = .next t ∧
      t.ports =
        (conclude { s with clock := s.clock + 1 }
          ((allSegments.filter fun a => !(s.mixes.get a).clip && (t.mixes.get a).clip).map fun a =>
            (membersOf s a, .clip a)) none).ports

/-- R157: the fade takes the step of its phase; READY_REPORT makes a FALLING room SILENT (R158, log entry 5). -/
def Obligations.FrameStepsFade : Prop :=
  ∀ (micros : Nat) (levels : WallMap) (booths : Tab 8 (Option BoothFrame)) (s : State) (a : Segment),
    s.held = false → (s.edgeSeen = false ∨ 900 ≤ micros) → (s.rooms.get a).isSome = true →
    ∃ t, exec (.frameEvent micros levels booths) s = .next t ∧
      let f := (s.mixes.get a).fade
      ((t.mixes.get a).fade, (t.mixes.get a).phase) =
        match (s.mixes.get a).phase with
        | .full => (f, .full)
        | .falling => (f - 256, .falling)
        | .silent => (f, .silent)
        | .rising => if 4096 ≤ f + 256 then (4096, .full) else (f + 256, .rising)

/-- R150, R51: release entries whose gain reaches 0 end and free their channels, at a frame event for every room, and at
RELEASE_END for one entry (log entry 6). -/
def Obligations.ReleaseEntriesEnd : Prop :=
  (∀ (micros : Nat) (levels : WallMap) (booths : Tab 8 (Option BoothFrame)) (s : State),
    s.held = false → (s.edgeSeen = false ∨ 900 ≤ micros) →
    ∃ t, exec (.frameEvent micros levels booths) s = .next t ∧
      (∀ a, (t.mixes.get a).release =
        (lowered s a).filter fun e => !(lowered s a).any fun x => x.seat == e.seat && x.gain == 0 && !x.fresh) ∧
      ∀ k c, (t.trunks.get k).channels.get c =
        ((s.trunks.get k).channels.get c).filter fun i => !(endsAtFrame s i && segmentOf i == k)) ∧
  ∀ (i : SeatId) (s : State), s.held = false →
    let a := seatRoom s i
    ((∃ e ∈ (s.mixes.get a).release, e.seat = i ∧ e.gain = 0 ∧ e.fresh = false) →
      exec (.releaseEnd i) s =
        .next (conclude
          { s with
            mixes := s.mixes.modify a fun m => { m with release := m.release.filter fun e => e.seat != i }
            trunks :=
              s.trunks.modify (segmentOf i) fun r =>
                { r with channels := r.channels.map fun held => if held = some i then none else held } } [] none)) ∧
    ((∀ e ∈ (s.mixes.get a).release, e.seat = i → e.gain ≠ 0 ∨ e.fresh = true) →
      exec (.releaseEnd i) s = .next (conclude s [] none))

/-- R116, R123, R131, R161, R162, R165, R168: the slot signals of every room, the listen feeds, the PA outputs and the tap
outputs of a frame. -/
def Obligations.FrameFormsOutputs : Prop :=
  ∀ (micros : Nat) (levels : WallMap) (booths : Tab 8 (Option BoothFrame)) (s : State),
    s.held = false → (s.edgeSeen = false ∨ 900 ≤ micros) →
    ∃ t, exec (.frameEvent micros levels booths) s = .next t ∧
      let audio := fun b : BoothId => match booths.get b with | some f => f.audio | none => silence
      let live := fun b : BoothId => match booths.get b with | some f => f.tally | none => false
      let mix := fun a : Segment => (t.signals.get a).floorMix
      let fade := fun a : Segment => (t.mixes.get a).fade
      (∀ a, (s.rooms.get a).isSome = true → ∀ slot : Slot,
        (∀ b, (s.slotMaps.get a).get slot = some b → live b = true →
          isScaled ((t.signals.get a).slots.get slot) (audio b) (fade a)) ∧
        (∀ b, (s.slotMaps.get a).get slot = some b → live b = false → (t.signals.get a).slots.get slot = mix a) ∧
        ((s.slotMaps.get a).get slot = none → (t.signals.get a).slots.get slot = mix a)) ∧
      (∀ b, boothRoom s b = none → t.listen.get b = silence) ∧
      (∀ b a, boothRoom s b = some a →
        ((s.booths.get b).source = none → t.listen.get b = mix a) ∧
        ∀ k, (s.booths.get b).source = some k →
          (live k = true → isScaled (t.listen.get b) (audio k) (fade a)) ∧
          (live k = false → t.listen.get b = mix a)) ∧
      (∀ g, isScaled (t.paOut.get g) (mix (roomOf s g)) (s.paGains.get g)) ∧
      (∀ k, s.taps.get k = none → t.tapOut.get k = silence) ∧
      ∀ k x, s.taps.get k = some x →
        (x.source = .floor → t.tapOut.get k = mix (roomOf s x.owner)) ∧
        (∀ slot, x.source = .slot slot → t.tapOut.get k = (t.signals.get (roomOf s x.owner)).slots.get slot) ∧
        (∀ b, x.source = .boothOut b → isScaled (t.tapOut.get k) (audio b) (fade (roomOf s x.owner))) ∧
        ∀ b, x.source = .boothFeed b → t.tapOut.get k = t.listen.get b

/-- R36, R37, R43, R52, R53, R163: the downlink frame of every trunk, and what sending it clears. The channel audio of the
period is used up (log entry 19). -/
def Obligations.FrameSendsDownlinks : Prop :=
  ∀ (micros : Nat) (levels : WallMap) (booths : Tab 8 (Option BoothFrame)) (s : State) (k : TrunkId),
    s.held = false → (s.edgeSeen = false ∨ 900 ≤ micros) →
    ∃ t, exec (.frameEvent micros levels booths) s = .next t ∧
      let r := s.trunks.get k
      let a := roomOf s k
      (r.power = .unpowered →
        t.downlinks.get k = none ∧
          t.trunks.get k = { r with audio := none, channels := (t.trunks.get k).channels }) ∧
      (r.power ≠ .unpowered →
        t.trunks.get k =
          { r with
            generator := (nextWord r.generator).1
            testPending := false
            acks := Tab.replicate 40 none
            refusals := Tab.replicate 40 false
            audio := none
            channels := (t.trunks.get k).channels } ∧
        ∃ d, t.downlinks.get k = some d ∧
          d.word = (nextWord r.generator).2 ^^^ (if r.testPending then 1 else 0) ∧
          d.signals = t.signals.get a ∧
          ∀ pos,
            let i := seatAt k pos
            d.fields.get pos =
              { online := (s.seats.get i).online
                indicator :=
                  match (t.floors.get a).speakers.find? fun e => e.seat == i with
                  | some e => if e.state = .opened then .speaking else .suspended
                  | none => if (s.floors.get a).queue.any fun q => q.seat == i then .requested else .idle
                channel := (List.finRange 16).find? fun c => (t.trunks.get k).channels.get c == some i
                refusal := r.refusals.get pos
                ack := r.acks.get pos })

/-- R158, R28: a FALLING room whose fade is 0 becomes SILENT and is recorded as ready; no other room is reported. The
report is an event of its own (log entry 5). -/
def Obligations.ReadyReportTaken : Prop :=
  ∀ (a : Segment) (s : State), s.held = false →
    let m := s.mixes.get a
    ((s.rooms.get a).isSome = true ∧ m.phase = .falling ∧ m.fade = 0 →
      exec (.readyReport a) s =
        .next (conclude
          { s with
            mixes := s.mixes.set a { m with phase := .silent }
            repartition :=
              s.repartition.map fun rp =>
                if a ∈ rp.affected ∧ a ∉ rp.ready then { rp with ready := rp.ready ++ [a] } else rp } [] none)) ∧
    (¬((s.rooms.get a).isSome = true ∧ m.phase = .falling ∧ m.fade = 0) →
      exec (.readyReport a) s = .next (conclude s [] none))

/-! ### Walls -/

/-- R4, R5, R6, R25, R26, R27: the end of a debounce, with the repartition that a change of effective state starts. The
WALL_SETTLE of the last frame event decides (log entry 8); in the loop case each wall concerned gives one notice (log
entry 14). -/
def Obligations.DebounceEnds : Prop :=
  ∀ (w : WallId) (s : State), s.held = false →
    let r := s.walls.get w
    let due := ∃ c, r.changeTime = some c ∧ (s.settleAtFrame : Int) ≤ (s.clock - c).toInt
    let x :=
      wallChanged s w { r with sensed := r.raw, changeTime := none, effective := effectiveFor r.mode r.raw }
    (due → exec (.debounceEnd w) s = .next (conclude x.1 x.2 none)) ∧
      (¬due → exec (.debounceEnd w) s = .next (conclude s [] none))

/-- R12: a consent record whose expiry is reached is cleared, and CONSENT(expired) goes to the requester. -/
def Obligations.ConsentExpires : Prop :=
  ∀ (w : WallId) (s : State), s.held = false →
    let r := s.walls.get w
    (∀ c, r.consent = some c → 0 ≤ (s.clock - c.expiry).toInt →
      exec (.consentExpiry w) s =
        .next (conclude { s with walls := s.walls.set w { r with consent := none } }
          [([c.requester], .consent w .expired c.requester c.expiry)] none)) ∧
      ((∀ c, r.consent = some c → (s.clock - c.expiry).toInt < 0) →
        exec (.consentExpiry w) s = .next (conclude s [] none))

/-- R7, R9, R10: a SET_WALL that is turned away, and one for FORCED_OPEN that creates or restarts a consent record or
finds the wall FORCED_OPEN. -/
def Obligations.SetWallRequests : Prop :=
  ∀ (p : Port) (tag wall mode : Byte) (s : State), served s p →
    (wall.toNat = 0 ∨ 7 < wall.toNat ∨ 2 < mode.toNat →
      exec (.setWall p tag wall mode) s = .next (answered s p tag .badArgument [])) ∧
    ∀ w : WallId, wall.toNat = w.val + 1 →
      let r := s.walls.get w
      let expiry := s.clock + 10000
      let requested :=
        replied { s with walls := s.walls.set w { r with consent := some { requester := p, expiry := expiry } } }
          [([otherSide w p], .consent w .pending p expiry)] p tag .pending (wallModeCode r.mode :: clockBytes expiry)
      (adjacentTo w p = false → mode.toNat ≤ 2 →
        exec (.setWall p tag wall mode) s = .next (answered s p tag .notAdjacent [])) ∧
      (adjacentTo w p = true →
        (r.consent = none → r.mode = .forcedOpen →
          exec (.setWall p tag wall 1) s = .next (answered s p tag .done [1, 0, 0, 0, 0])) ∧
        (r.consent = none → r.mode ≠ .forcedOpen → (s.ports.get (otherSide w p)).attached = false →
          exec (.setWall p tag wall 1) s = .next (answered s p tag .peerAbsent [])) ∧
        (r.consent = none → r.mode ≠ .forcedOpen → (s.ports.get (otherSide w p)).attached = true →
          exec (.setWall p tag wall 1) s = .next requested) ∧
        (∀ c, r.consent = some c → c.requester = p → exec (.setWall p tag wall 1) s = .next requested))

/-- R5, R6, R8, R11: a SET_WALL that sets the mode: SENSED or FORCED_CLOSED at once, FORCED_OPEN as the confirmation of
the peer's request. In the loop case each wall concerned gives one notice (log entry 14). -/
def Obligations.SetWallModes : Prop :=
  ∀ (p : Port) (tag wall : Byte) (w : WallId) (s : State),
    served s p → wall.toNat = w.val + 1 → adjacentTo w p = true →
    let r := s.walls.get w
    let cancelled : List Sent :=
      match r.consent with
      | some c => [(sidesOf w, .consent w .cancelled c.requester c.expiry)]
      | none => []
    let after := fun mode : WallMode => { r with mode := mode, consent := none, effective := effectiveFor mode r.sensed }
    (∀ (mode : WallMode) (code : Byte), (mode = .sensed ∧ code = 0) ∨ (mode = .forcedClosed ∧ code = 2) →
      (r.mode = mode →
        exec (.setWall p tag wall code) s =
          .next (replied { s with walls := s.walls.set w { r with consent := none } } cancelled p tag .done
            [code, 0, 0, 0, 0])) ∧
      (r.mode ≠ mode →
        exec (.setWall p tag wall code) s =
          .next (replied (wallChanged s w (after mode)).1 (cancelled ++ (wallChanged s w (after mode)).2) p tag .done
            [code, 0, 0, 0, 0]))) ∧
    ∀ c, r.consent = some c → c.requester ≠ p →
      exec (.setWall p tag wall 1) s =
        .next (replied (wallChanged s w (after .forcedOpen)).1 (wallChanged s w (after .forcedOpen)).2 p tag .done
          [1, 0, 0, 0, 0])

/-! ### Settings and profiles -/

/-- R20, R22, R77, R79, R90: SET_HALL and SET_PROFILE store their quantities, each clamped to its range, and a new profile
acts on the floor of the issuer's room. -/
def Obligations.SettingsStored : Prop :=
  (∀ (p : Port) (tag : Byte) (settle start hold : Half) (s : State), served s p →
    let h : HallSettings :=
      { wallSettle := max 50 (min 2000 settle.toNat)
        trunkStart := max 100 (min 5000 start.toNat)
        trunkHold := max 50 (min 2000 hold.toNat) }
    exec (.setHall p tag settle start hold) s =
      .next (replied { s with hall := h } [(allSegments, .hall h)] p tag
        (if h.wallSettle = settle.toNat ∧ h.trunkStart = start.toNat ∧ h.trunkHold = hold.toNat then .done
        else .adjusted)
        (natHalf h.wallSettle ++ natHalf h.trunkStart ++ natHalf h.trunkHold))) ∧
  ∀ (p : Port) (a : Segment) (tag mode cap reqs : Byte) (speech low gain : Half) (s : State),
    (served s p → leadOf s (roomOf s p) ≠ some p →
      exec (.setProfile p tag mode cap reqs speech low gain) s = .next (answered s p tag .notLead [])) ∧
    (served s p → leadOf s (roomOf s p) = some p → 2 < mode.toNat →
      exec (.setProfile p tag mode cap reqs speech low gain) s = .next (answered s p tag .badArgument [])) ∧
    (served s p → leadOf s (roomOf s p) = some p → mode.toNat ≤ 2 → isDraining s (roomOf s p) = true →
      exec (.setProfile p tag mode cap reqs speech low gain) s = .next (answered s p tag .busyRepartition [])) ∧
    (leads s p a →
      let f := s.floors.get a
      let stored := fun m : FloorMode =>
        ({ floorMode := m
           maxOpen := max 1 (min 8 cap.toNat)
           requestCap := max 1 (min 96 reqs.toNat)
           speechLimit := min 3600 speech.toNat
           levelFloor := max 16 (min 4096 low.toNat)
           roomGain := min 4096 gain.toNat } : Profile)
      let x := stored .direct
      let code :=
        if x.maxOpen = cap.toNat ∧ x.requestCap = reqs.toNat ∧ x.speechLimit = speech.toNat ∧
            x.levelFloor = low.toNat ∧ x.roomGain = gain.toNat then
          ReplyCode.done
        else .adjusted
      let results := fun m : FloorMode => profileBytes (stored m)
      let base := fun m : FloorMode => { s with profiles := s.profiles.set a (stored m) }
      exec (.setProfile p tag 2 cap reqs speech low gain) s =
          .next (replied (base .chair) [] p tag code (results .chair)) ∧
        ((s.profiles.get a).floorMode = .direct →
          exec (.setProfile p tag 0 cap reqs speech low gain) s =
            .next (replied (base .direct) [] p tag code (results .direct))) ∧
        ((s.profiles.get a).floorMode ≠ .direct →
          exec (.setProfile p tag 0 cap reqs speech low gain) s =
            .next (replied (f.queue.foldl (fun t q => afterDequeue t a q.seat true) (base .direct))
              (f.queue.map fun q => floorSent s a q.seat .dequeued .modeDirect) p tag code (results .direct))) ∧
        advanced (base .autoQueue) a [] (fun _ => some (p, { tag := tag, code := code, results := results .autoQueue }))
          (exec (.setProfile p tag 1 cap reqs speech low gain) s))

/-! ### The commit -/

/-- R15, R25 to R31, R56, R158, R159, R164: a COMMIT is taken when every affected room is reported ready. The committed states
take the target map, the rooms are its components, new rooms elect their leads; what no block changes stays as it is. The
start test that follows drains the rooms whose members the effective map changes, `next`; where it changes none, the committed
states are the effective states. A new room starts at fade 0 with a clear clip flag, RISING, or SILENT and reported ready where
it drains next; another room that drains next takes the phase of R158. The WALL notices go before the ROOM notices of the new
rooms (09), each kind in ascending order (log entry 28); in the loop case each wall concerned gives one notice (log entry 14).
One step with an operand for the order of the shares is log entry 4. -/
def Obligations.CommitRebuildsRooms : Prop :=
  ∀ (order : List CommitShare) (s : State), s.held = false →
    (s.repartition = none → exec (.commit order) s = .next (conclude s [] none)) ∧
    ∀ rp, s.repartition = some rp →
      ((∃ a ∈ rp.affected, a ∉ rp.ready) → exec (.commit order) s = .next (conclude s [] none)) ∧
      (roomsOk s → (∀ a ∈ rp.affected, a ∈ rp.ready) → ∃ t, exec (.commit order) s = .next t ∧
        let news := newRooms s rp.target
        let moved := rp.affected.flatMap (membersOf s)
        let next :=
          allSegments.filter fun a =>
            anchorIn rp.target a == a && component (effectiveMap s) a != component rp.target a
        let early := fun a => (s.mixes.get a).phase == .rising && (s.mixes.get a).fade == 0
        let wallsSent : List Sent :=
          (allWalls.filter fun w => (s.walls.get w).committed != (t.walls.get w).committed ||
              (s.walls.get w).committed != rp.target.get w).map fun w => wallSent w (t.walls.get w)
        let roomsSent : List Sent :=
          news.map fun a =>
            let members := component rp.target a
            (members, .room a members (members.find? fun g => (s.ports.get g).attached) .steady)
        onlyCommit s t ∧
        (∀ w, t.walls.get w = { s.walls.get w with committed := (t.walls.get w).committed }) ∧
        (∀ a, anchorIn rp.target a ≠ a → t.rooms.get a = none) ∧
        (∀ a, anchorIn rp.target a = a →
          (t.rooms.get a).map (fun r => (r.members, r.lead)) =
            some (component rp.target a,
              if a ∈ news then (component rp.target a).find? fun g => (s.ports.get g).attached else leadOf s a)) ∧
        (∀ i, (∀ k, ∀ e ∈ (s.trunks.get k).intake, e.seat ≠ i) → t.seats.get i = s.seats.get i) ∧
        ((∀ k, ∀ e ∈ (s.trunks.get k).intake, segmentOf e.seat = k) →
          (∀ k, k ∉ moved → t.trunks.get k = { s.trunks.get k with holding := (t.trunks.get k).holding }) ∧
          ∀ a, (s.rooms.get a).isSome = true → a ∉ rp.affected →
            t.floors.get a = s.floors.get a ∧ t.slotMaps.get a = s.slotMaps.get a ∧
              t.mixes.get a = { s.mixes.get a with phase := (t.mixes.get a).phase }) ∧
        committedMap t = (if next = [] then effectiveMap s else rp.target) ∧
        (∀ a, isDraining t a = next.contains a) ∧
        (∀ k, (t.trunks.get k).holding =
          (next.contains (roomOf t k) || !moved.contains k && (s.trunks.get k).holding)) ∧
        (∀ a ∈ news, (t.mixes.get a).fade = 0 ∧ (t.mixes.get a).clip = false ∧
          (t.mixes.get a).phase = if a ∈ next then .silent else .rising) ∧
        (∀ a, (s.rooms.get a).isSome = true → a ∉ rp.affected →
          (t.mixes.get a).fade = (s.mixes.get a).fade ∧ (t.mixes.get a).clip = (s.mixes.get a).clip ∧
            (t.mixes.get a).phase = if a ∈ next then drainedPhase (s.mixes.get a) else (s.mixes.get a).phase) ∧
        t.repartition =
          (if next = [] then none
          else
            some
              { target := effectiveMap s
                affected := next
                ready :=
                  if isBefore order .mix .startTest then next.filter fun a => news.contains a || early a
                  else (next.filter fun a => !news.contains a && early a) ++ next.filter fun a => news.contains a }) ∧
        ∃ rest, t.ports = (conclude s (wallsSent ++ roomsSent ++ rest) none).ports ∧
          (∀ n ∈ rest, isWallNotice n.2 = false) ∧
          rest.filter (fun n => isRoomNotice n.2) =
            next.map fun a => (membersOf t a, .room a (membersOf t a) (leadOf t a) .draining))

/-- R50, R51, R57, R70, R77, R79, R92 to R95, R111 to R113, R159, R160: what a commit makes of the floors, the release sets and
the channels. Where no intake queue holds an event, each new room in ascending order takes the gathered entries, trimmed and
requeued, its holders and its auto-advance; the pool and the counters run on from room to room; the release set is the newest
six; channels are freed and claimed accordingly; and the FLOOR and PRIORITY notices are these, in this order. A held event is
replayed as the seat's next accepted event would act after the commit. Where the shares of the mix engine, the start test and
the trunks stand in the order shows in the release sets and the replay (R30, R57, R160; log entry 4). -/
def Obligations.CommitMovesEntries : Prop :=
  ∀ (order : List CommitShare) (s : State) (rp : Repartition),
    s.held = false → s.repartition = some rp → roomsOk s → entriesOk s → releasesAtHome s →
    (∀ a ∈ rp.affected, a ∈ rp.ready) →
    ∃ t sent, exec (.commit order) s = .next t ∧ t.ports = (conclude s sent none).ports ∧
      let news := newRooms s rp.target
      let moved := rp.affected.flatMap (membersOf s)
      let quiet := ∀ k, (s.trunks.get k).intake = []
      let grants := fun a => (builtFloor (atTurn s t rp a) rp a).queue.length - (t.floors.get a).queue.length
      (∀ a ∈ rp.affected, a ∉ news →
        t.floors.get a = { speakers := [], queue := [], holders := [] } ∧ (t.mixes.get a).release = []) ∧
      (∀ k ∈ moved,
        (t.trunks.get k).holding = isDraining t (roomOf t k) ∧
        (t.trunks.get k).intake =
          if isDraining t (roomOf t k) && isBefore order .startTest (.trunk k) then (s.trunks.get k).intake else []) ∧
      (quiet →
        sent.filter (fun n => isFloorNotice n.2) =
          news.flatMap fun a =>
            let x := atTurn s t rp a
            builtSent x rp a ++
              ((builtFloor x rp a).queue.take (grants a)).map fun q =>
                (component rp.target a, .floor a q.seat .granted .none)) ∧
      (quiet →
        let x := news.foldl (roomBuilt t rp) s
        t.poolFree = x.poolFree ∧ t.stampCounter = x.stampCounter ∧ t.releaseCounter = x.releaseCounter) ∧
      (quiet → ∀ a ∈ news,
        let x := atTurn s t rp a
        let g := gathered s rp a
        let mode := (s.profiles.get a).floorMode
        let built : State := { x with floors := s.floors.set a (builtFloor x rp a) }
        let n := grants a
        let release := gatheredRelease s rp a
        let entries := sortBy releaseBefore release
        let kept := fun l : List Release => l.filter fun e => !(heads built a n).contains e.seat
        let fallen :=
          (trimmed g).zipIdx.map fun y =>
            ({ seat := y.1.seat, gain := y.1.gain, stamp := x.releaseCounter + BitVec.ofNat 32 y.2, fresh := true } :
              Release)
        let freeing := fun (gone : List Release) (y : State) =>
          { y with
            trunks := Tab.ofFn fun k => { y.trunks.get k with channels := freed k (older gone) (y.trunks.get k).channels } }
        let leaves := fun (l : List Release) (y : State) =>
          (t.mixes.get a).release = l ∧
            ∀ k ∈ component rp.target a, (t.trunks.get k).channels = (y.trunks.get k).channels
        advances built a (!(isDraining t a && isBeforeFloor order .startTest)) n ∧
        t.floors.get a = (afterHeads built a n).floors.get a ∧
        (∀ k ∈ component rp.target a,
          (t.trunks.get k).refusals =
            if mode = .direct then
              Tab.ofFn fun pos =>
                (s.trunks.get k).refusals.get pos || g.queue.any fun q => q.seat == seatAt k pos
            else (s.trunks.get k).refusals) ∧
        (g.speakers.length ≤ 10 →
          if isBeforeFloor order .mix then leaves (kept (newest entries)) (afterHeads (freeing entries built) a n)
          else
            let left := sortBy releaseBefore (kept release)
            leaves (newest left) (freeing left (afterHeads built a n))) ∧
        (10 < g.speakers.length →
          t.floors.get a = builtFloor x rp a ∧ (t.floors.get a).speakers.length = 10 ∧
            (floorsBounded s → releasesOk s rp.affected →
              leaves (newest (entries ++ fallen)) (freeing (entries ++ fallen) s)))) ∧
      (∀ a ∈ news, ∀ k ∈ component rp.target a, news = [a] → (∀ j, j ≠ k → (s.trunks.get j).intake = []) →
        let g := gathered s rp a
        let f := builtFloor s rp a
        let events := (s.trunks.get k).intake
        g.speakers.length ≤ 10 → (s.profiles.get a).floorMode = .chair → isDraining t a = false →
        (events.map HeldEvent.seat).Nodup → f.queue.length + events.length ≤ (s.profiles.get a).requestCap →
        events.length ≤ s.poolFree →
        (∀ e ∈ events, e.kind = .talk ∧ segmentOf e.seat = k ∧ (s.seats.get e.seat).online = true ∧
          (s.seats.get e.seat).enabled = true ∧ (s.seats.get e.seat).chair = false ∧ hasSpeaker g e.seat = false ∧
          hasRequest g e.seat = false) →
        t.floors.get a =
            { f with
              queue :=
                f.queue ++ events.zipIdx.map fun x =>
                  { seat := x.1.seat, stamp := s.stampCounter + BitVec.ofNat 32 x.2, returned := false } } ∧
          t.poolFree = s.poolFree - events.length) ∧
      ∀ k ∈ moved, ∀ held e, (s.trunks.get k).intake = held ++ [e] → segmentOf e.seat = k → t.repartition = none →
        (∀ j, isBefore order (.trunk k) (.trunk j) = true → (s.trunks.get j).intake = []) →
        ∃ u v sentU sentV,
          exec (.commit order) { s with trunks := s.trunks.modify k fun r => { r with intake := held } } = .next u ∧
          exec (frameWith u k e.seat e.kind e.toggle) (listening u k e.seat) = .next v ∧
          u.ports = (conclude s sentU none).ports ∧ v.ports = (conclude u sentV none).ports ∧
          sent.filter (fun n => isFloorNotice n.2 || isSeatNotice n.2) =
            sentU.filter (fun n => isFloorNotice n.2 || isSeatNotice n.2) ++ sentV ∧
          t.floors = v.floors ∧ t.poolFree = v.poolFree ∧ t.stampCounter = v.stampCounter ∧
          t.releaseCounter = v.releaseCounter ∧
          (∀ i, (t.seats.get i).online = (v.seats.get i).online) ∧
          (∀ j, (t.trunks.get j).refusals = (v.trunks.get j).refusals) ∧
          (isBefore order .mix (.trunk k) = true →
            t.mixes = v.mixes ∧ ∀ j, (t.trunks.get j).channels = (v.trunks.get j).channels)

/-- R119, R129, R134, R135, R136, R170: at a commit every booth keeps its assignment; a relay whose source is now of another
room reverts to FLOOR; a tap of a booth that is no booth of the owner's room is freed; the new rooms' slot maps and
allocations are those of an allocator run, and other booths keep theirs; with the RELAY, BOOTH and TAP notices of each. -/
def Obligations.CommitMovesBooths : Prop :=
  ∀ (order : List CommitShare) (s : State) (rp : Repartition),
    s.held = false → s.repartition = some rp → roomsOk s → relaysOk s → (∀ a ∈ rp.affected, a ∈ rp.ready) →
    ∃ t, exec (.commit order) s = .next t ∧
      let news := newRooms s rp.target
      let stays := fun x : Tap =>
        match x.source with
        | .floor => true
        | .slot _ => true
        | .boothOut b => boothRoom t b == some (roomOf t x.owner)
        | .boothFeed b => boothRoom t b == some (roomOf t x.owner)
      let crossing := fun a : Segment =>
        allBooths.filter fun b =>
          boothRoom t b == some a &&
            match (s.booths.get b).source with
            | some k => boothRoom t k != some a
            | none => false
      (∀ b,
        t.booths.get b =
          { s.booths.get b with
            source := (s.booths.get b).source.filter fun k => boothRoom t k == boothRoom t b
            allocation := (t.booths.get b).allocation }) ∧
      (∀ b, (∀ a ∈ news, boothRoom t b ≠ some a) → (t.booths.get b).allocation = (s.booths.get b).allocation) ∧
      (∀ k, t.taps.get k = (s.taps.get k).filter stays) ∧
      (∀ a ∈ news,
        t.slotMaps.get a = (allocatorRun t a).2 ∧
          ∀ x ∈ (allocatorRun t a).1, (t.booths.get x.1).allocation = x.2) ∧
      ∃ sent, t.ports = (conclude s sent none).ports ∧
        sent.filter (fun n => isBoothNotice n.2) =
          news.flatMap (fun a =>
            ((crossing a).map fun b => (membersOf t a, NoticeBody.relay b none 0 .reverted)) ++
              ((allocatorRun t a).1.filter fun x => (s.booths.get x.1).allocation != x.2).map fun x =>
                boothSent t a x.1) ∧
        sent.filter (fun n => isTapNotice n.2) =
          allTaps.filterMap fun k =>
            ((s.taps.get k).filter fun x => !stays x).map fun x =>
              ([x.owner], NoticeBody.tap k x.source x.owner .released)

/-! ### Trunks -/

/-- R34, R38 to R41, R44, R46, R47, R54, R141: what a LIVE trunk does with a frame, received or missing, none of whose
events is accepted. The confirm count and the predictor that the rules do not mention stay (log entry 15); the channel
audio is kept for the next frame event (log entry 19). -/
def Obligations.FramesSupervised : Prop :=
  ∀ (k : TrunkId) (frame : Option UplinkFrame) (s : State), s.held = false →
    let r := s.trunks.get k
    let outcome := match frame with | some f => exec (.uplinkFrame k f) s | none => exec (.missingFrame k) s
    let becomes := fun (r' : Trunk) (sent : List Sent) =>
      outcome = .next (conclude { s with trunks := s.trunks.set k r' } sent none)
    let p := nextWord r.predictor
    (r.power ≠ .live → outcome = .next (conclude s [] none)) ∧
    (r.power = .live → r.supervision = some .hunt → frame = none → becomes { r with audio := none } []) ∧
    (r.power = .live → r.supervision = some .confirm → frame = none →
      becomes { r with supervision := some .hunt, audio := none } []) ∧
    (∀ f, r.power = .live → frame = some f →
      let loaded := f.word.extractLsb' 0 15
      (r.supervision = some .hunt →
        becomes
          (if loaded = 0 then { r with audio := none }
          else { r with predictor := loaded, supervision := some .confirm, confirmCount := 0, audio := none }) []) ∧
      (r.supervision = some .confirm → f.word ≠ p.2 →
        becomes
          (if loaded = 0 then { r with predictor := p.1, supervision := some .hunt, audio := none }
          else { r with predictor := loaded, confirmCount := 0, audio := none }) []) ∧
      (r.supervision = some .confirm → f.word = p.2 → r.confirmCount < 3 →
        becomes { r with predictor := p.1, confirmCount := r.confirmCount + 1, audio := none } []) ∧
      (r.supervision = some .confirm → f.word = p.2 → 3 ≤ r.confirmCount →
        becomes
          { r with
            predictor := p.1, confirmCount := r.confirmCount + 1, supervision := some .locked
            blockPos := 0, blockErrors := 0, linkUp := true, holdDeadline := none, audio := none }
          [([k], .trunk k .live (some .locked) true none)])) ∧
    (r.power = .live → r.supervision = some .locked →
      let errors :=
        match frame with
        | some f => ((List.range 16).filter fun n => f.word.getLsbD n != p.2.getLsbD n).length
        | none => 16
      let block := r.blockErrors + if errors = 0 then 0 else 1
      let counted := fun loss : Nat =>
        ({ lockedFrames := min 4294967295 (r.live.lockedFrames + 1)
           erroredFrames := min 4294967295 (r.live.erroredFrames + if errors = 0 then 0 else 1)
           bitErrors := min 4294967295 (r.live.bitErrors + errors)
           syncLosses := min 4294967295 (r.live.syncLosses + loss) } : Counters)
      let base := { r with predictor := p.1, audio := frame.map UplinkFrame.audio }
      let hold := s.clock + BitVec.ofNat 32 s.hall.trunkHold
      (∀ f, frame = some f → f.events = [] ∨ errors ≠ 0) →
        (6 ≤ block →
          becomes
            { base with
              live := counted 1, supervision := some .hunt, blockPos := 0, blockErrors := 0, holdDeadline := some hold }
            [([k], .trunk k .live (some .hunt) r.linkUp (some hold))]) ∧
        (block < 6 → 63 ≤ r.blockPos → becomes { base with live := counted 0, blockPos := 0, blockErrors := 0 } []) ∧
        (block < 6 → r.blockPos < 63 →
          becomes { base with live := counted 0, blockPos := r.blockPos + 1, blockErrors := block } []))

/-- R53 to R56, R59 to R61, R71 to R74, R98 to R103: the events of a frame at positions 1 to 40 count, the others do not;
they are taken in ascending position, whatever their order in the frame, and each acts as if it came alone, in the state
that those before it leave, the frame itself counting once (no transmitter being idle beside a message, log entry 11). An accepted event is turned back as a duplicate, held in the intake
queue, or handed to the seat table and the floor; and what each kind of event does there. The place of the SEAT notice among
the FLOOR notices is log entry 13, and that a lost request starts no auto-advance is log entry 22. -/
def Obligations.EventsAccepted : Prop :=
  (∀ (k : TrunkId) (word : BitVec 16) (events : List UplinkEvent) (audio : Tab 16 Audio) (s : State),
    let frame := fun l : List UplinkEvent => exec (.uplinkFrame k { word := word, events := l, audio := audio }) s
    frame events = frame (events.filter fun e => decide (1 ≤ e.position ∧ e.position ≤ 40)) ∧
      ((events.map UplinkEvent.position).Nodup → ∀ l, l.Perm events → frame l = frame events)) ∧
  (∀ (k : TrunkId) (e : UplinkEvent) (rest : List UplinkEvent) (audio : Tab 16 Audio) (s s1 : State),
    let r := s.trunks.get k
    let frame := fun l : List UplinkEvent =>
      Instr.uplinkFrame k { word := (nextWord r.predictor).2, events := l, audio := audio }
    s.held = false → r.power = .live → r.supervision = some .locked → r.blockErrors < 6 → transmittersOk s →
    (∀ x ∈ rest, e.position < x.position) → exec (frame [e]) s = .next s1 →
    exec (frame (e :: rest)) s =
      exec (frame rest)
        { s1 with
          trunks :=
            s1.trunks.set k
              { s1.trunks.get k with
                predictor := r.predictor, live := r.live, blockPos := r.blockPos, blockErrors := r.blockErrors } }) ∧
  ∀ (k : TrunkId) (pos : Position) (kind : EventKind) (toggle : Bool) (audio : Tab 16 Audio) (s : State),
    let r := s.trunks.get k
    let p := nextWord r.predictor
    let i := seatAt k pos
    let x := s.seats.get i
    let a := roomOf s k
    let f := s.floors.get a
    s.held = false → r.power = .live → r.supervision = some .locked → r.blockErrors < 6 →
    let locked : Trunk :=
      { r with
        predictor := p.1
        live := { r.live with
          lockedFrames := min 4294967295 (r.live.lockedFrames + 1)
          erroredFrames := min 4294967295 r.live.erroredFrames
          bitErrors := min 4294967295 r.live.bitErrors
          syncLosses := min 4294967295 r.live.syncLosses }
        blockPos := if 63 ≤ r.blockPos then 0 else r.blockPos + 1
        blockErrors := if 63 ≤ r.blockPos then 0 else r.blockErrors
        audio := some audio }
    let acked : Trunk := { locked with acks := r.acks.set pos (some toggle) }
    let taken := fun (r' : Trunk) (x' : Seat) =>
      ({ s with trunks := s.trunks.set k r', seats := s.seats.set i x' } : State)
    let outcome := exec (.uplinkFrame k
      { word := p.2, events := [{ position := pos.val + 1, kind := kind, toggle := toggle }], audio := audio }) s
    let becomes := fun (t : State) (sent : List Sent) => outcome = .next (conclude t sent none)
    let noted := { x with lastToggle := some toggle }
    let refused := { acked with refusals := r.refusals.set pos true }
    let s1 := taken acked noted
    (x.lastToggle = some toggle → becomes { s with trunks := s.trunks.set k acked } []) ∧
    (x.lastToggle ≠ some toggle → r.holding = true → r.intake.length < 8 →
      becomes
        (taken { acked with intake := r.intake ++ [{ seat := i, kind := kind, toggle := toggle }] } noted) []) ∧
    (x.lastToggle ≠ some toggle → r.holding = true → 8 ≤ r.intake.length →
      becomes { s with trunks := s.trunks.set k locked } []) ∧
    (x.lastToggle ≠ some toggle → r.holding = false →
      (kind = .hello → x.online = false →
        becomes (taken acked { noted with online := true }) [([k], .seat i true x.enabled x.chair .online)]) ∧
      (kind ≠ .hello → x.online = false → becomes s1 []) ∧
      (kind = .priorityDown ∨ kind = .priorityUp ∨ kind = .nextKey → x.chair = false → becomes s1 []) ∧
      (kind = .talk ∨ kind = .priorityDown ∧ x.chair = true ∨ kind = .nextKey ∧ x.chair = true →
        x.online = true → x.enabled = false → becomes (taken refused noted) []) ∧
      (x.online = true → (entrySeats f).Nodup →
        let entry := hasSpeaker f i
        let turnedBack := becomes (taken refused noted) []
        let gone := fun s2 : State => afterDrop s2 a i
        (kind = .hello →
          handled f.holders (gone s1) a (dropSent s a i .seatOffline ++ [([k], .seat i true x.enabled x.chair .restart)]) entry
            none outcome) ∧
        (kind = .bye →
          handled f.holders
            (gone (taken { acked with refusals := r.refusals.set pos false }
              { x with online := false, lastToggle := none }))
            a (dropSent s a i .seatOffline ++ [([k], .seat i false x.enabled x.chair .offline)]) entry none outcome) ∧
        (kind = .talk → x.enabled = true →
          (∀ e ∈ f.speakers, e.seat = i →
            handled f.holders (afterRemoval s1 a i e.gain) a [floorSent s a i .closed .bySeat] true none outcome) ∧
          (entry = false → hasRequest f i = true →
            becomes (afterDequeue s1 a i false) [floorSent s a i .dequeued .cancelled]) ∧
          (entry = false → hasRequest f i = false →
            let granted := becomes (afterGrant s1 a i false) [floorSent s a i .granted .bySeat]
            (x.chair = true → f.speakers.length < 10 → granted) ∧
            (x.chair = true → 10 ≤ f.speakers.length → turnedBack) ∧
            (x.chair = false →
              let mode := (s.profiles.get a).floorMode
              let free := openCount f < (s.profiles.get a).maxOpen ∧ f.speakers.length < 10 ∧ f.holders = []
              let room := f.queue.length < (s.profiles.get a).requestCap ∧ 0 < s.poolFree
              let queued := becomes (afterEnqueue s1 a i) [floorSent s a i .queued .bySeat]
              (mode = .direct → free → granted) ∧ (mode = .direct → ¬free → turnedBack) ∧
              (mode = .autoQueue → free → f.queue = [] → granted) ∧
              (mode = .autoQueue → ¬(free ∧ f.queue = []) → room → queued) ∧
              (mode = .autoQueue → ¬(free ∧ f.queue = []) → ¬room → turnedBack) ∧
              (mode = .chair → room → queued) ∧ (mode = .chair → ¬room → turnedBack)))) ∧
        (kind = .priorityDown → x.enabled = true → x.chair = true →
          let opened := afterGrant s1 a i true
          let last := (f.speakers.filter fun e => !e.chairAtGrant).getLast?
          (isHolder f i = true → becomes s1 []) ∧
          (isHolder f i = false → 4 ≤ f.holders.length → turnedBack) ∧
          (isHolder f i = false → f.holders.length < 4 →
            (entry = true → becomes (afterHold s1 a i) (holdSent s1 a)) ∧
            (entry = false → f.speakers.length < 10 →
              becomes (afterHold opened a i) (floorSent s a i .granted .bySeat :: holdSent opened a)) ∧
            (entry = false → 10 ≤ f.speakers.length → last = none → turnedBack) ∧
            (∀ e, entry = false → 10 ≤ f.speakers.length → last = some e →
              let bumped := afterGrant (afterRemoval s1 a e.seat e.gain) a i true
              becomes (afterHold bumped a i)
                ([floorSent s a e.seat .closed .priorityBump, floorSent s a i .granted .bySeat] ++
                  holdSent bumped a)))) ∧
        (kind = .priorityUp → x.chair = true →
          (isHolder f i = false → becomes s1 []) ∧
          (isHolder f i = true → (∀ e ∈ f.speakers, e.seat = i → e.byPriority = false) →
            let s2 := { s1 with floors := s.floors.set a { f with holders := f.holders.filter fun h => h.seat != i } }
            handled f.holders s2 a [] false none outcome) ∧
          (∀ e ∈ f.speakers, isHolder f i = true → e.seat = i → e.byPriority = true →
            handled f.holders (afterRemoval s1 a i e.gain) a [floorSent s a i .closed .priorityEnd] true none outcome)) ∧
        (kind = .nextKey → x.enabled = true → x.chair = true →
          (f.holders ≠ [] ∨ (s.profiles.get a).floorMode = .direct ∨ f.queue = [] → turnedBack) ∧
          (∀ q, f.holders = [] → (s.profiles.get a).floorMode ≠ .direct → f.queue.head? = some q →
            let place := f.speakers.length < 10 ∧
              ((s.seats.get q.seat).chair = true ∨ openCount f < (s.profiles.get a).maxOpen)
            (place → becomes (afterGrant s1 a q.seat false) [floorSent s a q.seat .granted .byCommand]) ∧
              (¬place → turnedBack)))))

/-- R33, R34, R35, R46: power changes of a trunk whose link view is DOWN, and the checks of TRUNK_POWER. A WARMING trunk
that is switched OFF also loses its acknowledgements and its test (log entry 21). -/
def Obligations.TrunkPowerChanges : Prop :=
  ∀ (k : TrunkId) (p : Port) (tag b switch : Byte) (s : State),
    let r := s.trunks.get k
    let hunting : Trunk :=
      { r with
        power := .live, warmDeadline := none, supervision := some .hunt, confirmCount := 0, blockPos := 0
        blockErrors := 0 }
    let warming : Trunk :=
      { r with power := .warming, warmDeadline := some (s.clock + BitVec.ofNat 32 s.hall.trunkStart) }
    let off : Trunk :=
      { r with
        power := .unpowered, warmDeadline := none, supervision := none, testPending := false
        acks := Tab.replicate 40 none }
    let set := fun r' : Trunk => { s with trunks := s.trunks.set k r' }
    let sent := fun r' : Trunk => [([k], NoticeBody.trunk k r'.power r'.supervision r'.linkUp r'.holdDeadline)]
    (∀ d, s.held = false → r.power = .warming → r.warmDeadline = some d → 0 ≤ (s.clock - d).toInt →
      exec (.warmingExpiry k) s = .next (conclude (set hunting) (sent hunting) none)) ∧
    (s.held = false → r.power ≠ .warming ∨ (∀ d, r.warmDeadline = some d → (s.clock - d).toInt < 0) →
      exec (.warmingExpiry k) s = .next (conclude s [] none)) ∧
    (served s p → b.toNat = 0 ∨ 6 < b.toNat ∨ 1 < switch.toNat →
      exec (.trunkPower p tag b switch) s = .next (answered s p tag .badArgument [])) ∧
    (served s p → b.toNat = k.val + 1 → p ≠ k → switch.toNat ≤ 1 →
      exec (.trunkPower p tag b switch) s = .next (answered s p tag .notSegment [])) ∧
    (served s k → b.toNat = k.val + 1 →
      (r.power = .unpowered →
        exec (.trunkPower k tag b 1) s = .next (replied (set warming) (sent warming) k tag .done [1]) ∧
          exec (.trunkPower k tag b 0) s = .next (answered s k tag .done [0])) ∧
      (r.power ≠ .unpowered →
        exec (.trunkPower k tag b 1) s =
          .next (answered s k tag .done [if r.power = .warming then 1 else 2])) ∧
      (r.power = .warming ∨ r.power = .live ∧ r.linkUp = false →
        exec (.trunkPower k tag b 0) s = .next (replied (set off) (sent off) k tag .done [0])))

/-- R35, R45, R51, R61, R70, R78, R79, R102, R103: a hold that expires, and TRUNK_POWER OFF of a trunk whose link view is UP,
take the ONLINE seats of the trunk offline in ascending order, each complete before the next. Everything of such a seat leaves
the floor, the holder set, the release set and the channel table, and nothing else does; the FLOOR notices come in that order,
then the one TRUNK notice (log entry 13), and then the end of priority and one auto-advance, where a speaker entry or the last
hold has gone (log entry 22). -/
def Obligations.LinkLossTakesSeats : Prop :=
  ∀ (k : TrunkId) (tag b : Byte) (s : State), s.held = false →
    let r := s.trunks.get k
    let a := roomOf s k
    let f := s.floors.get a
    let seats := ((List.finRange 40).map (seatAt k)).filter fun i => (s.seats.get i).online
    let lost := fun (r' : Trunk) (reason : FloorReason) (reply : Option (Port × Reply))
        (o : Host.Outcome State Fault Refusal) =>
      let s1 : State :=
        { s with
          trunks :=
            s.trunks.set k
              { r' with
                holdDeadline := none, linkUp := false, intake := []
                refusals := Tab.ofFn fun pos => r.refusals.get pos && !(s.seats.get (seatAt k pos)).online }
          seats :=
            Tab.ofFn fun i =>
              if segmentOf i = k ∧ (s.seats.get i).online = true then
                { s.seats.get i with online := false, lastToggle := none }
              else s.seats.get i }
      handled f.holders (seats.foldl (fun x i => afterDrop x a i) s1) a
        ((seats.flatMap fun i => dropSent s a i reason) ++ [([k], .trunk k r'.power r'.supervision false none)])
        (seats.any fun i => hasSpeaker f i) reply o
    ((∀ d, r.holdDeadline = some d → (s.clock - d).toInt < 0) →
      exec (.holdExpiry k) s = .next (conclude s [] none)) ∧
    (∀ d, (entrySeats f).Nodup → r.holdDeadline = some d → 0 ≤ (s.clock - d).toInt →
      lost r .trunkLost none (exec (.holdExpiry k) s)) ∧
    ((entrySeats f).Nodup → served s k → b.toNat = k.val + 1 → r.power = .live → r.linkUp = true →
      lost
        { r with
          power := .unpowered, warmDeadline := none, supervision := none, testPending := false
          acks := Tab.replicate 40 none }
        .trunkOff (some (k, { tag := tag, code := .done, results := [0] })) (exec (.trunkPower k tag b 0) s))

/-- R33, R42, R43, R48, R62: TRUNK_RESTART, TRUNK_TEST, SNAPSHOT and SET_SEAT. -/
def Obligations.TrunkCommands : Prop :=
  ∀ (k : TrunkId) (p : Port) (tag b : Byte) (s : State), served s p →
    let r := s.trunks.get k
    let set := fun r' : Trunk => { s with trunks := s.trunks.set k r' }
    let hold := s.clock + BitVec.ofNat 32 s.hall.trunkHold
    (b.toNat = 0 ∨ 6 < b.toNat →
      exec (.trunkRestart p tag b) s = .next (answered s p tag .badArgument []) ∧
        exec (.trunkTest p tag b) s = .next (answered s p tag .badArgument []) ∧
        exec (.snapshot p tag b) s = .next (answered s p tag .badArgument [])) ∧
    (b.toNat = k.val + 1 → p ≠ k →
      exec (.trunkRestart p tag b) s = .next (answered s p tag .notSegment []) ∧
        exec (.trunkTest p tag b) s = .next (answered s p tag .notSegment []) ∧
        exec (.snapshot p tag b) s = .next (answered s p tag .notSegment [])) ∧
    (b.toNat = k.val + 1 → p = k →
      (r.power ≠ .live → exec (.trunkRestart p tag b) s = .next (answered s p tag .trunkNotLive [])) ∧
      (r.power = .live → r.supervision = some .hunt →
        exec (.trunkRestart p tag b) s = .next (answered s p tag .done [])) ∧
      (r.power = .live → r.supervision = some .confirm →
        exec (.trunkRestart p tag b) s =
          .next (answered (set { r with supervision := some .hunt, confirmCount := 0 }) p tag .done [])) ∧
      (r.power = .live → r.supervision = some .locked →
        exec (.trunkRestart p tag b) s =
          .next (replied
            (set
              { r with supervision := some .hunt, blockPos := 0, blockErrors := 0, holdDeadline := some hold })
            [([k], .trunk k .live (some .hunt) r.linkUp (some hold))] p tag .done [])) ∧
      (r.power = .live → r.supervision = some .locked →
        exec (.trunkTest p tag b) s = .next (answered (set { r with testPending := true }) p tag .done [])) ∧
      (r.power ≠ .live ∨ r.supervision ≠ some .locked →
        exec (.trunkTest p tag b) s = .next (answered s p tag .trunkNotLive [])) ∧
      exec (.snapshot p tag b) s =
        .next (answered
          (set
            { r with
              snap := r.live, snapTime := s.clock
              live := { lockedFrames := 0, erroredFrames := 0, bitErrors := 0, syncLosses := 0 } })
          p tag .done
          (natClock r.live.lockedFrames ++ natClock r.live.erroredFrames ++ natClock r.live.bitErrors ++
            natClock r.live.syncLosses ++ clockBytes s.clock))) ∧
    (∀ enabled chair : Byte, b.toNat = 0 ∨ 240 < b.toNat ∨ 1 < enabled.toNat ∨ 1 < chair.toNat →
      exec (.setSeat p tag b enabled chair) s = .next (answered s p tag .badArgument [])) ∧
    ∀ (i : SeatId) (enabled chair : Bool), b.toNat = i.val + 1 →
      let entry := hasSpeaker (s.floors.get (seatRoom s i)) i || hasRequest (s.floors.get (seatRoom s i)) i
      let x := { s.seats.get i with enabled := enabled, chair := chair }
      let set' : State := { s with seats := s.seats.set i x }
      (p ≠ segmentOf i →
        exec (.setSeat p tag b (flagByte enabled) (flagByte chair)) s = .next (answered s p tag .notSegment [])) ∧
      (p = segmentOf i → isDraining s (seatRoom s i) = true →
        exec (.setSeat p tag b (flagByte enabled) (flagByte chair)) s = .next (answered s p tag .busyRepartition [])) ∧
      (p = segmentOf i → isDraining s (seatRoom s i) = false → entry = true →
        exec (.setSeat p tag b (flagByte enabled) (flagByte chair)) s = .next (answered s p tag .seatBusy [])) ∧
      (p = segmentOf i → isDraining s (seatRoom s i) = false → entry = false →
        exec (.setSeat p tag b (flagByte enabled) (flagByte chair)) s =
          .next (answered set' p tag .done (seatBytes set' i)))

/-! ### Floor commands -/

/-- R66, R75, R76, R81 to R84: GRANT and GRANT NEXT. That GRANT with seat 0 is GRANT NEXT is log entry 9. -/
def Obligations.GrantGivesFloor : Prop :=
  (∀ (p : Port) (tag b replace : Byte) (s : State),
    (b ≠ 0 → turnedAway s p tag (240 < b.toNat ∨ 1 < replace.toNat) (exec (.grant p tag b replace) s)) ∧
      turnedAway s p tag (1 < replace.toNat) (exec (.grantNext p tag replace) s) ∧
      exec (.grant p tag 0 replace) s = exec (.grantNext p tag replace) s) ∧
  ∀ (p : Port) (a : Segment) (tag b : Byte) (replace : Bool) (i : SeatId) (s : State),
    leads s p a → (entrySeats (s.floors.get a)).Nodup →
    let f := s.floors.get a
    let x := s.seats.get i
    let named := exec (.grant p tag b (flagByte replace)) s
    let next := exec (.grantNext p tag (flagByte replace)) s
    let inRoom := segmentOf i ∈ membersOf s a ∧ x.online = true ∧ x.enabled = true
    let place := f.speakers.length < 10 ∧ (x.chair = true ∨ openCount f < (s.profiles.get a).maxOpen)
    let deadline :=
      if x.chair = true ∨ (s.profiles.get a).speechLimit = 0 then none
      else some (s.clock + BitVec.ofNat 32 (1000 * (s.profiles.get a).speechLimit))
    let results := fun t : State => [num i, numOrZero (channelOf t i)] ++ clockOrZero deadline
    let granted := afterGrant s a i false
    let outcomes := fun o : Host.Outcome State Fault Refusal =>
      (place →
        o = .next (replied granted [floorSent s a i .granted .byCommand] p tag .done (results granted))) ∧
      (¬place → replace = false → o = .next (answered s p tag .floorFull [])) ∧
      (¬place → (∀ e ∈ f.speakers, e.chairAtGrant = true) → o = .next (answered s p tag .floorFull [])) ∧
      (∀ e, ¬place → replace = true → (f.speakers.find? fun e => !e.chairAtGrant) = some e →
        let t := afterGrant (afterRemoval s a e.seat e.gain) a i false
        o =
          .next (replied t
            [floorSent s a e.seat .closed .replaced, floorSent s a i .granted .byCommand] p tag .done (results t)))
    (b.toNat = i.val + 1 →
      (f.holders ≠ [] → named = .next (answered s p tag .priorityActive [])) ∧
      (f.holders = [] → ¬inRoom → named = .next (answered s p tag .noSuch [])) ∧
      (f.holders = [] → inRoom → hasSpeaker f i = true → named = .next (answered s p tag .seatBusy [])) ∧
      (f.holders = [] → inRoom → hasSpeaker f i = false → outcomes named)) ∧
    (f.holders ≠ [] → next = .next (answered s p tag .priorityActive [])) ∧
    (f.holders = [] → (s.profiles.get a).floorMode = .direct → next = .next (answered s p tag .wrongMode [])) ∧
    (f.holders = [] → (s.profiles.get a).floorMode ≠ .direct → f.queue = [] →
      next = .next (answered s p tag .noSuch [])) ∧
    (f.holders = [] → (s.profiles.get a).floorMode ≠ .direct → f.queue.head?.map Request.seat = some i →
      outcomes next)

/-- R76, R79, R80, R85, R102, R103, R108: CLOSE and the expiry of a speech deadline remove a speaker entry. With it goes
its hold; where it was the last hold, the SUSPENDED entries are resumed; then auto-advance runs. R109: an expiry that finds no entry changes nothing. -/
def Obligations.CloseEndsSpeech : Prop :=
  (∀ (p : Port) (tag b : Byte) (s : State),
    turnedAway s p tag (b.toNat = 0 ∨ 240 < b.toNat) (exec (.close p tag b) s)) ∧
  ∀ (p : Port) (a : Segment) (tag b : Byte) (e : Speaker) (s : State),
    let i := e.seat
    let f := s.floors.get a
    let s1 := afterRemoval s a i e.gain
    (leads s p a → b.toNat = i.val + 1 → hasSpeaker f i = false →
      exec (.close p tag b) s = .next (answered s p tag .noSuch [])) ∧
    (leads s p a → (entrySeats f).Nodup → b.toNat = i.val + 1 → e ∈ f.speakers →
      handled f.holders s1 a [floorSent s a i .closed .byCommand] true
        (some (p, { tag := tag, code := .done, results := [] })) (exec (.close p tag b) s)) ∧
    (s.held = false → hasSpeaker (s.floors.get (seatRoom s i)) i = false →
      exec (.deadlineExpiry i) s = .next (conclude s [] none)) ∧
    (s.held = false → (entrySeats f).Nodup → a = seatRoom s i → e ∈ f.speakers →
      ((∀ d, e.deadline = some d → (s.clock - d).toInt < 0) →
        exec (.deadlineExpiry i) s = .next (conclude s [] none)) ∧
      (∀ d, e.deadline = some d → 0 ≤ (s.clock - d).toInt →
        handled f.holders s1 a [floorSent s a i .closed .timeUp] true none (exec (.deadlineExpiry i) s)))

/-- R73, R77, R79, R86, R87: DENY and ENQUEUE. -/
def Obligations.RequestCommands : Prop :=
  (∀ (p : Port) (tag b : Byte) (s : State),
    turnedAway s p tag (b.toNat = 0 ∨ 240 < b.toNat) (exec (.deny p tag b) s) ∧
      turnedAway s p tag (b.toNat = 0 ∨ 240 < b.toNat) (exec (.enqueue p tag b) s)) ∧
  ∀ (p : Port) (a : Segment) (tag b : Byte) (i : SeatId) (s : State), leads s p a → b.toNat = i.val + 1 →
    let f := s.floors.get a
    let mode := (s.profiles.get a).floorMode
    let inRoom := segmentOf i ∈ membersOf s a ∧ (s.seats.get i).online = true ∧ (s.seats.get i).enabled = true
    let free := hasSpeaker f i = false ∧ hasRequest f i = false
    let s1 := afterEnqueue s a i
    let enqueued := exec (.enqueue p tag b) s
    let stamp := clockBytes s.stampCounter
    let done := fun results : List Byte => some (p, ({ tag := tag, code := .done, results := results } : Reply))
    (hasRequest f i = false → exec (.deny p tag b) s = .next (answered s p tag .noSuch [])) ∧
    (hasRequest f i = true →
      exec (.deny p tag b) s =
        .next (replied (afterDequeue s a i true) [floorSent s a i .dequeued .denied] p tag .done [])) ∧
    (mode = .direct → enqueued = .next (answered s p tag .wrongMode [])) ∧
    (mode ≠ .direct → ¬inRoom → enqueued = .next (answered s p tag .noSuch [])) ∧
    (mode ≠ .direct → inRoom → ¬free → enqueued = .next (answered s p tag .seatBusy [])) ∧
    (mode ≠ .direct → inRoom → free → (s.profiles.get a).requestCap ≤ f.queue.length →
      enqueued = .next (answered s p tag .queueFull [])) ∧
    (mode ≠ .direct → inRoom → free → f.queue.length < (s.profiles.get a).requestCap → s.poolFree = 0 →
      enqueued = .next (answered s p tag .poolFull [])) ∧
    (mode ≠ .direct → inRoom → free → f.queue.length < (s.profiles.get a).requestCap → 0 < s.poolFree →
      (mode = .chair →
        enqueued =
          .next (replied s1 [floorSent s a i .queued .byCommand] p tag .done
            (stamp ++ [BitVec.ofNat 8 (f.queue.length + 1)]))) ∧
      (mode = .autoQueue →
        advanced s1 a [floorSent s a i .queued .byCommand]
          (fun t => done (stamp ++ [BitVec.ofNat 8 (t.floors.get a).queue.length]))
          enqueued))

/-- R77, R80, R88, R101 to R104, R149: CLEAR removes the speakers, oldest first, and then the requests, as selected, and
PRIORITY_CANCEL ends the hold it names, or with seat 0 every hold, in the order of the holder set; what the end of
priority and the removals start follows. -/
def Obligations.ClearAndCancel : Prop :=
  (∀ (p : Port) (tag b : Byte) (s : State),
    turnedAway s p tag (b.toNat = 0 ∨ 3 < b.toNat) (exec (.clear p tag b) s) ∧
      turnedAway s p tag (240 < b.toNat) (exec (.priorityCancel p tag b) s)) ∧
  ∀ (p : Port) (a : Segment) (tag b : Byte) (s : State),
    leads s p a → (entrySeats (s.floors.get a)).Nodup → floorsBounded s →
    let f := s.floors.get a
    let done := fun results : List Byte => some (p, ({ tag := tag, code := .done, results := results } : Reply))
    let closed := f.speakers.map fun e => floorSent s a e.seat .closed .cleared
    let dequeued := f.queue.map fun q => floorSent s a q.seat .dequeued .cleared
    let s1 := f.speakers.foldl (fun t e => afterRemoval t a e.seat e.gain) s
    let emptied := fun t : State => f.queue.foldl (fun t q => afterDequeue t a q.seat false) t
    let fallen := (f.speakers.zipIdx.map fun x =>
      ({ seat := x.1.seat, gain := x.1.gain, stamp := s.releaseCounter + BitVec.ofNat 32 x.2, fresh := true } :
        Release))
    let release := (s.mixes.get a).release ++ fallen
    ((s1.floors.get a).speakers = [] ∧ (s1.floors.get a).queue = f.queue ∧
      (s1.floors.get a).holders = (f.holders.filter fun h => !hasSpeaker f h.seat) ∧
      (s1.mixes.get a).release = release.drop (release.length - 6)) ∧
    (((emptied s1).floors.get a).queue = [] ∧ (emptied s1).poolFree = s.poolFree + f.queue.length) ∧
    exec (.clear p tag 2) s = .next (replied (emptied s) dequeued p tag .done []) ∧
    handled f.holders s1 a closed (!f.speakers.isEmpty) (done []) (exec (.clear p tag 1) s) ∧
    handled f.holders (emptied s1) a (closed ++ dequeued) (!f.speakers.isEmpty) (done [])
      (exec (.clear p tag 3) s) ∧
    (f.holders = [] → b.toNat ≤ 240 → exec (.priorityCancel p tag b) s = .next (answered s p tag .noSuch [])) ∧
    (∀ i : SeatId, b.toNat = i.val + 1 → isHolder f i = false →
      exec (.priorityCancel p tag b) s = .next (answered s p tag .noSuch [])) ∧
    (∀ i : SeatId, b.toNat = i.val + 1 → isHolder f i = true →
      let left := f.holders.filter fun h => h.seat != i
      ((∀ e ∈ f.speakers, e.seat = i → e.byPriority = false) →
        handled f.holders { s with floors := s.floors.set a { f with holders := left } } a [] false
          (done [BitVec.ofNat 8 left.length]) (exec (.priorityCancel p tag b) s)) ∧
      ∀ e ∈ f.speakers, e.seat = i → e.byPriority = true →
        handled f.holders (afterRemoval s a i e.gain) a [floorSent s a i .closed .priorityEnd] true
          (done [BitVec.ofNat 8 left.length]) (exec (.priorityCancel p tag b) s)) ∧
    (f.holders ≠ [] →
      let x := (f.holders.map Holder.seat).foldl (afterLeave a) (s, [])
      (x.1.floors.get a).holders = [] ∧
        handled f.holders x.1 a x.2 true (done [0]) (exec (.priorityCancel p tag 0) s))

/-! ### Booths, relays, PA gains and taps -/

/-- R115, R121, R136: a run of the allocator takes exactly the booths assigned to the room's members, each once, by anchor and
then by number, and gives each booth, in the order taken, the first case of the table that applies, against the booths placed
before it. -/
def Obligations.AllocatorPlacesBooths : Prop :=
  (∀ (s : State) (a : Segment), roomsOk s →
    (allocatorRun s a).1.map Prod.fst = boothsInOrder s a ∧
    (∀ b, b ∈ boothsInOrder s a ↔ ∃ g ∈ membersOf s a, (s.booths.get b).assignment = some g) ∧
    (∀ b, b ∈ boothsInOrder s a ↔ boothRoom s b = some a) ∧
    (boothsInOrder s a).Nodup ∧
    (boothsInOrder s a).Pairwise fun x y =>
      ∃ g h, (s.booths.get x).assignment = some g ∧ (s.booths.get y).assignment = some h ∧ (g < h ∨ g = h ∧ x < y)) ∧
  ∀ (s : State) (before after : List BoothId) (b : BoothId),
    let run := allocateAll s (before ++ b :: after) (Tab.replicate 6 none) []
    let placed := allocateAll s before (Tab.replicate 6 none) []
    run.1.map Prod.fst = before ++ b :: after ∧
      (run.1.take before.length = placed.1) ∧
      ((∃ x ∈ placed.1, (∃ slot, x.2 = .onAir slot) ∧ (s.booths.get x.1).language = (s.booths.get b).language ∧
          (s.booths.get b).language ≠ none) →
        run.1[before.length]? = some (b, .standby .duplicateLanguage)) ∧
      (¬(∃ x ∈ placed.1, (∃ slot, x.2 = .onAir slot) ∧ (s.booths.get x.1).language = (s.booths.get b).language ∧
          (s.booths.get b).language ≠ none) →
        ∀ slot, (s.booths.get b).preferred = some slot →
          (placed.2.get slot = none → run.1[before.length]? = some (b, .onAir slot)) ∧
          (placed.2.get slot ≠ none → ∀ x, placed.2.get x = none → (∀ y, y < x → placed.2.get y ≠ none) →
            run.1[before.length]? = some (b, .onAir x)) ∧
          ((∀ y, placed.2.get y ≠ none) → run.1[before.length]? = some (b, .standby .noSlot))) ∧
      ((before ++ b :: after).Nodup → ∀ slot x, run.2.get slot = some x ↔ (x, Allocation.onAir slot) ∈ run.1)

/-- R117 to R120, R130, R170: ASSIGN_BOOTH and RELEASE_BOOTH. -/
def Obligations.BoothCommands : Prop :=
  ∀ (p : Port) (a : Segment) (tag booth language slot : Byte) (s : State),
    turnedAway s p tag (booth.toNat = 0 ∨ 8 < booth.toNat ∨ language = 0)
      (exec (.assignBooth p tag booth language slot) s) ∧
    turnedAway s p tag (booth.toNat = 0 ∨ 8 < booth.toNat) (exec (.releaseBooth p tag booth) s) ∧
    ∀ b : BoothId, leads s p a → roomsOk s → booth.toNat = b.val + 1 →
      let r := s.booths.get b
      (language ≠ 0 → r.assignment ≠ none → boothRoom s b ≠ some a →
        exec (.assignBooth p tag booth language slot) s = .next (answered s p tag .boothTaken [])) ∧
      (∀ x : Slot, language ≠ 0 → r.assignment = none ∨ boothRoom s b = some a →
        x.val + 1 = max 1 (min 6 slot.toNat) →
        let s1 : State :=
          { s with
            booths :=
              s.booths.set b { r with assignment := some p, language := some language, preferred := some x } }
        exec (.assignBooth p tag booth language slot) s =
          .next (replied (allocated s1 a) (allocatedSent s s1 a) p tag
            (if x.val + 1 = slot.toNat then .done else .adjusted) (boothBytes (allocated s1 a) b))) ∧
      (r.assignment = none → exec (.releaseBooth p tag booth) s = .next (answered s p tag .noSuch [])) ∧
      (r.assignment ≠ none → boothRoom s b ≠ some a →
        exec (.releaseBooth p tag booth) s = .next (answered s p tag .notSameRoom [])) ∧
      (boothRoom s b = some a →
        let freed : Booth :=
          { r with assignment := none, language := none, preferred := none, source := none, allocation := .unassigned }
        let relaying := allBooths.filter fun x => x != b && (s.booths.get x).source == some b
        let s1 : State :=
          { s with
            booths :=
              Tab.ofFn fun x =>
                if x = b then freed
                else if (s.booths.get x).source = some b then { s.booths.get x with source := none }
                else s.booths.get x
            taps :=
              Tab.ofFn fun k =>
                (s.taps.get k).filter fun y => y.source != .boothOut b && y.source != .boothFeed b }
        let reverted := relaying.map fun x => (membersOf s a, NoticeBody.relay x none 0 .reverted)
        let untapped :=
          allTaps.filterMap fun k =>
            ((s.taps.get k).filter fun y => y.source == .boothOut b || y.source == .boothFeed b).map fun y =>
              ([y.owner], NoticeBody.tap k y.source y.owner .released)
        exec (.releaseBooth p tag booth) s =
          .next (replied (allocated s1 a) (reverted ++ untapped ++ [boothSent s1 a b] ++ allocatedSent s1 s1 a) p tag
            .done [BitVec.ofNat 8 relaying.length]))

/-- R126 to R129, R182, R183: SET_RELAY. -/
def Obligations.RelayCommand : Prop :=
  ∀ (p : Port) (a : Segment) (tag booth source : Byte) (s : State),
    turnedAway s p tag (booth.toNat = 0 ∨ 8 < booth.toNat ∨ 8 < source.toNat) (exec (.setRelay p tag booth source) s) ∧
    ∀ (b : BoothId) (k : Option BoothId), leads s p a → booth.toNat = b.val + 1 →
      source.toNat = (match k with | some x => x.val + 1 | none => 0) →
      let r := s.booths.get b
      let outcome := exec (.setRelay p tag booth source) s
      let s1 : State := { s with booths := s.booths.set b { r with source := k } }
      (r.assignment = none → outcome = .next (answered s p tag .noSuch [])) ∧
      (r.assignment ≠ none → boothRoom s b ≠ some a → outcome = .next (answered s p tag .notSameRoom [])) ∧
      (boothRoom s b = some a →
        (∀ x, k = some x → boothRoom s x ≠ some a → outcome = .next (answered s p tag .notSameRoom [])) ∧
        (∀ x, k = some x → boothRoom s x = some a → relayLoops s b x = true →
          outcome = .next (answered s p tag .relayLoop [])) ∧
        (∀ x, k = some x → boothRoom s x = some a → relayLoops s b x = false →
          2 < relayDepth s x + 1 + relayHeight s b → outcome = .next (answered s p tag .relayDepth [])) ∧
        ((∀ x, k = some x → boothRoom s x = some a ∧ relayLoops s b x = false ∧
            relayDepth s x + 1 + relayHeight s b ≤ 2) →
          (k = r.source → outcome = .next (answered s p tag .done [BitVec.ofNat 8 (relayDepth s b)])) ∧
          (k ≠ r.source →
            outcome =
              .next (replied s1 [(membersOf s a, .relay b k (relayDepth s1 b) .set)] p tag .done
                [BitVec.ofNat 8 (relayDepth s1 b)]))))

/-- R164, R167, R169: SET_PA_GAIN, JOIN_TAP and LEAVE_TAP. -/
def Obligations.GainAndTapCommands : Prop :=
  ∀ (p : Port) (tag b : Byte) (s : State), served s p →
    (∀ gain : Half, b.toNat = 0 ∨ 6 < b.toNat →
      exec (.setPaGain p tag b gain) s = .next (answered s p tag .badArgument [])) ∧
    (∀ (gain : Half) (g : Segment), b.toNat = g.val + 1 → p ≠ g →
      exec (.setPaGain p tag b gain) s = .next (answered s p tag .notSegment [])) ∧
    (∀ gain : Half, b.toNat = p.val + 1 →
      exec (.setPaGain p tag b gain) s =
        .next (answered { s with paGains := s.paGains.set p (min 4096 gain.toNat) } p tag
          (if gain.toNat ≤ 4096 then .done else .adjusted) (natHalf (min 4096 gain.toNat)))) ∧
    (∀ kind number : Byte, b.toNat = 0 ∨ 4 < b.toNat ∨ tapSourceArg kind number = none →
      exec (.joinTap p tag b kind number) s = .next (answered s p tag .badArgument [])) ∧
    (b.toNat = 0 ∨ 4 < b.toNat → exec (.leaveTap p tag b) s = .next (answered s p tag .badArgument [])) ∧
    ∀ k : TapId, b.toNat = k.val + 1 →
      (∀ (kind number : Byte) (source : TapSource), tapSourceArg kind number = some source →
        let a := roomOf s p
        let foreign := ∃ x, (source = .boothOut x ∨ source = .boothFeed x) ∧ boothRoom s x ≠ some a
        let outcome := exec (.joinTap p tag b kind number) s
        (isDraining s a = true → outcome = .next (answered s p tag .busyRepartition [])) ∧
        (isDraining s a = false → s.taps.get k ≠ none → outcome = .next (answered s p tag .tapTaken [])) ∧
        (isDraining s a = false → s.taps.get k = none → foreign →
          outcome = .next (answered s p tag .notSameRoom [])) ∧
        (isDraining s a = false → s.taps.get k = none → ¬foreign →
          outcome =
            .next (answered { s with taps := s.taps.set k (some { source := source, owner := p }) } p tag .done
              [num a]))) ∧
      (s.taps.get k = none → exec (.leaveTap p tag b) s = .next (answered s p tag .noSuch [])) ∧
      ∀ x, s.taps.get k = some x →
        let a := roomOf s x.owner
        let freed : State := { s with taps := s.taps.set k none }
        (x.owner ≠ p → leadOf s a ≠ some p → exec (.leaveTap p tag b) s = .next (answered s p tag .notOwner [])) ∧
        (x.owner = p ∨ leadOf s a = some p → isDraining s a = true →
          exec (.leaveTap p tag b) s = .next (answered s p tag .busyRepartition [])) ∧
        (x.owner = p → isDraining s a = false → exec (.leaveTap p tag b) s = .next (answered freed p tag .done [])) ∧
        (x.owner ≠ p → leadOf s a = some p → isDraining s a = false →
          exec (.leaveTap p tag b) s =
            .next (replied freed [([x.owner], .tap k x.source x.owner .left)] p tag .done []))

end
end

