-- ==== Sys2Proof/Laws/State.lean ====
section
/-! SUPPORT. The small lemmas of tables and of the state's updates: one lemma for each field of each update. -/

namespace Sys2Proof

/-! ### Tables -/

theorem Tab.ext_get {n : Nat} {α : Type} {t u : Tab n α} (h : ∀ i, t.get i = u.get i) : t = u := by
  cases t with
  | mk l hl =>
    cases u with
    | mk m hm =>
      congr
      refine List.ext_getElem (hl.trans hm.symm) fun i h₁ h₂ => ?_
      exact h ⟨i, hl ▸ h₁⟩

@[simp] theorem Tab.get_ofFn {n : Nat} {α : Type} (f : Fin n → α) (i : Fin n) : (Tab.ofFn f).get i = f i := by
  simp only [Tab.get, Tab.ofFn, List.get_ofFn]
  rfl

@[simp] theorem Tab.get_replicate {n : Nat} {α : Type} (a : α) (i : Fin n) : (Tab.replicate n a).get i = a := by
  simp [Tab.get, Tab.replicate]

theorem Tab.get_set {n : Nat} {α : Type} (t : Tab n α) (i j : Fin n) (a : α) :
    (t.set i a).get j = if i = j then a else t.get j := by
  simp only [Tab.get, Tab.set, List.get_eq_getElem, List.getElem_set, Fin.ext_iff]
  rfl

@[simp] theorem Tab.get_set_self {n : Nat} {α : Type} (t : Tab n α) (i : Fin n) (a : α) : (t.set i a).get i = a := by
  simp [Tab.get_set]

theorem Tab.get_set_ne {n : Nat} {α : Type} (t : Tab n α) {i j : Fin n} (a : α) (h : i ≠ j) :
    (t.set i a).get j = t.get j := by
  simp [Tab.get_set, h]

theorem Tab.get_modify {n : Nat} {α : Type} (t : Tab n α) (i j : Fin n) (f : α → α) :
    (t.modify i f).get j = if i = j then f (t.get j) else t.get j := by
  by_cases h : i = j <;> simp [Tab.modify, Tab.get_set, h]

@[simp] theorem Tab.get_modify_self {n : Nat} {α : Type} (t : Tab n α) (i : Fin n) (f : α → α) :
    (t.modify i f).get i = f (t.get i) := by
  simp [Tab.get_modify]

theorem Tab.get_modify_ne {n : Nat} {α : Type} (t : Tab n α) {i j : Fin n} (f : α → α) (h : i ≠ j) :
    (t.modify i f).get j = t.get j := by
  simp [Tab.get_modify, h]

@[simp] theorem Tab.get_map {n : Nat} {α β : Type} (f : α → β) (t : Tab n α) (i : Fin n) :
    (t.map f).get i = f (t.get i) := by
  simp only [Tab.get, Tab.map, List.get_eq_getElem, List.getElem_map]
  rfl

theorem Tab.set_get_self {n : Nat} {α : Type} (t : Tab n α) (i : Fin n) : t.set i (t.get i) = t :=
  Tab.ext_get fun j => by by_cases h : i = j <;> simp [Tab.get_set, h]

end Sys2Proof

namespace Sys2Proof.Machine

/-! ### modPort -/

@[simp] theorem State.modPort_pending (s : State) (p : Port) (f : PortRec → PortRec) :
    (s.modPort p f).pending = s.pending :=
  rfl

@[simp] theorem State.modPort_held (s : State) (p : Port) (f : PortRec → PortRec) :
    (s.modPort p f).held = s.held :=
  rfl

@[simp] theorem State.modPort_clock (s : State) (p : Port) (f : PortRec → PortRec) :
    (s.modPort p f).clock = s.clock :=
  rfl

@[simp] theorem State.modPort_edgeSeen (s : State) (p : Port) (f : PortRec → PortRec) :
    (s.modPort p f).edgeSeen = s.edgeSeen :=
  rfl

@[simp] theorem State.modPort_settleAtFrame (s : State) (p : Port) (f : PortRec → PortRec) :
    (s.modPort p f).settleAtFrame = s.settleAtFrame :=
  rfl

@[simp] theorem State.modPort_walls (s : State) (p : Port) (f : PortRec → PortRec) :
    (s.modPort p f).walls = s.walls :=
  rfl

@[simp] theorem State.modPort_hall (s : State) (p : Port) (f : PortRec → PortRec) :
    (s.modPort p f).hall = s.hall :=
  rfl

@[simp] theorem State.modPort_profiles (s : State) (p : Port) (f : PortRec → PortRec) :
    (s.modPort p f).profiles = s.profiles :=
  rfl

@[simp] theorem State.modPort_rooms (s : State) (p : Port) (f : PortRec → PortRec) :
    (s.modPort p f).rooms = s.rooms :=
  rfl

@[simp] theorem State.modPort_repartition (s : State) (p : Port) (f : PortRec → PortRec) :
    (s.modPort p f).repartition = s.repartition :=
  rfl

@[simp] theorem State.modPort_trunks (s : State) (p : Port) (f : PortRec → PortRec) :
    (s.modPort p f).trunks = s.trunks :=
  rfl

@[simp] theorem State.modPort_seats (s : State) (p : Port) (f : PortRec → PortRec) :
    (s.modPort p f).seats = s.seats :=
  rfl

@[simp] theorem State.modPort_floors (s : State) (p : Port) (f : PortRec → PortRec) :
    (s.modPort p f).floors = s.floors :=
  rfl

@[simp] theorem State.modPort_poolFree (s : State) (p : Port) (f : PortRec → PortRec) :
    (s.modPort p f).poolFree = s.poolFree :=
  rfl

@[simp] theorem State.modPort_stampCounter (s : State) (p : Port) (f : PortRec → PortRec) :
    (s.modPort p f).stampCounter = s.stampCounter :=
  rfl

@[simp] theorem State.modPort_booths (s : State) (p : Port) (f : PortRec → PortRec) :
    (s.modPort p f).booths = s.booths :=
  rfl

@[simp] theorem State.modPort_slotMaps (s : State) (p : Port) (f : PortRec → PortRec) :
    (s.modPort p f).slotMaps = s.slotMaps :=
  rfl

@[simp] theorem State.modPort_mixes (s : State) (p : Port) (f : PortRec → PortRec) :
    (s.modPort p f).mixes = s.mixes :=
  rfl

@[simp] theorem State.modPort_releaseCounter (s : State) (p : Port) (f : PortRec → PortRec) :
    (s.modPort p f).releaseCounter = s.releaseCounter :=
  rfl

@[simp] theorem State.modPort_paGains (s : State) (p : Port) (f : PortRec → PortRec) :
    (s.modPort p f).paGains = s.paGains :=
  rfl

@[simp] theorem State.modPort_taps (s : State) (p : Port) (f : PortRec → PortRec) :
    (s.modPort p f).taps = s.taps :=
  rfl

@[simp] theorem State.modPort_ports (s : State) (p : Port) (f : PortRec → PortRec) :
    (s.modPort p f).ports = s.ports.modify p f :=
  rfl

@[simp] theorem State.modPort_signals (s : State) (p : Port) (f : PortRec → PortRec) :
    (s.modPort p f).signals = s.signals :=
  rfl

@[simp] theorem State.modPort_listen (s : State) (p : Port) (f : PortRec → PortRec) :
    (s.modPort p f).listen = s.listen :=
  rfl

@[simp] theorem State.modPort_paOut (s : State) (p : Port) (f : PortRec → PortRec) :
    (s.modPort p f).paOut = s.paOut :=
  rfl

@[simp] theorem State.modPort_tapOut (s : State) (p : Port) (f : PortRec → PortRec) :
    (s.modPort p f).tapOut = s.tapOut :=
  rfl

@[simp] theorem State.modPort_downlinks (s : State) (p : Port) (f : PortRec → PortRec) :
    (s.modPort p f).downlinks = s.downlinks :=
  rfl

/-! ### modWall -/

@[simp] theorem State.modWall_pending (s : State) (w : WallId) (f : Wall → Wall) :
    (s.modWall w f).pending = s.pending :=
  rfl

@[simp] theorem State.modWall_held (s : State) (w : WallId) (f : Wall → Wall) :
    (s.modWall w f).held = s.held :=
  rfl

@[simp] theorem State.modWall_clock (s : State) (w : WallId) (f : Wall → Wall) :
    (s.modWall w f).clock = s.clock :=
  rfl

@[simp] theorem State.modWall_edgeSeen (s : State) (w : WallId) (f : Wall → Wall) :
    (s.modWall w f).edgeSeen = s.edgeSeen :=
  rfl

@[simp] theorem State.modWall_settleAtFrame (s : State) (w : WallId) (f : Wall → Wall) :
    (s.modWall w f).settleAtFrame = s.settleAtFrame :=
  rfl

@[simp] theorem State.modWall_walls (s : State) (w : WallId) (f : Wall → Wall) :
    (s.modWall w f).walls = s.walls.modify w f :=
  rfl

@[simp] theorem State.modWall_hall (s : State) (w : WallId) (f : Wall → Wall) :
    (s.modWall w f).hall = s.hall :=
  rfl

@[simp] theorem State.modWall_profiles (s : State) (w : WallId) (f : Wall → Wall) :
    (s.modWall w f).profiles = s.profiles :=
  rfl

@[simp] theorem State.modWall_rooms (s : State) (w : WallId) (f : Wall → Wall) :
    (s.modWall w f).rooms = s.rooms :=
  rfl

@[simp] theorem State.modWall_repartition (s : State) (w : WallId) (f : Wall → Wall) :
    (s.modWall w f).repartition = s.repartition :=
  rfl

@[simp] theorem State.modWall_trunks (s : State) (w : WallId) (f : Wall → Wall) :
    (s.modWall w f).trunks = s.trunks :=
  rfl

@[simp] theorem State.modWall_seats (s : State) (w : WallId) (f : Wall → Wall) :
    (s.modWall w f).seats = s.seats :=
  rfl

@[simp] theorem State.modWall_floors (s : State) (w : WallId) (f : Wall → Wall) :
    (s.modWall w f).floors = s.floors :=
  rfl

@[simp] theorem State.modWall_poolFree (s : State) (w : WallId) (f : Wall → Wall) :
    (s.modWall w f).poolFree = s.poolFree :=
  rfl

@[simp] theorem State.modWall_stampCounter (s : State) (w : WallId) (f : Wall → Wall) :
    (s.modWall w f).stampCounter = s.stampCounter :=
  rfl

@[simp] theorem State.modWall_booths (s : State) (w : WallId) (f : Wall → Wall) :
    (s.modWall w f).booths = s.booths :=
  rfl

@[simp] theorem State.modWall_slotMaps (s : State) (w : WallId) (f : Wall → Wall) :
    (s.modWall w f).slotMaps = s.slotMaps :=
  rfl

@[simp] theorem State.modWall_mixes (s : State) (w : WallId) (f : Wall → Wall) :
    (s.modWall w f).mixes = s.mixes :=
  rfl

@[simp] theorem State.modWall_releaseCounter (s : State) (w : WallId) (f : Wall → Wall) :
    (s.modWall w f).releaseCounter = s.releaseCounter :=
  rfl

@[simp] theorem State.modWall_paGains (s : State) (w : WallId) (f : Wall → Wall) :
    (s.modWall w f).paGains = s.paGains :=
  rfl

@[simp] theorem State.modWall_taps (s : State) (w : WallId) (f : Wall → Wall) :
    (s.modWall w f).taps = s.taps :=
  rfl

@[simp] theorem State.modWall_ports (s : State) (w : WallId) (f : Wall → Wall) :
    (s.modWall w f).ports = s.ports :=
  rfl

@[simp] theorem State.modWall_signals (s : State) (w : WallId) (f : Wall → Wall) :
    (s.modWall w f).signals = s.signals :=
  rfl

@[simp] theorem State.modWall_listen (s : State) (w : WallId) (f : Wall → Wall) :
    (s.modWall w f).listen = s.listen :=
  rfl

@[simp] theorem State.modWall_paOut (s : State) (w : WallId) (f : Wall → Wall) :
    (s.modWall w f).paOut = s.paOut :=
  rfl

@[simp] theorem State.modWall_tapOut (s : State) (w : WallId) (f : Wall → Wall) :
    (s.modWall w f).tapOut = s.tapOut :=
  rfl

@[simp] theorem State.modWall_downlinks (s : State) (w : WallId) (f : Wall → Wall) :
    (s.modWall w f).downlinks = s.downlinks :=
  rfl

/-! ### setWalls -/

@[simp] theorem State.setWalls_pending (s : State) (walls : Tab 7 Wall) :
    (s.setWalls walls).pending = s.pending :=
  rfl

@[simp] theorem State.setWalls_held (s : State) (walls : Tab 7 Wall) :
    (s.setWalls walls).held = s.held :=
  rfl

@[simp] theorem State.setWalls_clock (s : State) (walls : Tab 7 Wall) :
    (s.setWalls walls).clock = s.clock :=
  rfl

@[simp] theorem State.setWalls_edgeSeen (s : State) (walls : Tab 7 Wall) :
    (s.setWalls walls).edgeSeen = s.edgeSeen :=
  rfl

@[simp] theorem State.setWalls_settleAtFrame (s : State) (walls : Tab 7 Wall) :
    (s.setWalls walls).settleAtFrame = s.settleAtFrame :=
  rfl

@[simp] theorem State.setWalls_walls (s : State) (walls : Tab 7 Wall) :
    (s.setWalls walls).walls = walls :=
  rfl

@[simp] theorem State.setWalls_hall (s : State) (walls : Tab 7 Wall) :
    (s.setWalls walls).hall = s.hall :=
  rfl

@[simp] theorem State.setWalls_profiles (s : State) (walls : Tab 7 Wall) :
    (s.setWalls walls).profiles = s.profiles :=
  rfl

@[simp] theorem State.setWalls_rooms (s : State) (walls : Tab 7 Wall) :
    (s.setWalls walls).rooms = s.rooms :=
  rfl

@[simp] theorem State.setWalls_repartition (s : State) (walls : Tab 7 Wall) :
    (s.setWalls walls).repartition = s.repartition :=
  rfl

@[simp] theorem State.setWalls_trunks (s : State) (walls : Tab 7 Wall) :
    (s.setWalls walls).trunks = s.trunks :=
  rfl

@[simp] theorem State.setWalls_seats (s : State) (walls : Tab 7 Wall) :
    (s.setWalls walls).seats = s.seats :=
  rfl

@[simp] theorem State.setWalls_floors (s : State) (walls : Tab 7 Wall) :
    (s.setWalls walls).floors = s.floors :=
  rfl

@[simp] theorem State.setWalls_poolFree (s : State) (walls : Tab 7 Wall) :
    (s.setWalls walls).poolFree = s.poolFree :=
  rfl

@[simp] theorem State.setWalls_stampCounter (s : State) (walls : Tab 7 Wall) :
    (s.setWalls walls).stampCounter = s.stampCounter :=
  rfl

@[simp] theorem State.setWalls_booths (s : State) (walls : Tab 7 Wall) :
    (s.setWalls walls).booths = s.booths :=
  rfl

@[simp] theorem State.setWalls_slotMaps (s : State) (walls : Tab 7 Wall) :
    (s.setWalls walls).slotMaps = s.slotMaps :=
  rfl

@[simp] theorem State.setWalls_mixes (s : State) (walls : Tab 7 Wall) :
    (s.setWalls walls).mixes = s.mixes :=
  rfl

@[simp] theorem State.setWalls_releaseCounter (s : State) (walls : Tab 7 Wall) :
    (s.setWalls walls).releaseCounter = s.releaseCounter :=
  rfl

@[simp] theorem State.setWalls_paGains (s : State) (walls : Tab 7 Wall) :
    (s.setWalls walls).paGains = s.paGains :=
  rfl

@[simp] theorem State.setWalls_taps (s : State) (walls : Tab 7 Wall) :
    (s.setWalls walls).taps = s.taps :=
  rfl

@[simp] theorem State.setWalls_ports (s : State) (walls : Tab 7 Wall) :
    (s.setWalls walls).ports = s.ports :=
  rfl

@[simp] theorem State.setWalls_signals (s : State) (walls : Tab 7 Wall) :
    (s.setWalls walls).signals = s.signals :=
  rfl

@[simp] theorem State.setWalls_listen (s : State) (walls : Tab 7 Wall) :
    (s.setWalls walls).listen = s.listen :=
  rfl

@[simp] theorem State.setWalls_paOut (s : State) (walls : Tab 7 Wall) :
    (s.setWalls walls).paOut = s.paOut :=
  rfl

@[simp] theorem State.setWalls_tapOut (s : State) (walls : Tab 7 Wall) :
    (s.setWalls walls).tapOut = s.tapOut :=
  rfl

@[simp] theorem State.setWalls_downlinks (s : State) (walls : Tab 7 Wall) :
    (s.setWalls walls).downlinks = s.downlinks :=
  rfl

/-! ### setRooms -/

@[simp] theorem State.setRooms_pending (s : State) (rooms : Tab 6 (Option Room)) :
    (s.setRooms rooms).pending = s.pending :=
  rfl

@[simp] theorem State.setRooms_held (s : State) (rooms : Tab 6 (Option Room)) :
    (s.setRooms rooms).held = s.held :=
  rfl

@[simp] theorem State.setRooms_clock (s : State) (rooms : Tab 6 (Option Room)) :
    (s.setRooms rooms).clock = s.clock :=
  rfl

@[simp] theorem State.setRooms_edgeSeen (s : State) (rooms : Tab 6 (Option Room)) :
    (s.setRooms rooms).edgeSeen = s.edgeSeen :=
  rfl

@[simp] theorem State.setRooms_settleAtFrame (s : State) (rooms : Tab 6 (Option Room)) :
    (s.setRooms rooms).settleAtFrame = s.settleAtFrame :=
  rfl

@[simp] theorem State.setRooms_walls (s : State) (rooms : Tab 6 (Option Room)) :
    (s.setRooms rooms).walls = s.walls :=
  rfl

@[simp] theorem State.setRooms_hall (s : State) (rooms : Tab 6 (Option Room)) :
    (s.setRooms rooms).hall = s.hall :=
  rfl

@[simp] theorem State.setRooms_profiles (s : State) (rooms : Tab 6 (Option Room)) :
    (s.setRooms rooms).profiles = s.profiles :=
  rfl

@[simp] theorem State.setRooms_rooms (s : State) (rooms : Tab 6 (Option Room)) :
    (s.setRooms rooms).rooms = rooms :=
  rfl

@[simp] theorem State.setRooms_repartition (s : State) (rooms : Tab 6 (Option Room)) :
    (s.setRooms rooms).repartition = s.repartition :=
  rfl

@[simp] theorem State.setRooms_trunks (s : State) (rooms : Tab 6 (Option Room)) :
    (s.setRooms rooms).trunks = s.trunks :=
  rfl

@[simp] theorem State.setRooms_seats (s : State) (rooms : Tab 6 (Option Room)) :
    (s.setRooms rooms).seats = s.seats :=
  rfl

@[simp] theorem State.setRooms_floors (s : State) (rooms : Tab 6 (Option Room)) :
    (s.setRooms rooms).floors = s.floors :=
  rfl

@[simp] theorem State.setRooms_poolFree (s : State) (rooms : Tab 6 (Option Room)) :
    (s.setRooms rooms).poolFree = s.poolFree :=
  rfl

@[simp] theorem State.setRooms_stampCounter (s : State) (rooms : Tab 6 (Option Room)) :
    (s.setRooms rooms).stampCounter = s.stampCounter :=
  rfl

@[simp] theorem State.setRooms_booths (s : State) (rooms : Tab 6 (Option Room)) :
    (s.setRooms rooms).booths = s.booths :=
  rfl

@[simp] theorem State.setRooms_slotMaps (s : State) (rooms : Tab 6 (Option Room)) :
    (s.setRooms rooms).slotMaps = s.slotMaps :=
  rfl

@[simp] theorem State.setRooms_mixes (s : State) (rooms : Tab 6 (Option Room)) :
    (s.setRooms rooms).mixes = s.mixes :=
  rfl

@[simp] theorem State.setRooms_releaseCounter (s : State) (rooms : Tab 6 (Option Room)) :
    (s.setRooms rooms).releaseCounter = s.releaseCounter :=
  rfl

@[simp] theorem State.setRooms_paGains (s : State) (rooms : Tab 6 (Option Room)) :
    (s.setRooms rooms).paGains = s.paGains :=
  rfl

@[simp] theorem State.setRooms_taps (s : State) (rooms : Tab 6 (Option Room)) :
    (s.setRooms rooms).taps = s.taps :=
  rfl

@[simp] theorem State.setRooms_ports (s : State) (rooms : Tab 6 (Option Room)) :
    (s.setRooms rooms).ports = s.ports :=
  rfl

@[simp] theorem State.setRooms_signals (s : State) (rooms : Tab 6 (Option Room)) :
    (s.setRooms rooms).signals = s.signals :=
  rfl

@[simp] theorem State.setRooms_listen (s : State) (rooms : Tab 6 (Option Room)) :
    (s.setRooms rooms).listen = s.listen :=
  rfl

@[simp] theorem State.setRooms_paOut (s : State) (rooms : Tab 6 (Option Room)) :
    (s.setRooms rooms).paOut = s.paOut :=
  rfl

@[simp] theorem State.setRooms_tapOut (s : State) (rooms : Tab 6 (Option Room)) :
    (s.setRooms rooms).tapOut = s.tapOut :=
  rfl

@[simp] theorem State.setRooms_downlinks (s : State) (rooms : Tab 6 (Option Room)) :
    (s.setRooms rooms).downlinks = s.downlinks :=
  rfl

/-! ### setRepartition -/

@[simp] theorem State.setRepartition_pending (s : State) (r : Option Repartition) :
    (s.setRepartition r).pending = s.pending :=
  rfl

@[simp] theorem State.setRepartition_held (s : State) (r : Option Repartition) :
    (s.setRepartition r).held = s.held :=
  rfl

@[simp] theorem State.setRepartition_clock (s : State) (r : Option Repartition) :
    (s.setRepartition r).clock = s.clock :=
  rfl

@[simp] theorem State.setRepartition_edgeSeen (s : State) (r : Option Repartition) :
    (s.setRepartition r).edgeSeen = s.edgeSeen :=
  rfl

@[simp] theorem State.setRepartition_settleAtFrame (s : State) (r : Option Repartition) :
    (s.setRepartition r).settleAtFrame = s.settleAtFrame :=
  rfl

@[simp] theorem State.setRepartition_walls (s : State) (r : Option Repartition) :
    (s.setRepartition r).walls = s.walls :=
  rfl

@[simp] theorem State.setRepartition_hall (s : State) (r : Option Repartition) :
    (s.setRepartition r).hall = s.hall :=
  rfl

@[simp] theorem State.setRepartition_profiles (s : State) (r : Option Repartition) :
    (s.setRepartition r).profiles = s.profiles :=
  rfl

@[simp] theorem State.setRepartition_rooms (s : State) (r : Option Repartition) :
    (s.setRepartition r).rooms = s.rooms :=
  rfl

@[simp] theorem State.setRepartition_repartition (s : State) (r : Option Repartition) :
    (s.setRepartition r).repartition = r :=
  rfl

@[simp] theorem State.setRepartition_trunks (s : State) (r : Option Repartition) :
    (s.setRepartition r).trunks = s.trunks :=
  rfl

@[simp] theorem State.setRepartition_seats (s : State) (r : Option Repartition) :
    (s.setRepartition r).seats = s.seats :=
  rfl

@[simp] theorem State.setRepartition_floors (s : State) (r : Option Repartition) :
    (s.setRepartition r).floors = s.floors :=
  rfl

@[simp] theorem State.setRepartition_poolFree (s : State) (r : Option Repartition) :
    (s.setRepartition r).poolFree = s.poolFree :=
  rfl

@[simp] theorem State.setRepartition_stampCounter (s : State) (r : Option Repartition) :
    (s.setRepartition r).stampCounter = s.stampCounter :=
  rfl

@[simp] theorem State.setRepartition_booths (s : State) (r : Option Repartition) :
    (s.setRepartition r).booths = s.booths :=
  rfl

@[simp] theorem State.setRepartition_slotMaps (s : State) (r : Option Repartition) :
    (s.setRepartition r).slotMaps = s.slotMaps :=
  rfl

@[simp] theorem State.setRepartition_mixes (s : State) (r : Option Repartition) :
    (s.setRepartition r).mixes = s.mixes :=
  rfl

@[simp] theorem State.setRepartition_releaseCounter (s : State) (r : Option Repartition) :
    (s.setRepartition r).releaseCounter = s.releaseCounter :=
  rfl

@[simp] theorem State.setRepartition_paGains (s : State) (r : Option Repartition) :
    (s.setRepartition r).paGains = s.paGains :=
  rfl

@[simp] theorem State.setRepartition_taps (s : State) (r : Option Repartition) :
    (s.setRepartition r).taps = s.taps :=
  rfl

@[simp] theorem State.setRepartition_ports (s : State) (r : Option Repartition) :
    (s.setRepartition r).ports = s.ports :=
  rfl

@[simp] theorem State.setRepartition_signals (s : State) (r : Option Repartition) :
    (s.setRepartition r).signals = s.signals :=
  rfl

@[simp] theorem State.setRepartition_listen (s : State) (r : Option Repartition) :
    (s.setRepartition r).listen = s.listen :=
  rfl

@[simp] theorem State.setRepartition_paOut (s : State) (r : Option Repartition) :
    (s.setRepartition r).paOut = s.paOut :=
  rfl

@[simp] theorem State.setRepartition_tapOut (s : State) (r : Option Repartition) :
    (s.setRepartition r).tapOut = s.tapOut :=
  rfl

@[simp] theorem State.setRepartition_downlinks (s : State) (r : Option Repartition) :
    (s.setRepartition r).downlinks = s.downlinks :=
  rfl

/-! ### setHallSettings -/

@[simp] theorem State.setHallSettings_pending (s : State) (h : HallSettings) :
    (s.setHallSettings h).pending = s.pending :=
  rfl

@[simp] theorem State.setHallSettings_held (s : State) (h : HallSettings) :
    (s.setHallSettings h).held = s.held :=
  rfl

@[simp] theorem State.setHallSettings_clock (s : State) (h : HallSettings) :
    (s.setHallSettings h).clock = s.clock :=
  rfl

@[simp] theorem State.setHallSettings_edgeSeen (s : State) (h : HallSettings) :
    (s.setHallSettings h).edgeSeen = s.edgeSeen :=
  rfl

@[simp] theorem State.setHallSettings_settleAtFrame (s : State) (h : HallSettings) :
    (s.setHallSettings h).settleAtFrame = s.settleAtFrame :=
  rfl

@[simp] theorem State.setHallSettings_walls (s : State) (h : HallSettings) :
    (s.setHallSettings h).walls = s.walls :=
  rfl

@[simp] theorem State.setHallSettings_hall (s : State) (h : HallSettings) :
    (s.setHallSettings h).hall = h :=
  rfl

@[simp] theorem State.setHallSettings_profiles (s : State) (h : HallSettings) :
    (s.setHallSettings h).profiles = s.profiles :=
  rfl

@[simp] theorem State.setHallSettings_rooms (s : State) (h : HallSettings) :
    (s.setHallSettings h).rooms = s.rooms :=
  rfl

@[simp] theorem State.setHallSettings_repartition (s : State) (h : HallSettings) :
    (s.setHallSettings h).repartition = s.repartition :=
  rfl

@[simp] theorem State.setHallSettings_trunks (s : State) (h : HallSettings) :
    (s.setHallSettings h).trunks = s.trunks :=
  rfl

@[simp] theorem State.setHallSettings_seats (s : State) (h : HallSettings) :
    (s.setHallSettings h).seats = s.seats :=
  rfl

@[simp] theorem State.setHallSettings_floors (s : State) (h : HallSettings) :
    (s.setHallSettings h).floors = s.floors :=
  rfl

@[simp] theorem State.setHallSettings_poolFree (s : State) (h : HallSettings) :
    (s.setHallSettings h).poolFree = s.poolFree :=
  rfl

@[simp] theorem State.setHallSettings_stampCounter (s : State) (h : HallSettings) :
    (s.setHallSettings h).stampCounter = s.stampCounter :=
  rfl

@[simp] theorem State.setHallSettings_booths (s : State) (h : HallSettings) :
    (s.setHallSettings h).booths = s.booths :=
  rfl

@[simp] theorem State.setHallSettings_slotMaps (s : State) (h : HallSettings) :
    (s.setHallSettings h).slotMaps = s.slotMaps :=
  rfl

@[simp] theorem State.setHallSettings_mixes (s : State) (h : HallSettings) :
    (s.setHallSettings h).mixes = s.mixes :=
  rfl

@[simp] theorem State.setHallSettings_releaseCounter (s : State) (h : HallSettings) :
    (s.setHallSettings h).releaseCounter = s.releaseCounter :=
  rfl

@[simp] theorem State.setHallSettings_paGains (s : State) (h : HallSettings) :
    (s.setHallSettings h).paGains = s.paGains :=
  rfl

@[simp] theorem State.setHallSettings_taps (s : State) (h : HallSettings) :
    (s.setHallSettings h).taps = s.taps :=
  rfl

@[simp] theorem State.setHallSettings_ports (s : State) (h : HallSettings) :
    (s.setHallSettings h).ports = s.ports :=
  rfl

@[simp] theorem State.setHallSettings_signals (s : State) (h : HallSettings) :
    (s.setHallSettings h).signals = s.signals :=
  rfl

@[simp] theorem State.setHallSettings_listen (s : State) (h : HallSettings) :
    (s.setHallSettings h).listen = s.listen :=
  rfl

@[simp] theorem State.setHallSettings_paOut (s : State) (h : HallSettings) :
    (s.setHallSettings h).paOut = s.paOut :=
  rfl

@[simp] theorem State.setHallSettings_tapOut (s : State) (h : HallSettings) :
    (s.setHallSettings h).tapOut = s.tapOut :=
  rfl

@[simp] theorem State.setHallSettings_downlinks (s : State) (h : HallSettings) :
    (s.setHallSettings h).downlinks = s.downlinks :=
  rfl

/-! ### setProfileOf -/

@[simp] theorem State.setProfileOf_pending (s : State) (g : Segment) (p : Profile) :
    (s.setProfileOf g p).pending = s.pending :=
  rfl

@[simp] theorem State.setProfileOf_held (s : State) (g : Segment) (p : Profile) :
    (s.setProfileOf g p).held = s.held :=
  rfl

@[simp] theorem State.setProfileOf_clock (s : State) (g : Segment) (p : Profile) :
    (s.setProfileOf g p).clock = s.clock :=
  rfl

@[simp] theorem State.setProfileOf_edgeSeen (s : State) (g : Segment) (p : Profile) :
    (s.setProfileOf g p).edgeSeen = s.edgeSeen :=
  rfl

@[simp] theorem State.setProfileOf_settleAtFrame (s : State) (g : Segment) (p : Profile) :
    (s.setProfileOf g p).settleAtFrame = s.settleAtFrame :=
  rfl

@[simp] theorem State.setProfileOf_walls (s : State) (g : Segment) (p : Profile) :
    (s.setProfileOf g p).walls = s.walls :=
  rfl

@[simp] theorem State.setProfileOf_hall (s : State) (g : Segment) (p : Profile) :
    (s.setProfileOf g p).hall = s.hall :=
  rfl

@[simp] theorem State.setProfileOf_profiles (s : State) (g : Segment) (p : Profile) :
    (s.setProfileOf g p).profiles = s.profiles.set g p :=
  rfl

@[simp] theorem State.setProfileOf_rooms (s : State) (g : Segment) (p : Profile) :
    (s.setProfileOf g p).rooms = s.rooms :=
  rfl

@[simp] theorem State.setProfileOf_repartition (s : State) (g : Segment) (p : Profile) :
    (s.setProfileOf g p).repartition = s.repartition :=
  rfl

@[simp] theorem State.setProfileOf_trunks (s : State) (g : Segment) (p : Profile) :
    (s.setProfileOf g p).trunks = s.trunks :=
  rfl

@[simp] theorem State.setProfileOf_seats (s : State) (g : Segment) (p : Profile) :
    (s.setProfileOf g p).seats = s.seats :=
  rfl

@[simp] theorem State.setProfileOf_floors (s : State) (g : Segment) (p : Profile) :
    (s.setProfileOf g p).floors = s.floors :=
  rfl

@[simp] theorem State.setProfileOf_poolFree (s : State) (g : Segment) (p : Profile) :
    (s.setProfileOf g p).poolFree = s.poolFree :=
  rfl

@[simp] theorem State.setProfileOf_stampCounter (s : State) (g : Segment) (p : Profile) :
    (s.setProfileOf g p).stampCounter = s.stampCounter :=
  rfl

@[simp] theorem State.setProfileOf_booths (s : State) (g : Segment) (p : Profile) :
    (s.setProfileOf g p).booths = s.booths :=
  rfl

@[simp] theorem State.setProfileOf_slotMaps (s : State) (g : Segment) (p : Profile) :
    (s.setProfileOf g p).slotMaps = s.slotMaps :=
  rfl

@[simp] theorem State.setProfileOf_mixes (s : State) (g : Segment) (p : Profile) :
    (s.setProfileOf g p).mixes = s.mixes :=
  rfl

@[simp] theorem State.setProfileOf_releaseCounter (s : State) (g : Segment) (p : Profile) :
    (s.setProfileOf g p).releaseCounter = s.releaseCounter :=
  rfl

@[simp] theorem State.setProfileOf_paGains (s : State) (g : Segment) (p : Profile) :
    (s.setProfileOf g p).paGains = s.paGains :=
  rfl

@[simp] theorem State.setProfileOf_taps (s : State) (g : Segment) (p : Profile) :
    (s.setProfileOf g p).taps = s.taps :=
  rfl

@[simp] theorem State.setProfileOf_ports (s : State) (g : Segment) (p : Profile) :
    (s.setProfileOf g p).ports = s.ports :=
  rfl

@[simp] theorem State.setProfileOf_signals (s : State) (g : Segment) (p : Profile) :
    (s.setProfileOf g p).signals = s.signals :=
  rfl

@[simp] theorem State.setProfileOf_listen (s : State) (g : Segment) (p : Profile) :
    (s.setProfileOf g p).listen = s.listen :=
  rfl

@[simp] theorem State.setProfileOf_paOut (s : State) (g : Segment) (p : Profile) :
    (s.setProfileOf g p).paOut = s.paOut :=
  rfl

@[simp] theorem State.setProfileOf_tapOut (s : State) (g : Segment) (p : Profile) :
    (s.setProfileOf g p).tapOut = s.tapOut :=
  rfl

@[simp] theorem State.setProfileOf_downlinks (s : State) (g : Segment) (p : Profile) :
    (s.setProfileOf g p).downlinks = s.downlinks :=
  rfl

/-! ### modTrunk -/

@[simp] theorem State.modTrunk_pending (s : State) (t : TrunkId) (f : Trunk → Trunk) :
    (s.modTrunk t f).pending = s.pending :=
  rfl

@[simp] theorem State.modTrunk_held (s : State) (t : TrunkId) (f : Trunk → Trunk) :
    (s.modTrunk t f).held = s.held :=
  rfl

@[simp] theorem State.modTrunk_clock (s : State) (t : TrunkId) (f : Trunk → Trunk) :
    (s.modTrunk t f).clock = s.clock :=
  rfl

@[simp] theorem State.modTrunk_edgeSeen (s : State) (t : TrunkId) (f : Trunk → Trunk) :
    (s.modTrunk t f).edgeSeen = s.edgeSeen :=
  rfl

@[simp] theorem State.modTrunk_settleAtFrame (s : State) (t : TrunkId) (f : Trunk → Trunk) :
    (s.modTrunk t f).settleAtFrame = s.settleAtFrame :=
  rfl

@[simp] theorem State.modTrunk_walls (s : State) (t : TrunkId) (f : Trunk → Trunk) :
    (s.modTrunk t f).walls = s.walls :=
  rfl

@[simp] theorem State.modTrunk_hall (s : State) (t : TrunkId) (f : Trunk → Trunk) :
    (s.modTrunk t f).hall = s.hall :=
  rfl

@[simp] theorem State.modTrunk_profiles (s : State) (t : TrunkId) (f : Trunk → Trunk) :
    (s.modTrunk t f).profiles = s.profiles :=
  rfl

@[simp] theorem State.modTrunk_rooms (s : State) (t : TrunkId) (f : Trunk → Trunk) :
    (s.modTrunk t f).rooms = s.rooms :=
  rfl

@[simp] theorem State.modTrunk_repartition (s : State) (t : TrunkId) (f : Trunk → Trunk) :
    (s.modTrunk t f).repartition = s.repartition :=
  rfl

@[simp] theorem State.modTrunk_trunks (s : State) (t : TrunkId) (f : Trunk → Trunk) :
    (s.modTrunk t f).trunks = s.trunks.modify t f :=
  rfl

@[simp] theorem State.modTrunk_seats (s : State) (t : TrunkId) (f : Trunk → Trunk) :
    (s.modTrunk t f).seats = s.seats :=
  rfl

@[simp] theorem State.modTrunk_floors (s : State) (t : TrunkId) (f : Trunk → Trunk) :
    (s.modTrunk t f).floors = s.floors :=
  rfl

@[simp] theorem State.modTrunk_poolFree (s : State) (t : TrunkId) (f : Trunk → Trunk) :
    (s.modTrunk t f).poolFree = s.poolFree :=
  rfl

@[simp] theorem State.modTrunk_stampCounter (s : State) (t : TrunkId) (f : Trunk → Trunk) :
    (s.modTrunk t f).stampCounter = s.stampCounter :=
  rfl

@[simp] theorem State.modTrunk_booths (s : State) (t : TrunkId) (f : Trunk → Trunk) :
    (s.modTrunk t f).booths = s.booths :=
  rfl

@[simp] theorem State.modTrunk_slotMaps (s : State) (t : TrunkId) (f : Trunk → Trunk) :
    (s.modTrunk t f).slotMaps = s.slotMaps :=
  rfl

@[simp] theorem State.modTrunk_mixes (s : State) (t : TrunkId) (f : Trunk → Trunk) :
    (s.modTrunk t f).mixes = s.mixes :=
  rfl

@[simp] theorem State.modTrunk_releaseCounter (s : State) (t : TrunkId) (f : Trunk → Trunk) :
    (s.modTrunk t f).releaseCounter = s.releaseCounter :=
  rfl

@[simp] theorem State.modTrunk_paGains (s : State) (t : TrunkId) (f : Trunk → Trunk) :
    (s.modTrunk t f).paGains = s.paGains :=
  rfl

@[simp] theorem State.modTrunk_taps (s : State) (t : TrunkId) (f : Trunk → Trunk) :
    (s.modTrunk t f).taps = s.taps :=
  rfl

@[simp] theorem State.modTrunk_ports (s : State) (t : TrunkId) (f : Trunk → Trunk) :
    (s.modTrunk t f).ports = s.ports :=
  rfl

@[simp] theorem State.modTrunk_signals (s : State) (t : TrunkId) (f : Trunk → Trunk) :
    (s.modTrunk t f).signals = s.signals :=
  rfl

@[simp] theorem State.modTrunk_listen (s : State) (t : TrunkId) (f : Trunk → Trunk) :
    (s.modTrunk t f).listen = s.listen :=
  rfl

@[simp] theorem State.modTrunk_paOut (s : State) (t : TrunkId) (f : Trunk → Trunk) :
    (s.modTrunk t f).paOut = s.paOut :=
  rfl

@[simp] theorem State.modTrunk_tapOut (s : State) (t : TrunkId) (f : Trunk → Trunk) :
    (s.modTrunk t f).tapOut = s.tapOut :=
  rfl

@[simp] theorem State.modTrunk_downlinks (s : State) (t : TrunkId) (f : Trunk → Trunk) :
    (s.modTrunk t f).downlinks = s.downlinks :=
  rfl

/-! ### modSeat -/

@[simp] theorem State.modSeat_pending (s : State) (i : SeatId) (f : Seat → Seat) :
    (s.modSeat i f).pending = s.pending :=
  rfl

@[simp] theorem State.modSeat_held (s : State) (i : SeatId) (f : Seat → Seat) :
    (s.modSeat i f).held = s.held :=
  rfl

@[simp] theorem State.modSeat_clock (s : State) (i : SeatId) (f : Seat → Seat) :
    (s.modSeat i f).clock = s.clock :=
  rfl

@[simp] theorem State.modSeat_edgeSeen (s : State) (i : SeatId) (f : Seat → Seat) :
    (s.modSeat i f).edgeSeen = s.edgeSeen :=
  rfl

@[simp] theorem State.modSeat_settleAtFrame (s : State) (i : SeatId) (f : Seat → Seat) :
    (s.modSeat i f).settleAtFrame = s.settleAtFrame :=
  rfl

@[simp] theorem State.modSeat_walls (s : State) (i : SeatId) (f : Seat → Seat) :
    (s.modSeat i f).walls = s.walls :=
  rfl

@[simp] theorem State.modSeat_hall (s : State) (i : SeatId) (f : Seat → Seat) :
    (s.modSeat i f).hall = s.hall :=
  rfl

@[simp] theorem State.modSeat_profiles (s : State) (i : SeatId) (f : Seat → Seat) :
    (s.modSeat i f).profiles = s.profiles :=
  rfl

@[simp] theorem State.modSeat_rooms (s : State) (i : SeatId) (f : Seat → Seat) :
    (s.modSeat i f).rooms = s.rooms :=
  rfl

@[simp] theorem State.modSeat_repartition (s : State) (i : SeatId) (f : Seat → Seat) :
    (s.modSeat i f).repartition = s.repartition :=
  rfl

@[simp] theorem State.modSeat_trunks (s : State) (i : SeatId) (f : Seat → Seat) :
    (s.modSeat i f).trunks = s.trunks :=
  rfl

@[simp] theorem State.modSeat_seats (s : State) (i : SeatId) (f : Seat → Seat) :
    (s.modSeat i f).seats = s.seats.modify i f :=
  rfl

@[simp] theorem State.modSeat_floors (s : State) (i : SeatId) (f : Seat → Seat) :
    (s.modSeat i f).floors = s.floors :=
  rfl

@[simp] theorem State.modSeat_poolFree (s : State) (i : SeatId) (f : Seat → Seat) :
    (s.modSeat i f).poolFree = s.poolFree :=
  rfl

@[simp] theorem State.modSeat_stampCounter (s : State) (i : SeatId) (f : Seat → Seat) :
    (s.modSeat i f).stampCounter = s.stampCounter :=
  rfl

@[simp] theorem State.modSeat_booths (s : State) (i : SeatId) (f : Seat → Seat) :
    (s.modSeat i f).booths = s.booths :=
  rfl

@[simp] theorem State.modSeat_slotMaps (s : State) (i : SeatId) (f : Seat → Seat) :
    (s.modSeat i f).slotMaps = s.slotMaps :=
  rfl

@[simp] theorem State.modSeat_mixes (s : State) (i : SeatId) (f : Seat → Seat) :
    (s.modSeat i f).mixes = s.mixes :=
  rfl

@[simp] theorem State.modSeat_releaseCounter (s : State) (i : SeatId) (f : Seat → Seat) :
    (s.modSeat i f).releaseCounter = s.releaseCounter :=
  rfl

@[simp] theorem State.modSeat_paGains (s : State) (i : SeatId) (f : Seat → Seat) :
    (s.modSeat i f).paGains = s.paGains :=
  rfl

@[simp] theorem State.modSeat_taps (s : State) (i : SeatId) (f : Seat → Seat) :
    (s.modSeat i f).taps = s.taps :=
  rfl

@[simp] theorem State.modSeat_ports (s : State) (i : SeatId) (f : Seat → Seat) :
    (s.modSeat i f).ports = s.ports :=
  rfl

@[simp] theorem State.modSeat_signals (s : State) (i : SeatId) (f : Seat → Seat) :
    (s.modSeat i f).signals = s.signals :=
  rfl

@[simp] theorem State.modSeat_listen (s : State) (i : SeatId) (f : Seat → Seat) :
    (s.modSeat i f).listen = s.listen :=
  rfl

@[simp] theorem State.modSeat_paOut (s : State) (i : SeatId) (f : Seat → Seat) :
    (s.modSeat i f).paOut = s.paOut :=
  rfl

@[simp] theorem State.modSeat_tapOut (s : State) (i : SeatId) (f : Seat → Seat) :
    (s.modSeat i f).tapOut = s.tapOut :=
  rfl

@[simp] theorem State.modSeat_downlinks (s : State) (i : SeatId) (f : Seat → Seat) :
    (s.modSeat i f).downlinks = s.downlinks :=
  rfl

/-! ### modFloor -/

@[simp] theorem State.modFloor_pending (s : State) (a : Segment) (f : Floor → Floor) :
    (s.modFloor a f).pending = s.pending :=
  rfl

@[simp] theorem State.modFloor_held (s : State) (a : Segment) (f : Floor → Floor) :
    (s.modFloor a f).held = s.held :=
  rfl

@[simp] theorem State.modFloor_clock (s : State) (a : Segment) (f : Floor → Floor) :
    (s.modFloor a f).clock = s.clock :=
  rfl

@[simp] theorem State.modFloor_edgeSeen (s : State) (a : Segment) (f : Floor → Floor) :
    (s.modFloor a f).edgeSeen = s.edgeSeen :=
  rfl

@[simp] theorem State.modFloor_settleAtFrame (s : State) (a : Segment) (f : Floor → Floor) :
    (s.modFloor a f).settleAtFrame = s.settleAtFrame :=
  rfl

@[simp] theorem State.modFloor_walls (s : State) (a : Segment) (f : Floor → Floor) :
    (s.modFloor a f).walls = s.walls :=
  rfl

@[simp] theorem State.modFloor_hall (s : State) (a : Segment) (f : Floor → Floor) :
    (s.modFloor a f).hall = s.hall :=
  rfl

@[simp] theorem State.modFloor_profiles (s : State) (a : Segment) (f : Floor → Floor) :
    (s.modFloor a f).profiles = s.profiles :=
  rfl

@[simp] theorem State.modFloor_rooms (s : State) (a : Segment) (f : Floor → Floor) :
    (s.modFloor a f).rooms = s.rooms :=
  rfl

@[simp] theorem State.modFloor_repartition (s : State) (a : Segment) (f : Floor → Floor) :
    (s.modFloor a f).repartition = s.repartition :=
  rfl

@[simp] theorem State.modFloor_trunks (s : State) (a : Segment) (f : Floor → Floor) :
    (s.modFloor a f).trunks = s.trunks :=
  rfl

@[simp] theorem State.modFloor_seats (s : State) (a : Segment) (f : Floor → Floor) :
    (s.modFloor a f).seats = s.seats :=
  rfl

@[simp] theorem State.modFloor_floors (s : State) (a : Segment) (f : Floor → Floor) :
    (s.modFloor a f).floors = s.floors.modify a f :=
  rfl

@[simp] theorem State.modFloor_poolFree (s : State) (a : Segment) (f : Floor → Floor) :
    (s.modFloor a f).poolFree = s.poolFree :=
  rfl

@[simp] theorem State.modFloor_stampCounter (s : State) (a : Segment) (f : Floor → Floor) :
    (s.modFloor a f).stampCounter = s.stampCounter :=
  rfl

@[simp] theorem State.modFloor_booths (s : State) (a : Segment) (f : Floor → Floor) :
    (s.modFloor a f).booths = s.booths :=
  rfl

@[simp] theorem State.modFloor_slotMaps (s : State) (a : Segment) (f : Floor → Floor) :
    (s.modFloor a f).slotMaps = s.slotMaps :=
  rfl

@[simp] theorem State.modFloor_mixes (s : State) (a : Segment) (f : Floor → Floor) :
    (s.modFloor a f).mixes = s.mixes :=
  rfl

@[simp] theorem State.modFloor_releaseCounter (s : State) (a : Segment) (f : Floor → Floor) :
    (s.modFloor a f).releaseCounter = s.releaseCounter :=
  rfl

@[simp] theorem State.modFloor_paGains (s : State) (a : Segment) (f : Floor → Floor) :
    (s.modFloor a f).paGains = s.paGains :=
  rfl

@[simp] theorem State.modFloor_taps (s : State) (a : Segment) (f : Floor → Floor) :
    (s.modFloor a f).taps = s.taps :=
  rfl

@[simp] theorem State.modFloor_ports (s : State) (a : Segment) (f : Floor → Floor) :
    (s.modFloor a f).ports = s.ports :=
  rfl

@[simp] theorem State.modFloor_signals (s : State) (a : Segment) (f : Floor → Floor) :
    (s.modFloor a f).signals = s.signals :=
  rfl

@[simp] theorem State.modFloor_listen (s : State) (a : Segment) (f : Floor → Floor) :
    (s.modFloor a f).listen = s.listen :=
  rfl

@[simp] theorem State.modFloor_paOut (s : State) (a : Segment) (f : Floor → Floor) :
    (s.modFloor a f).paOut = s.paOut :=
  rfl

@[simp] theorem State.modFloor_tapOut (s : State) (a : Segment) (f : Floor → Floor) :
    (s.modFloor a f).tapOut = s.tapOut :=
  rfl

@[simp] theorem State.modFloor_downlinks (s : State) (a : Segment) (f : Floor → Floor) :
    (s.modFloor a f).downlinks = s.downlinks :=
  rfl

/-! ### setFloors -/

@[simp] theorem State.setFloors_pending (s : State) (floors : Tab 6 Floor) :
    (s.setFloors floors).pending = s.pending :=
  rfl

@[simp] theorem State.setFloors_held (s : State) (floors : Tab 6 Floor) :
    (s.setFloors floors).held = s.held :=
  rfl

@[simp] theorem State.setFloors_clock (s : State) (floors : Tab 6 Floor) :
    (s.setFloors floors).clock = s.clock :=
  rfl

@[simp] theorem State.setFloors_edgeSeen (s : State) (floors : Tab 6 Floor) :
    (s.setFloors floors).edgeSeen = s.edgeSeen :=
  rfl

@[simp] theorem State.setFloors_settleAtFrame (s : State) (floors : Tab 6 Floor) :
    (s.setFloors floors).settleAtFrame = s.settleAtFrame :=
  rfl

@[simp] theorem State.setFloors_walls (s : State) (floors : Tab 6 Floor) :
    (s.setFloors floors).walls = s.walls :=
  rfl

@[simp] theorem State.setFloors_hall (s : State) (floors : Tab 6 Floor) :
    (s.setFloors floors).hall = s.hall :=
  rfl

@[simp] theorem State.setFloors_profiles (s : State) (floors : Tab 6 Floor) :
    (s.setFloors floors).profiles = s.profiles :=
  rfl

@[simp] theorem State.setFloors_rooms (s : State) (floors : Tab 6 Floor) :
    (s.setFloors floors).rooms = s.rooms :=
  rfl

@[simp] theorem State.setFloors_repartition (s : State) (floors : Tab 6 Floor) :
    (s.setFloors floors).repartition = s.repartition :=
  rfl

@[simp] theorem State.setFloors_trunks (s : State) (floors : Tab 6 Floor) :
    (s.setFloors floors).trunks = s.trunks :=
  rfl

@[simp] theorem State.setFloors_seats (s : State) (floors : Tab 6 Floor) :
    (s.setFloors floors).seats = s.seats :=
  rfl

@[simp] theorem State.setFloors_floors (s : State) (floors : Tab 6 Floor) :
    (s.setFloors floors).floors = floors :=
  rfl

@[simp] theorem State.setFloors_poolFree (s : State) (floors : Tab 6 Floor) :
    (s.setFloors floors).poolFree = s.poolFree :=
  rfl

@[simp] theorem State.setFloors_stampCounter (s : State) (floors : Tab 6 Floor) :
    (s.setFloors floors).stampCounter = s.stampCounter :=
  rfl

@[simp] theorem State.setFloors_booths (s : State) (floors : Tab 6 Floor) :
    (s.setFloors floors).booths = s.booths :=
  rfl

@[simp] theorem State.setFloors_slotMaps (s : State) (floors : Tab 6 Floor) :
    (s.setFloors floors).slotMaps = s.slotMaps :=
  rfl

@[simp] theorem State.setFloors_mixes (s : State) (floors : Tab 6 Floor) :
    (s.setFloors floors).mixes = s.mixes :=
  rfl

@[simp] theorem State.setFloors_releaseCounter (s : State) (floors : Tab 6 Floor) :
    (s.setFloors floors).releaseCounter = s.releaseCounter :=
  rfl

@[simp] theorem State.setFloors_paGains (s : State) (floors : Tab 6 Floor) :
    (s.setFloors floors).paGains = s.paGains :=
  rfl

@[simp] theorem State.setFloors_taps (s : State) (floors : Tab 6 Floor) :
    (s.setFloors floors).taps = s.taps :=
  rfl

@[simp] theorem State.setFloors_ports (s : State) (floors : Tab 6 Floor) :
    (s.setFloors floors).ports = s.ports :=
  rfl

@[simp] theorem State.setFloors_signals (s : State) (floors : Tab 6 Floor) :
    (s.setFloors floors).signals = s.signals :=
  rfl

@[simp] theorem State.setFloors_listen (s : State) (floors : Tab 6 Floor) :
    (s.setFloors floors).listen = s.listen :=
  rfl

@[simp] theorem State.setFloors_paOut (s : State) (floors : Tab 6 Floor) :
    (s.setFloors floors).paOut = s.paOut :=
  rfl

@[simp] theorem State.setFloors_tapOut (s : State) (floors : Tab 6 Floor) :
    (s.setFloors floors).tapOut = s.tapOut :=
  rfl

@[simp] theorem State.setFloors_downlinks (s : State) (floors : Tab 6 Floor) :
    (s.setFloors floors).downlinks = s.downlinks :=
  rfl

/-! ### setPoolFree -/

@[simp] theorem State.setPoolFree_pending (s : State) (n : Nat) :
    (s.setPoolFree n).pending = s.pending :=
  rfl

@[simp] theorem State.setPoolFree_held (s : State) (n : Nat) :
    (s.setPoolFree n).held = s.held :=
  rfl

@[simp] theorem State.setPoolFree_clock (s : State) (n : Nat) :
    (s.setPoolFree n).clock = s.clock :=
  rfl

@[simp] theorem State.setPoolFree_edgeSeen (s : State) (n : Nat) :
    (s.setPoolFree n).edgeSeen = s.edgeSeen :=
  rfl

@[simp] theorem State.setPoolFree_settleAtFrame (s : State) (n : Nat) :
    (s.setPoolFree n).settleAtFrame = s.settleAtFrame :=
  rfl

@[simp] theorem State.setPoolFree_walls (s : State) (n : Nat) :
    (s.setPoolFree n).walls = s.walls :=
  rfl

@[simp] theorem State.setPoolFree_hall (s : State) (n : Nat) :
    (s.setPoolFree n).hall = s.hall :=
  rfl

@[simp] theorem State.setPoolFree_profiles (s : State) (n : Nat) :
    (s.setPoolFree n).profiles = s.profiles :=
  rfl

@[simp] theorem State.setPoolFree_rooms (s : State) (n : Nat) :
    (s.setPoolFree n).rooms = s.rooms :=
  rfl

@[simp] theorem State.setPoolFree_repartition (s : State) (n : Nat) :
    (s.setPoolFree n).repartition = s.repartition :=
  rfl

@[simp] theorem State.setPoolFree_trunks (s : State) (n : Nat) :
    (s.setPoolFree n).trunks = s.trunks :=
  rfl

@[simp] theorem State.setPoolFree_seats (s : State) (n : Nat) :
    (s.setPoolFree n).seats = s.seats :=
  rfl

@[simp] theorem State.setPoolFree_floors (s : State) (n : Nat) :
    (s.setPoolFree n).floors = s.floors :=
  rfl

@[simp] theorem State.setPoolFree_poolFree (s : State) (n : Nat) :
    (s.setPoolFree n).poolFree = n :=
  rfl

@[simp] theorem State.setPoolFree_stampCounter (s : State) (n : Nat) :
    (s.setPoolFree n).stampCounter = s.stampCounter :=
  rfl

@[simp] theorem State.setPoolFree_booths (s : State) (n : Nat) :
    (s.setPoolFree n).booths = s.booths :=
  rfl

@[simp] theorem State.setPoolFree_slotMaps (s : State) (n : Nat) :
    (s.setPoolFree n).slotMaps = s.slotMaps :=
  rfl

@[simp] theorem State.setPoolFree_mixes (s : State) (n : Nat) :
    (s.setPoolFree n).mixes = s.mixes :=
  rfl

@[simp] theorem State.setPoolFree_releaseCounter (s : State) (n : Nat) :
    (s.setPoolFree n).releaseCounter = s.releaseCounter :=
  rfl

@[simp] theorem State.setPoolFree_paGains (s : State) (n : Nat) :
    (s.setPoolFree n).paGains = s.paGains :=
  rfl

@[simp] theorem State.setPoolFree_taps (s : State) (n : Nat) :
    (s.setPoolFree n).taps = s.taps :=
  rfl

@[simp] theorem State.setPoolFree_ports (s : State) (n : Nat) :
    (s.setPoolFree n).ports = s.ports :=
  rfl

@[simp] theorem State.setPoolFree_signals (s : State) (n : Nat) :
    (s.setPoolFree n).signals = s.signals :=
  rfl

@[simp] theorem State.setPoolFree_listen (s : State) (n : Nat) :
    (s.setPoolFree n).listen = s.listen :=
  rfl

@[simp] theorem State.setPoolFree_paOut (s : State) (n : Nat) :
    (s.setPoolFree n).paOut = s.paOut :=
  rfl

@[simp] theorem State.setPoolFree_tapOut (s : State) (n : Nat) :
    (s.setPoolFree n).tapOut = s.tapOut :=
  rfl

@[simp] theorem State.setPoolFree_downlinks (s : State) (n : Nat) :
    (s.setPoolFree n).downlinks = s.downlinks :=
  rfl

/-! ### setStampCounter -/

@[simp] theorem State.setStampCounter_pending (s : State) (c : Clock) :
    (s.setStampCounter c).pending = s.pending :=
  rfl

@[simp] theorem State.setStampCounter_held (s : State) (c : Clock) :
    (s.setStampCounter c).held = s.held :=
  rfl

@[simp] theorem State.setStampCounter_clock (s : State) (c : Clock) :
    (s.setStampCounter c).clock = s.clock :=
  rfl

@[simp] theorem State.setStampCounter_edgeSeen (s : State) (c : Clock) :
    (s.setStampCounter c).edgeSeen = s.edgeSeen :=
  rfl

@[simp] theorem State.setStampCounter_settleAtFrame (s : State) (c : Clock) :
    (s.setStampCounter c).settleAtFrame = s.settleAtFrame :=
  rfl

@[simp] theorem State.setStampCounter_walls (s : State) (c : Clock) :
    (s.setStampCounter c).walls = s.walls :=
  rfl

@[simp] theorem State.setStampCounter_hall (s : State) (c : Clock) :
    (s.setStampCounter c).hall = s.hall :=
  rfl

@[simp] theorem State.setStampCounter_profiles (s : State) (c : Clock) :
    (s.setStampCounter c).profiles = s.profiles :=
  rfl

@[simp] theorem State.setStampCounter_rooms (s : State) (c : Clock) :
    (s.setStampCounter c).rooms = s.rooms :=
  rfl

@[simp] theorem State.setStampCounter_repartition (s : State) (c : Clock) :
    (s.setStampCounter c).repartition = s.repartition :=
  rfl

@[simp] theorem State.setStampCounter_trunks (s : State) (c : Clock) :
    (s.setStampCounter c).trunks = s.trunks :=
  rfl

@[simp] theorem State.setStampCounter_seats (s : State) (c : Clock) :
    (s.setStampCounter c).seats = s.seats :=
  rfl

@[simp] theorem State.setStampCounter_floors (s : State) (c : Clock) :
    (s.setStampCounter c).floors = s.floors :=
  rfl

@[simp] theorem State.setStampCounter_poolFree (s : State) (c : Clock) :
    (s.setStampCounter c).poolFree = s.poolFree :=
  rfl

@[simp] theorem State.setStampCounter_stampCounter (s : State) (c : Clock) :
    (s.setStampCounter c).stampCounter = c :=
  rfl

@[simp] theorem State.setStampCounter_booths (s : State) (c : Clock) :
    (s.setStampCounter c).booths = s.booths :=
  rfl

@[simp] theorem State.setStampCounter_slotMaps (s : State) (c : Clock) :
    (s.setStampCounter c).slotMaps = s.slotMaps :=
  rfl

@[simp] theorem State.setStampCounter_mixes (s : State) (c : Clock) :
    (s.setStampCounter c).mixes = s.mixes :=
  rfl

@[simp] theorem State.setStampCounter_releaseCounter (s : State) (c : Clock) :
    (s.setStampCounter c).releaseCounter = s.releaseCounter :=
  rfl

@[simp] theorem State.setStampCounter_paGains (s : State) (c : Clock) :
    (s.setStampCounter c).paGains = s.paGains :=
  rfl

@[simp] theorem State.setStampCounter_taps (s : State) (c : Clock) :
    (s.setStampCounter c).taps = s.taps :=
  rfl

@[simp] theorem State.setStampCounter_ports (s : State) (c : Clock) :
    (s.setStampCounter c).ports = s.ports :=
  rfl

@[simp] theorem State.setStampCounter_signals (s : State) (c : Clock) :
    (s.setStampCounter c).signals = s.signals :=
  rfl

@[simp] theorem State.setStampCounter_listen (s : State) (c : Clock) :
    (s.setStampCounter c).listen = s.listen :=
  rfl

@[simp] theorem State.setStampCounter_paOut (s : State) (c : Clock) :
    (s.setStampCounter c).paOut = s.paOut :=
  rfl

@[simp] theorem State.setStampCounter_tapOut (s : State) (c : Clock) :
    (s.setStampCounter c).tapOut = s.tapOut :=
  rfl

@[simp] theorem State.setStampCounter_downlinks (s : State) (c : Clock) :
    (s.setStampCounter c).downlinks = s.downlinks :=
  rfl

/-! ### modBooth -/

@[simp] theorem State.modBooth_pending (s : State) (b : BoothId) (f : Booth → Booth) :
    (s.modBooth b f).pending = s.pending :=
  rfl

@[simp] theorem State.modBooth_held (s : State) (b : BoothId) (f : Booth → Booth) :
    (s.modBooth b f).held = s.held :=
  rfl

@[simp] theorem State.modBooth_clock (s : State) (b : BoothId) (f : Booth → Booth) :
    (s.modBooth b f).clock = s.clock :=
  rfl

@[simp] theorem State.modBooth_edgeSeen (s : State) (b : BoothId) (f : Booth → Booth) :
    (s.modBooth b f).edgeSeen = s.edgeSeen :=
  rfl

@[simp] theorem State.modBooth_settleAtFrame (s : State) (b : BoothId) (f : Booth → Booth) :
    (s.modBooth b f).settleAtFrame = s.settleAtFrame :=
  rfl

@[simp] theorem State.modBooth_walls (s : State) (b : BoothId) (f : Booth → Booth) :
    (s.modBooth b f).walls = s.walls :=
  rfl

@[simp] theorem State.modBooth_hall (s : State) (b : BoothId) (f : Booth → Booth) :
    (s.modBooth b f).hall = s.hall :=
  rfl

@[simp] theorem State.modBooth_profiles (s : State) (b : BoothId) (f : Booth → Booth) :
    (s.modBooth b f).profiles = s.profiles :=
  rfl

@[simp] theorem State.modBooth_rooms (s : State) (b : BoothId) (f : Booth → Booth) :
    (s.modBooth b f).rooms = s.rooms :=
  rfl

@[simp] theorem State.modBooth_repartition (s : State) (b : BoothId) (f : Booth → Booth) :
    (s.modBooth b f).repartition = s.repartition :=
  rfl

@[simp] theorem State.modBooth_trunks (s : State) (b : BoothId) (f : Booth → Booth) :
    (s.modBooth b f).trunks = s.trunks :=
  rfl

@[simp] theorem State.modBooth_seats (s : State) (b : BoothId) (f : Booth → Booth) :
    (s.modBooth b f).seats = s.seats :=
  rfl

@[simp] theorem State.modBooth_floors (s : State) (b : BoothId) (f : Booth → Booth) :
    (s.modBooth b f).floors = s.floors :=
  rfl

@[simp] theorem State.modBooth_poolFree (s : State) (b : BoothId) (f : Booth → Booth) :
    (s.modBooth b f).poolFree = s.poolFree :=
  rfl

@[simp] theorem State.modBooth_stampCounter (s : State) (b : BoothId) (f : Booth → Booth) :
    (s.modBooth b f).stampCounter = s.stampCounter :=
  rfl

@[simp] theorem State.modBooth_booths (s : State) (b : BoothId) (f : Booth → Booth) :
    (s.modBooth b f).booths = s.booths.modify b f :=
  rfl

@[simp] theorem State.modBooth_slotMaps (s : State) (b : BoothId) (f : Booth → Booth) :
    (s.modBooth b f).slotMaps = s.slotMaps :=
  rfl

@[simp] theorem State.modBooth_mixes (s : State) (b : BoothId) (f : Booth → Booth) :
    (s.modBooth b f).mixes = s.mixes :=
  rfl

@[simp] theorem State.modBooth_releaseCounter (s : State) (b : BoothId) (f : Booth → Booth) :
    (s.modBooth b f).releaseCounter = s.releaseCounter :=
  rfl

@[simp] theorem State.modBooth_paGains (s : State) (b : BoothId) (f : Booth → Booth) :
    (s.modBooth b f).paGains = s.paGains :=
  rfl

@[simp] theorem State.modBooth_taps (s : State) (b : BoothId) (f : Booth → Booth) :
    (s.modBooth b f).taps = s.taps :=
  rfl

@[simp] theorem State.modBooth_ports (s : State) (b : BoothId) (f : Booth → Booth) :
    (s.modBooth b f).ports = s.ports :=
  rfl

@[simp] theorem State.modBooth_signals (s : State) (b : BoothId) (f : Booth → Booth) :
    (s.modBooth b f).signals = s.signals :=
  rfl

@[simp] theorem State.modBooth_listen (s : State) (b : BoothId) (f : Booth → Booth) :
    (s.modBooth b f).listen = s.listen :=
  rfl

@[simp] theorem State.modBooth_paOut (s : State) (b : BoothId) (f : Booth → Booth) :
    (s.modBooth b f).paOut = s.paOut :=
  rfl

@[simp] theorem State.modBooth_tapOut (s : State) (b : BoothId) (f : Booth → Booth) :
    (s.modBooth b f).tapOut = s.tapOut :=
  rfl

@[simp] theorem State.modBooth_downlinks (s : State) (b : BoothId) (f : Booth → Booth) :
    (s.modBooth b f).downlinks = s.downlinks :=
  rfl

/-! ### setSlotMap -/

@[simp] theorem State.setSlotMap_pending (s : State) (a : Segment) (m : SlotMap) :
    (s.setSlotMap a m).pending = s.pending :=
  rfl

@[simp] theorem State.setSlotMap_held (s : State) (a : Segment) (m : SlotMap) :
    (s.setSlotMap a m).held = s.held :=
  rfl

@[simp] theorem State.setSlotMap_clock (s : State) (a : Segment) (m : SlotMap) :
    (s.setSlotMap a m).clock = s.clock :=
  rfl

@[simp] theorem State.setSlotMap_edgeSeen (s : State) (a : Segment) (m : SlotMap) :
    (s.setSlotMap a m).edgeSeen = s.edgeSeen :=
  rfl

@[simp] theorem State.setSlotMap_settleAtFrame (s : State) (a : Segment) (m : SlotMap) :
    (s.setSlotMap a m).settleAtFrame = s.settleAtFrame :=
  rfl

@[simp] theorem State.setSlotMap_walls (s : State) (a : Segment) (m : SlotMap) :
    (s.setSlotMap a m).walls = s.walls :=
  rfl

@[simp] theorem State.setSlotMap_hall (s : State) (a : Segment) (m : SlotMap) :
    (s.setSlotMap a m).hall = s.hall :=
  rfl

@[simp] theorem State.setSlotMap_profiles (s : State) (a : Segment) (m : SlotMap) :
    (s.setSlotMap a m).profiles = s.profiles :=
  rfl

@[simp] theorem State.setSlotMap_rooms (s : State) (a : Segment) (m : SlotMap) :
    (s.setSlotMap a m).rooms = s.rooms :=
  rfl

@[simp] theorem State.setSlotMap_repartition (s : State) (a : Segment) (m : SlotMap) :
    (s.setSlotMap a m).repartition = s.repartition :=
  rfl

@[simp] theorem State.setSlotMap_trunks (s : State) (a : Segment) (m : SlotMap) :
    (s.setSlotMap a m).trunks = s.trunks :=
  rfl

@[simp] theorem State.setSlotMap_seats (s : State) (a : Segment) (m : SlotMap) :
    (s.setSlotMap a m).seats = s.seats :=
  rfl

@[simp] theorem State.setSlotMap_floors (s : State) (a : Segment) (m : SlotMap) :
    (s.setSlotMap a m).floors = s.floors :=
  rfl

@[simp] theorem State.setSlotMap_poolFree (s : State) (a : Segment) (m : SlotMap) :
    (s.setSlotMap a m).poolFree = s.poolFree :=
  rfl

@[simp] theorem State.setSlotMap_stampCounter (s : State) (a : Segment) (m : SlotMap) :
    (s.setSlotMap a m).stampCounter = s.stampCounter :=
  rfl

@[simp] theorem State.setSlotMap_booths (s : State) (a : Segment) (m : SlotMap) :
    (s.setSlotMap a m).booths = s.booths :=
  rfl

@[simp] theorem State.setSlotMap_slotMaps (s : State) (a : Segment) (m : SlotMap) :
    (s.setSlotMap a m).slotMaps = s.slotMaps.set a m :=
  rfl

@[simp] theorem State.setSlotMap_mixes (s : State) (a : Segment) (m : SlotMap) :
    (s.setSlotMap a m).mixes = s.mixes :=
  rfl

@[simp] theorem State.setSlotMap_releaseCounter (s : State) (a : Segment) (m : SlotMap) :
    (s.setSlotMap a m).releaseCounter = s.releaseCounter :=
  rfl

@[simp] theorem State.setSlotMap_paGains (s : State) (a : Segment) (m : SlotMap) :
    (s.setSlotMap a m).paGains = s.paGains :=
  rfl

@[simp] theorem State.setSlotMap_taps (s : State) (a : Segment) (m : SlotMap) :
    (s.setSlotMap a m).taps = s.taps :=
  rfl

@[simp] theorem State.setSlotMap_ports (s : State) (a : Segment) (m : SlotMap) :
    (s.setSlotMap a m).ports = s.ports :=
  rfl

@[simp] theorem State.setSlotMap_signals (s : State) (a : Segment) (m : SlotMap) :
    (s.setSlotMap a m).signals = s.signals :=
  rfl

@[simp] theorem State.setSlotMap_listen (s : State) (a : Segment) (m : SlotMap) :
    (s.setSlotMap a m).listen = s.listen :=
  rfl

@[simp] theorem State.setSlotMap_paOut (s : State) (a : Segment) (m : SlotMap) :
    (s.setSlotMap a m).paOut = s.paOut :=
  rfl

@[simp] theorem State.setSlotMap_tapOut (s : State) (a : Segment) (m : SlotMap) :
    (s.setSlotMap a m).tapOut = s.tapOut :=
  rfl

@[simp] theorem State.setSlotMap_downlinks (s : State) (a : Segment) (m : SlotMap) :
    (s.setSlotMap a m).downlinks = s.downlinks :=
  rfl

/-! ### modMix -/

@[simp] theorem State.modMix_pending (s : State) (a : Segment) (f : MixRoom → MixRoom) :
    (s.modMix a f).pending = s.pending :=
  rfl

@[simp] theorem State.modMix_held (s : State) (a : Segment) (f : MixRoom → MixRoom) :
    (s.modMix a f).held = s.held :=
  rfl

@[simp] theorem State.modMix_clock (s : State) (a : Segment) (f : MixRoom → MixRoom) :
    (s.modMix a f).clock = s.clock :=
  rfl

@[simp] theorem State.modMix_edgeSeen (s : State) (a : Segment) (f : MixRoom → MixRoom) :
    (s.modMix a f).edgeSeen = s.edgeSeen :=
  rfl

@[simp] theorem State.modMix_settleAtFrame (s : State) (a : Segment) (f : MixRoom → MixRoom) :
    (s.modMix a f).settleAtFrame = s.settleAtFrame :=
  rfl

@[simp] theorem State.modMix_walls (s : State) (a : Segment) (f : MixRoom → MixRoom) :
    (s.modMix a f).walls = s.walls :=
  rfl

@[simp] theorem State.modMix_hall (s : State) (a : Segment) (f : MixRoom → MixRoom) :
    (s.modMix a f).hall = s.hall :=
  rfl

@[simp] theorem State.modMix_profiles (s : State) (a : Segment) (f : MixRoom → MixRoom) :
    (s.modMix a f).profiles = s.profiles :=
  rfl

@[simp] theorem State.modMix_rooms (s : State) (a : Segment) (f : MixRoom → MixRoom) :
    (s.modMix a f).rooms = s.rooms :=
  rfl

@[simp] theorem State.modMix_repartition (s : State) (a : Segment) (f : MixRoom → MixRoom) :
    (s.modMix a f).repartition = s.repartition :=
  rfl

@[simp] theorem State.modMix_trunks (s : State) (a : Segment) (f : MixRoom → MixRoom) :
    (s.modMix a f).trunks = s.trunks :=
  rfl

@[simp] theorem State.modMix_seats (s : State) (a : Segment) (f : MixRoom → MixRoom) :
    (s.modMix a f).seats = s.seats :=
  rfl

@[simp] theorem State.modMix_floors (s : State) (a : Segment) (f : MixRoom → MixRoom) :
    (s.modMix a f).floors = s.floors :=
  rfl

@[simp] theorem State.modMix_poolFree (s : State) (a : Segment) (f : MixRoom → MixRoom) :
    (s.modMix a f).poolFree = s.poolFree :=
  rfl

@[simp] theorem State.modMix_stampCounter (s : State) (a : Segment) (f : MixRoom → MixRoom) :
    (s.modMix a f).stampCounter = s.stampCounter :=
  rfl

@[simp] theorem State.modMix_booths (s : State) (a : Segment) (f : MixRoom → MixRoom) :
    (s.modMix a f).booths = s.booths :=
  rfl

@[simp] theorem State.modMix_slotMaps (s : State) (a : Segment) (f : MixRoom → MixRoom) :
    (s.modMix a f).slotMaps = s.slotMaps :=
  rfl

@[simp] theorem State.modMix_mixes (s : State) (a : Segment) (f : MixRoom → MixRoom) :
    (s.modMix a f).mixes = s.mixes.modify a f :=
  rfl

@[simp] theorem State.modMix_releaseCounter (s : State) (a : Segment) (f : MixRoom → MixRoom) :
    (s.modMix a f).releaseCounter = s.releaseCounter :=
  rfl

@[simp] theorem State.modMix_paGains (s : State) (a : Segment) (f : MixRoom → MixRoom) :
    (s.modMix a f).paGains = s.paGains :=
  rfl

@[simp] theorem State.modMix_taps (s : State) (a : Segment) (f : MixRoom → MixRoom) :
    (s.modMix a f).taps = s.taps :=
  rfl

@[simp] theorem State.modMix_ports (s : State) (a : Segment) (f : MixRoom → MixRoom) :
    (s.modMix a f).ports = s.ports :=
  rfl

@[simp] theorem State.modMix_signals (s : State) (a : Segment) (f : MixRoom → MixRoom) :
    (s.modMix a f).signals = s.signals :=
  rfl

@[simp] theorem State.modMix_listen (s : State) (a : Segment) (f : MixRoom → MixRoom) :
    (s.modMix a f).listen = s.listen :=
  rfl

@[simp] theorem State.modMix_paOut (s : State) (a : Segment) (f : MixRoom → MixRoom) :
    (s.modMix a f).paOut = s.paOut :=
  rfl

@[simp] theorem State.modMix_tapOut (s : State) (a : Segment) (f : MixRoom → MixRoom) :
    (s.modMix a f).tapOut = s.tapOut :=
  rfl

@[simp] theorem State.modMix_downlinks (s : State) (a : Segment) (f : MixRoom → MixRoom) :
    (s.modMix a f).downlinks = s.downlinks :=
  rfl

/-! ### setMixes -/

@[simp] theorem State.setMixes_pending (s : State) (mixes : Tab 6 MixRoom) :
    (s.setMixes mixes).pending = s.pending :=
  rfl

@[simp] theorem State.setMixes_held (s : State) (mixes : Tab 6 MixRoom) :
    (s.setMixes mixes).held = s.held :=
  rfl

@[simp] theorem State.setMixes_clock (s : State) (mixes : Tab 6 MixRoom) :
    (s.setMixes mixes).clock = s.clock :=
  rfl

@[simp] theorem State.setMixes_edgeSeen (s : State) (mixes : Tab 6 MixRoom) :
    (s.setMixes mixes).edgeSeen = s.edgeSeen :=
  rfl

@[simp] theorem State.setMixes_settleAtFrame (s : State) (mixes : Tab 6 MixRoom) :
    (s.setMixes mixes).settleAtFrame = s.settleAtFrame :=
  rfl

@[simp] theorem State.setMixes_walls (s : State) (mixes : Tab 6 MixRoom) :
    (s.setMixes mixes).walls = s.walls :=
  rfl

@[simp] theorem State.setMixes_hall (s : State) (mixes : Tab 6 MixRoom) :
    (s.setMixes mixes).hall = s.hall :=
  rfl

@[simp] theorem State.setMixes_profiles (s : State) (mixes : Tab 6 MixRoom) :
    (s.setMixes mixes).profiles = s.profiles :=
  rfl

@[simp] theorem State.setMixes_rooms (s : State) (mixes : Tab 6 MixRoom) :
    (s.setMixes mixes).rooms = s.rooms :=
  rfl

@[simp] theorem State.setMixes_repartition (s : State) (mixes : Tab 6 MixRoom) :
    (s.setMixes mixes).repartition = s.repartition :=
  rfl

@[simp] theorem State.setMixes_trunks (s : State) (mixes : Tab 6 MixRoom) :
    (s.setMixes mixes).trunks = s.trunks :=
  rfl

@[simp] theorem State.setMixes_seats (s : State) (mixes : Tab 6 MixRoom) :
    (s.setMixes mixes).seats = s.seats :=
  rfl

@[simp] theorem State.setMixes_floors (s : State) (mixes : Tab 6 MixRoom) :
    (s.setMixes mixes).floors = s.floors :=
  rfl

@[simp] theorem State.setMixes_poolFree (s : State) (mixes : Tab 6 MixRoom) :
    (s.setMixes mixes).poolFree = s.poolFree :=
  rfl

@[simp] theorem State.setMixes_stampCounter (s : State) (mixes : Tab 6 MixRoom) :
    (s.setMixes mixes).stampCounter = s.stampCounter :=
  rfl

@[simp] theorem State.setMixes_booths (s : State) (mixes : Tab 6 MixRoom) :
    (s.setMixes mixes).booths = s.booths :=
  rfl

@[simp] theorem State.setMixes_slotMaps (s : State) (mixes : Tab 6 MixRoom) :
    (s.setMixes mixes).slotMaps = s.slotMaps :=
  rfl

@[simp] theorem State.setMixes_mixes (s : State) (mixes : Tab 6 MixRoom) :
    (s.setMixes mixes).mixes = mixes :=
  rfl

@[simp] theorem State.setMixes_releaseCounter (s : State) (mixes : Tab 6 MixRoom) :
    (s.setMixes mixes).releaseCounter = s.releaseCounter :=
  rfl

@[simp] theorem State.setMixes_paGains (s : State) (mixes : Tab 6 MixRoom) :
    (s.setMixes mixes).paGains = s.paGains :=
  rfl

@[simp] theorem State.setMixes_taps (s : State) (mixes : Tab 6 MixRoom) :
    (s.setMixes mixes).taps = s.taps :=
  rfl

@[simp] theorem State.setMixes_ports (s : State) (mixes : Tab 6 MixRoom) :
    (s.setMixes mixes).ports = s.ports :=
  rfl

@[simp] theorem State.setMixes_signals (s : State) (mixes : Tab 6 MixRoom) :
    (s.setMixes mixes).signals = s.signals :=
  rfl

@[simp] theorem State.setMixes_listen (s : State) (mixes : Tab 6 MixRoom) :
    (s.setMixes mixes).listen = s.listen :=
  rfl

@[simp] theorem State.setMixes_paOut (s : State) (mixes : Tab 6 MixRoom) :
    (s.setMixes mixes).paOut = s.paOut :=
  rfl

@[simp] theorem State.setMixes_tapOut (s : State) (mixes : Tab 6 MixRoom) :
    (s.setMixes mixes).tapOut = s.tapOut :=
  rfl

@[simp] theorem State.setMixes_downlinks (s : State) (mixes : Tab 6 MixRoom) :
    (s.setMixes mixes).downlinks = s.downlinks :=
  rfl

/-! ### setReleaseCounter -/

@[simp] theorem State.setReleaseCounter_pending (s : State) (c : Clock) :
    (s.setReleaseCounter c).pending = s.pending :=
  rfl

@[simp] theorem State.setReleaseCounter_held (s : State) (c : Clock) :
    (s.setReleaseCounter c).held = s.held :=
  rfl

@[simp] theorem State.setReleaseCounter_clock (s : State) (c : Clock) :
    (s.setReleaseCounter c).clock = s.clock :=
  rfl

@[simp] theorem State.setReleaseCounter_edgeSeen (s : State) (c : Clock) :
    (s.setReleaseCounter c).edgeSeen = s.edgeSeen :=
  rfl

@[simp] theorem State.setReleaseCounter_settleAtFrame (s : State) (c : Clock) :
    (s.setReleaseCounter c).settleAtFrame = s.settleAtFrame :=
  rfl

@[simp] theorem State.setReleaseCounter_walls (s : State) (c : Clock) :
    (s.setReleaseCounter c).walls = s.walls :=
  rfl

@[simp] theorem State.setReleaseCounter_hall (s : State) (c : Clock) :
    (s.setReleaseCounter c).hall = s.hall :=
  rfl

@[simp] theorem State.setReleaseCounter_profiles (s : State) (c : Clock) :
    (s.setReleaseCounter c).profiles = s.profiles :=
  rfl

@[simp] theorem State.setReleaseCounter_rooms (s : State) (c : Clock) :
    (s.setReleaseCounter c).rooms = s.rooms :=
  rfl

@[simp] theorem State.setReleaseCounter_repartition (s : State) (c : Clock) :
    (s.setReleaseCounter c).repartition = s.repartition :=
  rfl

@[simp] theorem State.setReleaseCounter_trunks (s : State) (c : Clock) :
    (s.setReleaseCounter c).trunks = s.trunks :=
  rfl

@[simp] theorem State.setReleaseCounter_seats (s : State) (c : Clock) :
    (s.setReleaseCounter c).seats = s.seats :=
  rfl

@[simp] theorem State.setReleaseCounter_floors (s : State) (c : Clock) :
    (s.setReleaseCounter c).floors = s.floors :=
  rfl

@[simp] theorem State.setReleaseCounter_poolFree (s : State) (c : Clock) :
    (s.setReleaseCounter c).poolFree = s.poolFree :=
  rfl

@[simp] theorem State.setReleaseCounter_stampCounter (s : State) (c : Clock) :
    (s.setReleaseCounter c).stampCounter = s.stampCounter :=
  rfl

@[simp] theorem State.setReleaseCounter_booths (s : State) (c : Clock) :
    (s.setReleaseCounter c).booths = s.booths :=
  rfl

@[simp] theorem State.setReleaseCounter_slotMaps (s : State) (c : Clock) :
    (s.setReleaseCounter c).slotMaps = s.slotMaps :=
  rfl

@[simp] theorem State.setReleaseCounter_mixes (s : State) (c : Clock) :
    (s.setReleaseCounter c).mixes = s.mixes :=
  rfl

@[simp] theorem State.setReleaseCounter_releaseCounter (s : State) (c : Clock) :
    (s.setReleaseCounter c).releaseCounter = c :=
  rfl

@[simp] theorem State.setReleaseCounter_paGains (s : State) (c : Clock) :
    (s.setReleaseCounter c).paGains = s.paGains :=
  rfl

@[simp] theorem State.setReleaseCounter_taps (s : State) (c : Clock) :
    (s.setReleaseCounter c).taps = s.taps :=
  rfl

@[simp] theorem State.setReleaseCounter_ports (s : State) (c : Clock) :
    (s.setReleaseCounter c).ports = s.ports :=
  rfl

@[simp] theorem State.setReleaseCounter_signals (s : State) (c : Clock) :
    (s.setReleaseCounter c).signals = s.signals :=
  rfl

@[simp] theorem State.setReleaseCounter_listen (s : State) (c : Clock) :
    (s.setReleaseCounter c).listen = s.listen :=
  rfl

@[simp] theorem State.setReleaseCounter_paOut (s : State) (c : Clock) :
    (s.setReleaseCounter c).paOut = s.paOut :=
  rfl

@[simp] theorem State.setReleaseCounter_tapOut (s : State) (c : Clock) :
    (s.setReleaseCounter c).tapOut = s.tapOut :=
  rfl

@[simp] theorem State.setReleaseCounter_downlinks (s : State) (c : Clock) :
    (s.setReleaseCounter c).downlinks = s.downlinks :=
  rfl

/-! ### setPaGainOf -/

@[simp] theorem State.setPaGainOf_pending (s : State) (g : Segment) (n : Nat) :
    (s.setPaGainOf g n).pending = s.pending :=
  rfl

@[simp] theorem State.setPaGainOf_held (s : State) (g : Segment) (n : Nat) :
    (s.setPaGainOf g n).held = s.held :=
  rfl

@[simp] theorem State.setPaGainOf_clock (s : State) (g : Segment) (n : Nat) :
    (s.setPaGainOf g n).clock = s.clock :=
  rfl

@[simp] theorem State.setPaGainOf_edgeSeen (s : State) (g : Segment) (n : Nat) :
    (s.setPaGainOf g n).edgeSeen = s.edgeSeen :=
  rfl

@[simp] theorem State.setPaGainOf_settleAtFrame (s : State) (g : Segment) (n : Nat) :
    (s.setPaGainOf g n).settleAtFrame = s.settleAtFrame :=
  rfl

@[simp] theorem State.setPaGainOf_walls (s : State) (g : Segment) (n : Nat) :
    (s.setPaGainOf g n).walls = s.walls :=
  rfl

@[simp] theorem State.setPaGainOf_hall (s : State) (g : Segment) (n : Nat) :
    (s.setPaGainOf g n).hall = s.hall :=
  rfl

@[simp] theorem State.setPaGainOf_profiles (s : State) (g : Segment) (n : Nat) :
    (s.setPaGainOf g n).profiles = s.profiles :=
  rfl

@[simp] theorem State.setPaGainOf_rooms (s : State) (g : Segment) (n : Nat) :
    (s.setPaGainOf g n).rooms = s.rooms :=
  rfl

@[simp] theorem State.setPaGainOf_repartition (s : State) (g : Segment) (n : Nat) :
    (s.setPaGainOf g n).repartition = s.repartition :=
  rfl

@[simp] theorem State.setPaGainOf_trunks (s : State) (g : Segment) (n : Nat) :
    (s.setPaGainOf g n).trunks = s.trunks :=
  rfl

@[simp] theorem State.setPaGainOf_seats (s : State) (g : Segment) (n : Nat) :
    (s.setPaGainOf g n).seats = s.seats :=
  rfl

@[simp] theorem State.setPaGainOf_floors (s : State) (g : Segment) (n : Nat) :
    (s.setPaGainOf g n).floors = s.floors :=
  rfl

@[simp] theorem State.setPaGainOf_poolFree (s : State) (g : Segment) (n : Nat) :
    (s.setPaGainOf g n).poolFree = s.poolFree :=
  rfl

@[simp] theorem State.setPaGainOf_stampCounter (s : State) (g : Segment) (n : Nat) :
    (s.setPaGainOf g n).stampCounter = s.stampCounter :=
  rfl

@[simp] theorem State.setPaGainOf_booths (s : State) (g : Segment) (n : Nat) :
    (s.setPaGainOf g n).booths = s.booths :=
  rfl

@[simp] theorem State.setPaGainOf_slotMaps (s : State) (g : Segment) (n : Nat) :
    (s.setPaGainOf g n).slotMaps = s.slotMaps :=
  rfl

@[simp] theorem State.setPaGainOf_mixes (s : State) (g : Segment) (n : Nat) :
    (s.setPaGainOf g n).mixes = s.mixes :=
  rfl

@[simp] theorem State.setPaGainOf_releaseCounter (s : State) (g : Segment) (n : Nat) :
    (s.setPaGainOf g n).releaseCounter = s.releaseCounter :=
  rfl

@[simp] theorem State.setPaGainOf_paGains (s : State) (g : Segment) (n : Nat) :
    (s.setPaGainOf g n).paGains = s.paGains.set g n :=
  rfl

@[simp] theorem State.setPaGainOf_taps (s : State) (g : Segment) (n : Nat) :
    (s.setPaGainOf g n).taps = s.taps :=
  rfl

@[simp] theorem State.setPaGainOf_ports (s : State) (g : Segment) (n : Nat) :
    (s.setPaGainOf g n).ports = s.ports :=
  rfl

@[simp] theorem State.setPaGainOf_signals (s : State) (g : Segment) (n : Nat) :
    (s.setPaGainOf g n).signals = s.signals :=
  rfl

@[simp] theorem State.setPaGainOf_listen (s : State) (g : Segment) (n : Nat) :
    (s.setPaGainOf g n).listen = s.listen :=
  rfl

@[simp] theorem State.setPaGainOf_paOut (s : State) (g : Segment) (n : Nat) :
    (s.setPaGainOf g n).paOut = s.paOut :=
  rfl

@[simp] theorem State.setPaGainOf_tapOut (s : State) (g : Segment) (n : Nat) :
    (s.setPaGainOf g n).tapOut = s.tapOut :=
  rfl

@[simp] theorem State.setPaGainOf_downlinks (s : State) (g : Segment) (n : Nat) :
    (s.setPaGainOf g n).downlinks = s.downlinks :=
  rfl

/-! ### setTapOf -/

@[simp] theorem State.setTapOf_pending (s : State) (k : TapId) (t : Option Tap) :
    (s.setTapOf k t).pending = s.pending :=
  rfl

@[simp] theorem State.setTapOf_held (s : State) (k : TapId) (t : Option Tap) :
    (s.setTapOf k t).held = s.held :=
  rfl

@[simp] theorem State.setTapOf_clock (s : State) (k : TapId) (t : Option Tap) :
    (s.setTapOf k t).clock = s.clock :=
  rfl

@[simp] theorem State.setTapOf_edgeSeen (s : State) (k : TapId) (t : Option Tap) :
    (s.setTapOf k t).edgeSeen = s.edgeSeen :=
  rfl

@[simp] theorem State.setTapOf_settleAtFrame (s : State) (k : TapId) (t : Option Tap) :
    (s.setTapOf k t).settleAtFrame = s.settleAtFrame :=
  rfl

@[simp] theorem State.setTapOf_walls (s : State) (k : TapId) (t : Option Tap) :
    (s.setTapOf k t).walls = s.walls :=
  rfl

@[simp] theorem State.setTapOf_hall (s : State) (k : TapId) (t : Option Tap) :
    (s.setTapOf k t).hall = s.hall :=
  rfl

@[simp] theorem State.setTapOf_profiles (s : State) (k : TapId) (t : Option Tap) :
    (s.setTapOf k t).profiles = s.profiles :=
  rfl

@[simp] theorem State.setTapOf_rooms (s : State) (k : TapId) (t : Option Tap) :
    (s.setTapOf k t).rooms = s.rooms :=
  rfl

@[simp] theorem State.setTapOf_repartition (s : State) (k : TapId) (t : Option Tap) :
    (s.setTapOf k t).repartition = s.repartition :=
  rfl

@[simp] theorem State.setTapOf_trunks (s : State) (k : TapId) (t : Option Tap) :
    (s.setTapOf k t).trunks = s.trunks :=
  rfl

@[simp] theorem State.setTapOf_seats (s : State) (k : TapId) (t : Option Tap) :
    (s.setTapOf k t).seats = s.seats :=
  rfl

@[simp] theorem State.setTapOf_floors (s : State) (k : TapId) (t : Option Tap) :
    (s.setTapOf k t).floors = s.floors :=
  rfl

@[simp] theorem State.setTapOf_poolFree (s : State) (k : TapId) (t : Option Tap) :
    (s.setTapOf k t).poolFree = s.poolFree :=
  rfl

@[simp] theorem State.setTapOf_stampCounter (s : State) (k : TapId) (t : Option Tap) :
    (s.setTapOf k t).stampCounter = s.stampCounter :=
  rfl

@[simp] theorem State.setTapOf_booths (s : State) (k : TapId) (t : Option Tap) :
    (s.setTapOf k t).booths = s.booths :=
  rfl

@[simp] theorem State.setTapOf_slotMaps (s : State) (k : TapId) (t : Option Tap) :
    (s.setTapOf k t).slotMaps = s.slotMaps :=
  rfl

@[simp] theorem State.setTapOf_mixes (s : State) (k : TapId) (t : Option Tap) :
    (s.setTapOf k t).mixes = s.mixes :=
  rfl

@[simp] theorem State.setTapOf_releaseCounter (s : State) (k : TapId) (t : Option Tap) :
    (s.setTapOf k t).releaseCounter = s.releaseCounter :=
  rfl

@[simp] theorem State.setTapOf_paGains (s : State) (k : TapId) (t : Option Tap) :
    (s.setTapOf k t).paGains = s.paGains :=
  rfl

@[simp] theorem State.setTapOf_taps (s : State) (k : TapId) (t : Option Tap) :
    (s.setTapOf k t).taps = s.taps.set k t :=
  rfl

@[simp] theorem State.setTapOf_ports (s : State) (k : TapId) (t : Option Tap) :
    (s.setTapOf k t).ports = s.ports :=
  rfl

@[simp] theorem State.setTapOf_signals (s : State) (k : TapId) (t : Option Tap) :
    (s.setTapOf k t).signals = s.signals :=
  rfl

@[simp] theorem State.setTapOf_listen (s : State) (k : TapId) (t : Option Tap) :
    (s.setTapOf k t).listen = s.listen :=
  rfl

@[simp] theorem State.setTapOf_paOut (s : State) (k : TapId) (t : Option Tap) :
    (s.setTapOf k t).paOut = s.paOut :=
  rfl

@[simp] theorem State.setTapOf_tapOut (s : State) (k : TapId) (t : Option Tap) :
    (s.setTapOf k t).tapOut = s.tapOut :=
  rfl

@[simp] theorem State.setTapOf_downlinks (s : State) (k : TapId) (t : Option Tap) :
    (s.setTapOf k t).downlinks = s.downlinks :=
  rfl

end Sys2Proof.Machine
end

