-- ==== Sys2Proof/Laws/Ops.lean ====
section
/-! SUPPORT. What the shared operations over ports, notices and replies can do: one lemma for each. -/

namespace Sys2Proof.Machine

open Sys2Proof.Safety

/-! ### Notices -/

theorem notify_port (ports : List Port) (body : NoticeBody) (s : State) (q : Port) :
    (notify ports body s).ports.get q =
      if ports.contains q then (s.ports.get q).deliver { clock := s.clock, body := body } else s.ports.get q := by
  simp [notify]

theorem notify_frame (ports : List Port) (body : NoticeBody) (s : State) :
    notify ports body s = { s with ports := (notify ports body s).ports } :=
  rfl

/-- The notices of one event, one after another. -/
def sendAll (sent : List Sent) (s : State) : State :=
  sent.foldl (fun s n => notify n.1 n.2 s) s

@[simp] theorem sendAll_nil (s : State) : sendAll [] s = s :=
  rfl

theorem sendAll_cons (n : Sent) (sent : List Sent) (s : State) :
    sendAll (n :: sent) s = sendAll sent (notify n.1 n.2 s) :=
  rfl

theorem sendAll_append (a b : List Sent) (s : State) : sendAll (a ++ b) s = sendAll b (sendAll a s) := by
  simp [sendAll]

theorem sendAll_port (sent : List Sent) (s : State) (q : Port) :
    (sendAll sent s).ports.get q = deliverAll s.clock q sent (s.ports.get q) := by
  induction sent generalizing s with
  | nil => rfl
  | cons n sent ih => rw [sendAll_cons, ih, notify_port]; rfl

theorem sendAll_frame (sent : List Sent) (s : State) : sendAll sent s = { s with ports := (sendAll sent s).ports } := by
  induction sent generalizing s with
  | nil => rfl
  | cons n sent ih => rw [sendAll_cons, ih]; rfl

/-- A notice changes the notice queue and the overflow state of a port record, and nothing else. -/
theorem PortRec.deliver_frame (n : Notice) (r : PortRec) :
    r.deliver n = { r with notices := (r.deliver n).notices, overflow := (r.deliver n).overflow } := by
  unfold PortRec.deliver PortRec.enqueue
  split <;> [split; skip] <;> [rfl; (split <;> [rfl; (split <;> rfl)]); rfl]

@[simp] theorem PortRec.deliver_replies (n : Notice) (r : PortRec) : (r.deliver n).replies = r.replies := by
  rw [PortRec.deliver_frame]

@[simp] theorem PortRec.deliver_attached (n : Notice) (r : PortRec) : (r.deliver n).attached = r.attached := by
  rw [PortRec.deliver_frame]

@[simp] theorem PortRec.deliver_transmitter (n : Notice) (r : PortRec) : (r.deliver n).transmitter = r.transmitter := by
  rw [PortRec.deliver_frame]

@[simp] theorem PortRec.deliver_buffer (n : Notice) (r : PortRec) : (r.deliver n).buffer = r.buffer := by
  rw [PortRec.deliver_frame]

@[simp] theorem PortRec.deliver_receiver (n : Notice) (r : PortRec) : (r.deliver n).receiver = r.receiver := by
  rw [PortRec.deliver_frame]

/-- A port that is not ATTACHED keeps nothing (R188). -/
theorem PortRec.deliver_detached (n : Notice) (r : PortRec) (h : r.attached = false) : r.deliver n = r := by
  simp [PortRec.deliver, h]

@[simp] theorem deliverAll_replies (clock : Clock) (q : Port) (sent : List Sent) (r : PortRec) :
    (deliverAll clock q sent r).replies = r.replies := by
  induction sent generalizing r with
  | nil => rfl
  | cons n sent ih =>
    change (deliverAll clock q sent _).replies = _
    rw [ih]; dsimp only; split <;> simp

@[simp] theorem deliverAll_attached (clock : Clock) (q : Port) (sent : List Sent) (r : PortRec) :
    (deliverAll clock q sent r).attached = r.attached := by
  induction sent generalizing r with
  | nil => rfl
  | cons n sent ih =>
    change (deliverAll clock q sent _).attached = _
    rw [ih]; dsimp only; split <;> simp

/-! ### The transmitter -/

@[simp] theorem PortRec.startSending_replies (r : PortRec) : r.startSending.replies = r.replies := by
  unfold PortRec.startSending; repeat' split
  all_goals rfl

@[simp] theorem PortRec.startSending_notices (r : PortRec) : r.startSending.notices = r.notices := by
  unfold PortRec.startSending; repeat' split
  all_goals rfl

/-- A transmitter that has looked for its next message is idle only where there is none. -/
theorem PortRec.startSending_idle {r : PortRec} (h : r.startSending.transmitter = .idle) :
    r.startSending = r ∧ r.replies = [] ∧ r.notices = [] := by
  unfold PortRec.startSending at h ⊢
  split at h
  · split at h <;> simp_all
  all_goals simp_all

@[simp] theorem PortRec.startSending_overflow (r : PortRec) : r.startSending.overflow = r.overflow := by
  unfold PortRec.startSending; repeat' split
  all_goals rfl

@[simp] theorem PortRec.startSending_attached (r : PortRec) : r.startSending.attached = r.attached := by
  unfold PortRec.startSending; repeat' split
  all_goals rfl

@[simp] theorem PortRec.startSending_buffer (r : PortRec) : r.startSending.buffer = r.buffer := by
  unfold PortRec.startSending; repeat' split
  all_goals rfl

@[simp] theorem PortRec.startSending_receiver (r : PortRec) : r.startSending.receiver = r.receiver := by
  unfold PortRec.startSending; repeat' split
  all_goals rfl

theorem startTransmitters_frame (s : State) :
    startTransmitters s = { s with ports := s.ports.map PortRec.startSending } :=
  rfl

/-! ### The end of an event -/

theorem startTransmitters_sendAll (sent : List Sent) (s : State) :
    startTransmitters (sendAll sent s) = conclude s sent none := by
  rw [sendAll_frame]
  refine congrArg (fun ports => { s with ports := ports }) (Tab.ext_get fun q => ?_)
  simp [sendAll_port, queueReply]

theorem startTransmitters_pushReply_sendAll (p : Port) (r : Reply) (sent : List Sent) (s : State) :
    startTransmitters (pushReply p r (sendAll sent s)) = conclude s sent (some (p, r)) := by
  rw [sendAll_frame]
  refine congrArg (fun ports => { s with ports := ports }) (Tab.ext_get fun q => ?_)
  by_cases h : p = q
  · subst h; simp [pushReply, sendAll_port, queueReply]
  · have h' : q ≠ p := fun e => h e.symm
    simp [pushReply, sendAll_port, queueReply, Tab.get_modify, h, h']

/-- An event that sends nothing and answers nothing. -/
theorem finish_eq_conclude (s : State) : finish s = .next (conclude s [] none) :=
  congrArg _ (startTransmitters_sendAll [] s)

/-- While the part is held in reset an event or command has no effect (R197). -/
theorem carryOut_held {s : State} (h : s.held = true) (effect : State → State) : carryOut effect s = .next s := by
  simp [carryOut, h]

/-- An event or command of a part that is not held in reset. -/
theorem carryOut_eq {s : State} (h : s.held = false) (effect : State → State) :
    carryOut effect s = finish (effect s) := by
  simp [carryOut, h]

/-- Every event or command completes. -/
theorem carryOut_next (effect : State → State) (s : State) : ∃ t, carryOut effect s = .next t := by
  cases h : s.held
  · exact ⟨_, carryOut_eq h effect⟩
  · exact ⟨s, carryOut_held h effect⟩

/-! ### Commands -/

theorem serve_full {p : Port} {tag : Byte} {read : Bool} {rule : State → Answer} {s : State} (h : ¬hasPlace s p) :
    serve p tag read rule s = notify [p] (.linkFault .overrun tag) s := by
  simp [serve, Nat.not_lt.mp h]

theorem serve_detached {p : Port} {tag : Byte} {rule : State → Answer} {s : State} (h : hasPlace s p)
    (ha : (s.ports.get p).attached = false) :
    serve p tag false rule s = pushReply p { tag := tag, code := .notAttached, results := [] } s := by
  simp [serve, Nat.not_le.mpr h, isAttached, ha]

theorem serve_taken {p : Port} {tag : Byte} {read : Bool} {rule : State → Answer} {s : State} (h : hasPlace s p)
    (ha : read = true ∨ (s.ports.get p).attached = true) :
    serve p tag read rule s =
      pushReply p { tag := tag, code := (rule s).code, results := (rule s).results } (rule s).state := by
  rcases ha with ha | ha <;> simp [serve, Nat.not_le.mpr h, isAttached, ha]

/-- A command whose rule leaves state `t` after the notices `sent` ends as `conclude` says. -/
theorem finish_serve {p : Port} {tag : Byte} {read : Bool} {rule : State → Answer} {s t : State} {sent : List Sent}
    {code : ReplyCode} {results : List Byte} (h : hasPlace s p) (ha : read = true ∨ (s.ports.get p).attached = true)
    (hr : rule s = { code := code, results := results, state := sendAll sent t }) :
    finish (serve p tag read rule s) =
      .next (conclude t sent (some (p, { tag := tag, code := code, results := results }))) := by
  rw [serve_taken h ha, hr]
  exact congrArg _ (startTransmitters_pushReply_sendAll ..)

/-- A command whose rule changes nothing. -/
theorem finish_serve_same {p : Port} {tag : Byte} {read : Bool} {rule : State → Answer} {s : State} {code : ReplyCode}
    {results : List Byte} (h : hasPlace s p) (ha : read = true ∨ (s.ports.get p).attached = true)
    (hr : rule s = { code := code, results := results, state := s }) :
    finish (serve p tag read rule s) = .next (answered s p tag code results) :=
  finish_serve (sent := []) h ha hr

/-! ### Operands -/

theorem idArg_of_toNat {n : Nat} {b : Byte} {i : Fin n} (h : b.toNat = i.val + 1) : idArg n b = some i := by
  have hi := i.isLt
  unfold idArg
  rw [dif_pos (by omega)]
  congr 1
  exact Fin.ext (by simp [h])

theorem idArg_none {n : Nat} {b : Byte} (h : b.toNat = 0 ∨ n < b.toNat) : idArg n b = none := by
  unfold idArg
  rw [dif_neg (by omega)]

/-! ### Auto-advance (R79) -/

@[simp] theorem afterHeads_zero (s : State) (a : Segment) : afterHeads s a 0 = s := by
  simp [afterHeads, heads]

@[simp] theorem headsSent_zero (s : State) (a : Segment) : headsSent s a 0 = [] := by
  simp [headsSent, heads]

/-- The tests of auto-advance, as the statements put them. -/
theorem mayAdvance_iff {s : State} {a : Segment} (h : (s.floors.get a).queue ≠ []) :
    mayAdvance s a = true ↔ (!isDraining s a) = true ∧ mayGrant s a := by
  have hold : priorityHeld s a = false ↔ (s.floors.get a).holders = [] := by simp [priorityHeld, floorOf]
  simp only [mayAdvance, listHasRoom, Bool.and_eq_true, decide_eq_true_eq, beq_iff_eq, Bool.not_eq_true', hold, mayGrant]
  simp only [floorOf, profileOf, Config.speakerCap, ne_eq, h, not_false_eq_true, true_and]
  tauto

end Sys2Proof.Machine
end

