-- ==== Sys2Proof/Laws/Frames.lean ====
section
/-! SUPPORT. What the operations of the floor, the seats and the walls leave unchanged. -/

namespace Sys2Proof.Machine

/-- Only the notice queues of the ports may differ. -/
def samePorts (s t : State) : Prop :=
  ∀ q, t.ports.get q =
    { s.ports.get q with notices := (t.ports.get q).notices, overflow := (t.ports.get q).overflow }

/-- Only the channel tables and the refusal marks of the trunks may differ. -/
def sameTrunks (s t : State) : Prop :=
  ∀ k, t.trunks.get k =
    { s.trunks.get k with channels := (t.trunks.get k).channels, refusals := (t.trunks.get k).refusals }

/-- Only the release sets of the rooms may differ. -/
def sameMixes (s t : State) : Prop :=
  ∀ a, t.mixes.get a = { s.mixes.get a with release := (t.mixes.get a).release }

theorem samePorts_trans {s t u : State} (h : samePorts s t) (h' : samePorts t u) : samePorts s u := fun q => by
  rw [h' q, h q]

theorem sameTrunks_trans {s t u : State} (h : sameTrunks s t) (h' : sameTrunks t u) : sameTrunks s u := fun k => by
  rw [h' k, h k]

theorem sameMixes_trans {s t u : State} (h : sameMixes s t) (h' : sameMixes t u) : sameMixes s u := fun a => by
  rw [h' a, h a]

/-- What the floor controller may change: floors, release sets, channels, refusal marks, pool, counters, notices. -/
structure FloorFrame (s t : State) : Prop where
  rest : t =
    { s with
      ports := t.ports
      trunks := t.trunks
      mixes := t.mixes
      floors := t.floors
      releaseCounter := t.releaseCounter
      poolFree := t.poolFree
      stampCounter := t.stampCounter }
  ports : samePorts s t
  trunks : sameTrunks s t
  mixes : sameMixes s t

theorem FloorFrame.refl (s : State) : FloorFrame s s :=
  ⟨rfl, fun _ => rfl, fun _ => rfl, fun _ => rfl⟩

theorem FloorFrame.trans {s t u : State} (h : FloorFrame s t) (h' : FloorFrame t u) : FloorFrame s u :=
  ⟨by rw [h'.rest, h.rest], samePorts_trans h.ports h'.ports, sameTrunks_trans h.trunks h'.trunks,
    sameMixes_trans h.mixes h'.mixes⟩

theorem FloorFrame.foldl {α : Type} {f : State → α → State} (h : ∀ s x, FloorFrame s (f s x)) (l : List α) (s : State) :
    FloorFrame s (l.foldl f s) := by
  induction l generalizing s with
  | nil => exact .refl s
  | cons x l ih => exact (h s x).trans (ih _)

theorem notify_floorFrame (ports : List Port) (body : NoticeBody) (s : State) : FloorFrame s (notify ports body s) where
  rest := rfl
  ports q := by
    rw [notify_port]
    split
    · exact PortRec.deliver_frame _ _
    · rfl
  trunks _ := rfl
  mixes _ := rfl

theorem floorNotice_floorFrame (a : Segment) (seat : SeatId) (change : FloorChange) (reason : FloorReason) (s : State) :
    FloorFrame s (floorNotice a seat change reason s) :=
  notify_floorFrame ..

theorem modFloor_floorFrame (a : Segment) (f : Floor → Floor) (s : State) : FloorFrame s (s.modFloor a f) :=
  ⟨rfl, fun _ => rfl, fun _ => rfl, fun _ => rfl⟩

theorem setPoolFree_floorFrame (n : Nat) (s : State) : FloorFrame s (s.setPoolFree n) :=
  ⟨rfl, fun _ => rfl, fun _ => rfl, fun _ => rfl⟩

theorem setStampCounter_floorFrame (c : Clock) (s : State) : FloorFrame s (s.setStampCounter c) :=
  ⟨rfl, fun _ => rfl, fun _ => rfl, fun _ => rfl⟩

theorem setReleaseCounter_floorFrame (c : Clock) (s : State) : FloorFrame s (s.setReleaseCounter c) :=
  ⟨rfl, fun _ => rfl, fun _ => rfl, fun _ => rfl⟩

theorem modTrunk_floorFrame (k : TrunkId) (f : Trunk → Trunk) (s : State)
    (h : ∀ r, f r = { r with channels := (f r).channels, refusals := (f r).refusals }) :
    FloorFrame s (s.modTrunk k f) where
  rest := rfl
  ports _ := rfl
  trunks j := by
    rw [State.modTrunk_trunks, Tab.get_modify]
    split
    · exact h _
    · rfl
  mixes _ := rfl

theorem modMix_floorFrame (a : Segment) (f : MixRoom → MixRoom) (s : State)
    (h : ∀ m, f m = { m with release := (f m).release }) : FloorFrame s (s.modMix a f) where
  rest := rfl
  ports _ := rfl
  trunks _ := rfl
  mixes b := by
    rw [State.modMix_mixes, Tab.get_modify]
    split
    · exact h _
    · rfl

theorem claimChannel_floorFrame (seat : SeatId) (s : State) : FloorFrame s (claimChannel seat s) :=
  modTrunk_floorFrame _ _ _ fun r => by split <;> rfl

theorem freeChannel_floorFrame (seat : SeatId) (s : State) : FloorFrame s (freeChannel seat s) :=
  modTrunk_floorFrame _ _ _ fun _ => rfl

theorem markRefusal_floorFrame (seat : SeatId) (s : State) : FloorFrame s (markRefusal seat s) :=
  modTrunk_floorFrame _ _ _ fun _ => rfl

theorem endRelease_floorFrame (a : Segment) (seat : SeatId) (s : State) : FloorFrame s (endRelease a seat s) :=
  modMix_floorFrame _ _ _ fun _ => rfl

theorem capRelease_floorFrame (a : Segment) (s : State) : FloorFrame s (capRelease a s) :=
  (modMix_floorFrame a _ s fun _ => rfl).trans (.foldl (fun _ _ => freeChannel_floorFrame ..) _ _)

theorem capPart_floorFrame (a o : Segment) (s : State) : FloorFrame s (capPart a o s) :=
  (modMix_floorFrame o _ s fun _ => rfl).trans (.foldl (fun _ _ => freeChannel_floorFrame ..) _ _)

theorem addRelease_floorFrame (sets : Sets) (a : Segment) (seat : SeatId) (gain : Nat) (s : State) :
    FloorFrame s (addRelease sets a seat gain s) := by
  unfold addRelease
  extract_lets o s1
  have grown : FloorFrame s s1 := (modMix_floorFrame o _ s fun _ => rfl).trans (setReleaseCounter_floorFrame ..)
  cases sets
  · exact grown.trans (capRelease_floorFrame ..)
  · exact grown.trans (capPart_floorFrame ..)

theorem takeRequest_floorFrame (a : Segment) (seat : SeatId) (s : State) : FloorFrame s (takeRequest a seat s) := by
  unfold takeRequest
  split
  · exact (modFloor_floorFrame ..).trans (setPoolFree_floorFrame ..)
  · exact .refl s

theorem grantSeat_floorFrame (sets : Sets) (a : Segment) (seat : SeatId) (reason : FloorReason) (byPriority : Bool)
    (s : State) :
    FloorFrame s (grantSeat sets a seat reason byPriority s) :=
  ((((takeRequest_floorFrame a seat s).trans (modFloor_floorFrame ..)).trans (endRelease_floorFrame ..)).trans
    (claimChannel_floorFrame ..)).trans (floorNotice_floorFrame ..)

theorem removeSpeaker_floorFrame (sets : Sets) (a : Segment) (seat : SeatId) (reason : FloorReason) (s : State) :
    FloorFrame s (removeSpeaker sets a seat reason s) := by
  unfold removeSpeaker
  split
  · exact .refl s
  · dsimp only
    split
    · exact ((modFloor_floorFrame ..).trans (floorNotice_floorFrame ..)).trans (addRelease_floorFrame ..)
    · exact ((modFloor_floorFrame ..).trans (floorNotice_floorFrame ..)).trans (freeChannel_floorFrame ..)

theorem removeRequest_floorFrame (a : Segment) (seat : SeatId) (reason : FloorReason) (s : State) :
    FloorFrame s (removeRequest a seat reason s) := by
  unfold removeRequest
  split
  · dsimp only
    split
    · exact ((takeRequest_floorFrame ..).trans (floorNotice_floorFrame ..)).trans (markRefusal_floorFrame ..)
    · exact (takeRequest_floorFrame ..).trans (floorNotice_floorFrame ..)
  · exact .refl s

theorem removeRequests_floorFrame (a : Segment) (seats : List SeatId) (reason : FloorReason) (s : State) :
    FloorFrame s (removeRequests a seats reason s) :=
  .foldl (fun _ _ => removeRequest_floorFrame ..) _ _

theorem enqueueSeat_floorFrame (a : Segment) (seat : SeatId) (reason : FloorReason) (s : State) :
    FloorFrame s (enqueueSeat a seat reason s) :=
  (((modFloor_floorFrame ..).trans (setPoolFree_floorFrame ..)).trans (setStampCounter_floorFrame ..)).trans
    (floorNotice_floorFrame ..)

theorem floorNotices_floorFrame (a : Segment) (seats : List SeatId) (change : FloorChange) (s : State) :
    FloorFrame s (floorNotices a seats change s) :=
  .foldl (fun _ _ => floorNotice_floorFrame ..) _ _

theorem suspendAll_floorFrame (a : Segment) (s : State) : FloorFrame s (suspendAll a s) :=
  (modFloor_floorFrame ..).trans (floorNotices_floorFrame ..)

theorem resumeAll_floorFrame (a : Segment) (s : State) : FloorFrame s (resumeAll a s) :=
  (modFloor_floorFrame ..).trans (floorNotices_floorFrame ..)

theorem advance_floorFrame (sets : Sets) (n : Nat) (a : Segment) (s : State) : FloorFrame s (advance sets n a s) := by
  induction n generalizing s with
  | zero => exact .refl s
  | succ n ih =>
    unfold advance
    split
    · exact .refl s
    · split
      · exact (grantSeat_floorFrame ..).trans (ih _)
      · exact .refl s

theorem autoAdvance_floorFrame (sets : Sets) (a : Segment) (s : State) : FloorFrame s (autoAdvance sets a s) :=
  advance_floorFrame ..

theorem endHandling_floorFrame (sets : Sets) (a : Segment) (wasHeld started : Bool) (s : State) :
    FloorFrame s (endHandling sets a wasHeld started s) := by
  unfold endHandling
  split
  · exact ((resumeAll_floorFrame a s).trans (notify_floorFrame ..)).trans (autoAdvance_floorFrame ..)
  · split
    · exact autoAdvance_floorFrame ..
    · exact .refl s

theorem leaveHold_floorFrame (sets : Sets) (a : Segment) (seat : SeatId) (s : State) :
    FloorFrame s (leaveHold sets a seat s) := by
  unfold leaveHold
  dsimp only
  split
  · exact (modFloor_floorFrame ..).trans (removeSpeaker_floorFrame ..)
  · exact modFloor_floorFrame ..

theorem joinHold_floorFrame (a : Segment) (seat : SeatId) (s : State) : FloorFrame s (joinHold a seat s) := by
  unfold joinHold
  dsimp only
  split
  · exact (modFloor_floorFrame ..).trans (suspendAll_floorFrame ..)
  · exact ((modFloor_floorFrame ..).trans (suspendAll_floorFrame ..)).trans (notify_floorFrame ..)

theorem dropSeat_floorFrame (sets : Sets) (a : Segment) (seat : SeatId) (reason : FloorReason) (s : State) :
    FloorFrame s (dropSeat sets a seat reason s) :=
  ((((removeSpeaker_floorFrame sets a seat reason s).trans (removeRequest_floorFrame ..)).trans
    (modFloor_floorFrame ..)).trans
    (endRelease_floorFrame ..)).trans (freeChannel_floorFrame ..)

theorem talkEnqueue_floorFrame (a : Segment) (seat : SeatId) (s : State) : FloorFrame s (talkEnqueue a seat s) := by
  unfold talkEnqueue
  split
  · exact markRefusal_floorFrame ..
  · exact enqueueSeat_floorFrame ..

theorem talkByMode_floorFrame (sets : Sets) (a : Segment) (seat : SeatId) (s : State) :
    FloorFrame s (talkByMode sets a seat s) := by
  unfold talkByMode
  repeat' split
  all_goals first
    | exact grantSeat_floorFrame ..
    | exact markRefusal_floorFrame ..
    | exact talkEnqueue_floorFrame ..

theorem talk_floorFrame (sets : Sets) (a : Segment) (seat : SeatId) (s : State) :
    FloorFrame s (talk sets a seat s) := by
  unfold talk
  repeat' split
  · exact (removeSpeaker_floorFrame ..).trans (endHandling_floorFrame ..)
  · exact removeRequest_floorFrame ..
  · exact grantSeat_floorFrame ..
  · exact markRefusal_floorFrame ..
  · exact talkByMode_floorFrame ..

/-- What a grant answers leaves the rest of the part alone. -/
def GrantFrame (s : State) : GrantResult → Prop
  | .refused _ => True
  | .granted _ t => FloorFrame s t

theorem grantOrReplace_frame (sets : Sets) (a : Segment) (seat : SeatId) (replace : Bool) (s : State) :
    GrantFrame s (grantOrReplace sets a seat replace s) := by
  unfold grantOrReplace
  repeat' split
  · exact grantSeat_floorFrame ..
  · exact ((removeSpeaker_floorFrame ..).trans (grantSeat_floorFrame ..)).trans (autoAdvance_floorFrame ..)
  · trivial
  · trivial

theorem grantNamed_frame (a : Segment) (seat : SeatId) (replace : Bool) (s : State) :
    GrantFrame s (grantNamed a seat replace s) := by
  unfold grantNamed
  repeat' split
  all_goals first
    | trivial
    | exact grantOrReplace_frame ..

theorem grantHead_frame (sets : Sets) (a : Segment) (replace : Bool) (s : State) :
    GrantFrame s (grantHead sets a replace s) := by
  unfold grantHead
  repeat' split
  all_goals first
    | trivial
    | exact grantOrReplace_frame ..

theorem nextKey_floorFrame (sets : Sets) (a : Segment) (seat : SeatId) (s : State) :
    FloorFrame s (nextKey sets a seat s) := by
  have h := grantHead_frame sets a false s
  unfold nextKey
  split
  · exact markRefusal_floorFrame ..
  · rename_i heq; rw [heq] at h; exact h

theorem priorityDown_floorFrame (sets : Sets) (a : Segment) (seat : SeatId) (s : State) :
    FloorFrame s (priorityDown sets a seat s) := by
  unfold priorityDown
  dsimp only
  repeat' split
  · exact .refl s
  · exact markRefusal_floorFrame ..
  · exact joinHold_floorFrame ..
  · exact (grantSeat_floorFrame ..).trans (joinHold_floorFrame ..)
  · exact (((removeSpeaker_floorFrame ..).trans (grantSeat_floorFrame ..)).trans (joinHold_floorFrame ..)).trans
      (autoAdvance_floorFrame ..)
  · exact markRefusal_floorFrame ..

theorem priorityUp_floorFrame (sets : Sets) (a : Segment) (seat : SeatId) (s : State) :
    FloorFrame s (priorityUp sets a seat s) := by
  unfold priorityUp
  split
  · exact (leaveHold_floorFrame ..).trans (endHandling_floorFrame ..)
  · exact .refl s

/-! ### Seats -/

/-- What the seat table and the floor controller together may change. -/
structure SeatFrame (s t : State) : Prop where
  rest : t =
    { s with
      seats := t.seats
      ports := t.ports
      trunks := t.trunks
      mixes := t.mixes
      floors := t.floors
      releaseCounter := t.releaseCounter
      poolFree := t.poolFree
      stampCounter := t.stampCounter }
  ports : samePorts s t
  trunks : sameTrunks s t
  mixes : sameMixes s t

theorem FloorFrame.toSeat {s t : State} (h : FloorFrame s t) : SeatFrame s t :=
  ⟨by rw [h.rest], h.ports, h.trunks, h.mixes⟩

theorem SeatFrame.refl (s : State) : SeatFrame s s :=
  (FloorFrame.refl s).toSeat

theorem SeatFrame.trans {s t u : State} (h : SeatFrame s t) (h' : SeatFrame t u) : SeatFrame s u :=
  ⟨by rw [h'.rest, h.rest], samePorts_trans h.ports h'.ports, sameTrunks_trans h.trunks h'.trunks,
    sameMixes_trans h.mixes h'.mixes⟩

theorem SeatFrame.foldl {α : Type} {f : State → α → State} (h : ∀ s x, SeatFrame s (f s x)) (l : List α) (s : State) :
    SeatFrame s (l.foldl f s) := by
  induction l generalizing s with
  | nil => exact .refl s
  | cons x l ih => exact (h s x).trans (ih _)

theorem modSeat_seatFrame (i : SeatId) (f : Seat → Seat) (s : State) : SeatFrame s (s.modSeat i f) :=
  ⟨rfl, fun _ => rfl, fun _ => rfl, fun _ => rfl⟩

theorem takeOffline_seatFrame (sets : Sets) (seat : SeatId) (reason : FloorReason) (s : State) :
    SeatFrame s (takeOffline sets seat reason s) :=
  ((modSeat_seatFrame seat _ s).trans
    (modTrunk_floorFrame _ _ _ fun _ => rfl).toSeat).trans (dropSeat_floorFrame ..).toSeat

theorem takeSeatsOffline_seatFrame (t : TrunkId) (reason : FloorReason) (s : State) :
    SeatFrame s (takeSeatsOffline t reason s) :=
  .foldl (fun _ _ => takeOffline_seatFrame ..) _ _

theorem hello_seatFrame (sets : Sets) (seat : SeatId) (s : State) : SeatFrame s (hello sets seat s) := by
  unfold hello
  split
  · exact (((dropSeat_floorFrame ..).trans (notify_floorFrame ..)).trans (endHandling_floorFrame ..)).toSeat
  · exact (modSeat_seatFrame ..).trans (notify_floorFrame ..).toSeat

theorem bye_seatFrame (sets : Sets) (seat : SeatId) (s : State) : SeatFrame s (bye sets seat s) := by
  unfold bye
  split
  · exact (takeOffline_seatFrame ..).trans ((notify_floorFrame ..).trans (endHandling_floorFrame ..)).toSeat
  · exact .refl s

theorem seatEvent_seatFrame (sets : Sets) (seat : SeatId) (kind : EventKind) (s : State) :
    SeatFrame s (seatEvent sets seat kind s) := by
  cases kind <;> simp only [seatEvent]
  · exact hello_seatFrame ..
  · exact bye_seatFrame ..
  · split
    · exact .refl s
    · split
      · exact (talk_floorFrame ..).toSeat
      · exact (markRefusal_floorFrame ..).toSeat
  · split
    · exact .refl s
    · split
      · exact (priorityDown_floorFrame ..).toSeat
      · exact (markRefusal_floorFrame ..).toSeat
  · split
    · exact .refl s
    · exact (priorityUp_floorFrame ..).toSeat
  · split
    · exact .refl s
    · split
      · exact (nextKey_floorFrame ..).toSeat
      · exact (markRefusal_floorFrame ..).toSeat

/-! ### Walls, rooms and the drain -/

/-- What the partition controller may change up to the drain: walls, room table, repartition, fade phases, holding
trunks, notices. -/
structure WallFrame (s t : State) : Prop where
  rest : t =
    { s with
      walls := t.walls
      rooms := t.rooms
      repartition := t.repartition
      mixes := t.mixes
      trunks := t.trunks
      ports := t.ports }
  ports : samePorts s t
  trunks : ∀ k, t.trunks.get k = { s.trunks.get k with holding := (t.trunks.get k).holding }
  mixes : ∀ a, t.mixes.get a = { s.mixes.get a with phase := (t.mixes.get a).phase }

theorem WallFrame.refl (s : State) : WallFrame s s :=
  ⟨rfl, fun _ => rfl, fun _ => rfl, fun _ => rfl⟩

theorem WallFrame.trans {s t u : State} (h : WallFrame s t) (h' : WallFrame t u) : WallFrame s u :=
  ⟨by rw [h'.rest, h.rest], samePorts_trans h.ports h'.ports, fun k => by rw [h'.trunks k, h.trunks k],
    fun a => by rw [h'.mixes a, h.mixes a]⟩

theorem WallFrame.foldl {α : Type} {f : State → α → State} (h : ∀ s x, WallFrame s (f s x)) (l : List α) (s : State) :
    WallFrame s (l.foldl f s) := by
  induction l generalizing s with
  | nil => exact .refl s
  | cons x l ih => exact (h s x).trans (ih _)

theorem notify_wallFrame (ports : List Port) (body : NoticeBody) (s : State) : WallFrame s (notify ports body s) :=
  ⟨rfl, (notify_floorFrame ports body s).ports, fun _ => rfl, fun _ => rfl⟩

theorem sendWall_wallFrame (w : WallId) (s : State) : WallFrame s (sendWall w s) :=
  notify_wallFrame ..

theorem sendWalls_wallFrame (ws : List WallId) (s : State) : WallFrame s (sendWalls ws s) :=
  .foldl (fun _ _ => sendWall_wallFrame ..) _ _

theorem sendRoom_wallFrame (a : Segment) (s : State) : WallFrame s (sendRoom a s) := by
  unfold sendRoom
  split
  · exact notify_wallFrame ..
  · exact .refl s

theorem modWall_wallFrame (w : WallId) (f : Wall → Wall) (s : State) : WallFrame s (s.modWall w f) :=
  ⟨rfl, fun _ => rfl, fun _ => rfl, fun _ => rfl⟩

theorem setRooms_wallFrame (rooms : Tab 6 (Option Room)) (s : State) : WallFrame s (s.setRooms rooms) :=
  ⟨rfl, fun _ => rfl, fun _ => rfl, fun _ => rfl⟩

theorem setRepartition_wallFrame (r : Option Repartition) (s : State) : WallFrame s (s.setRepartition r) :=
  ⟨rfl, fun _ => rfl, fun _ => rfl, fun _ => rfl⟩

theorem recomputeLead_wallFrame (a : Segment) (s : State) : WallFrame s (recomputeLead a s) := by
  unfold recomputeLead
  split
  · dsimp only
    split
    · exact .refl s
    · exact (setRooms_wallFrame ..).trans (sendRoom_wallFrame ..)
  · exact .refl s

theorem cancelConsent_wallFrame (w : WallId) (s : State) : WallFrame s (cancelConsent w s) := by
  unfold cancelConsent
  split
  · exact (modWall_wallFrame ..).trans (notify_wallFrame ..)
  · exact .refl s

theorem portLeft_wallFrame (p : Port) (s : State) : WallFrame s (portLeft p s) :=
  (WallFrame.foldl (fun _ _ => cancelConsent_wallFrame ..) _ _).trans (recomputeLead_wallFrame ..)

theorem commitLoop_wallFrame (s : State) : WallFrame s (commitLoop s) :=
  ⟨rfl, fun _ => rfl, fun _ => rfl, fun _ => rfl⟩

theorem markDraining_wallFrame (a : Segment) (s : State) : WallFrame s (markDraining a s) := by
  unfold markDraining
  split
  · exact setRooms_wallFrame ..
  · exact .refl s

theorem reportReady_wallFrame (a : Segment) (s : State) : WallFrame s (reportReady a s) := by
  unfold reportReady
  repeat' split
  · exact setRepartition_wallFrame ..
  · exact .refl s
  · exact .refl s

theorem setPhase_wallFrame (a : Segment) (phase : FadePhase) (s : State) :
    WallFrame s (s.modMix a fun m => { m with phase := phase }) where
  rest := rfl
  ports _ := rfl
  trunks _ := rfl
  mixes b := by
    rw [State.modMix_mixes, Tab.get_modify]
    split <;> rfl

theorem drainMix_wallFrame (a : Segment) (s : State) : WallFrame s (drainMix a s) := by
  unfold drainMix
  dsimp only
  split
  · exact setPhase_wallFrame ..
  · split
    · exact (setPhase_wallFrame ..).trans (reportReady_wallFrame ..)
    · exact setPhase_wallFrame ..
  · exact .refl s
  · exact .refl s

theorem drainTrunk_wallFrame (t : TrunkId) (s : State) : WallFrame s (drainTrunk t s) where
  rest := rfl
  ports _ := rfl
  trunks k := by
    unfold drainTrunk
    rw [State.modTrunk_trunks, Tab.get_modify]
    split <;> rfl
  mixes _ := rfl

theorem beginDrain_wallFrame (uncreated affected : List Segment) (s : State) :
    WallFrame s (beginDrain uncreated affected s) :=
  ((((setRepartition_wallFrame _ s).trans (.foldl (fun _ _ => markDraining_wallFrame ..) _ _)).trans
    (.foldl (fun _ _ => sendRoom_wallFrame ..) _ _)).trans (.foldl (fun _ _ => drainMix_wallFrame ..) _ _)).trans
    (.foldl (fun _ _ => drainTrunk_wallFrame ..) _ _)

theorem startTest_wallFrame (uncreated : List Segment) (s : State) : WallFrame s (startTest uncreated s) := by
  unfold startTest
  split
  · exact .refl s
  · exact (commitLoop_wallFrame s).trans (sendWalls_wallFrame ..)
  · exact beginDrain_wallFrame ..

theorem settleWall_wallFrame (w : WallId) (s : State) : WallFrame s (settleWall w s) := by
  unfold settleWall
  dsimp only
  repeat' split
  · exact (modWall_wallFrame ..).trans (sendWall_wallFrame ..)
  · exact (modWall_wallFrame ..).trans (sendWall_wallFrame ..)
  · exact ((modWall_wallFrame ..).trans (commitLoop_wallFrame _)).trans (sendWalls_wallFrame ..)
  · exact ((modWall_wallFrame ..).trans (sendWall_wallFrame ..)).trans (beginDrain_wallFrame ..)

end Sys2Proof.Machine
end

