-- ==== Sys2Proof/Laws/Commit.lean ====
section
/-! SUPPORT. What the operations of the booth allocator, the tap table and the floor's share of a commit leave
unchanged. -/

namespace Sys2Proof.Machine

/-! ### Booths, relays and taps -/

/-- What the booth allocator and the tap table may change: allocations and sources, slot maps, taps, notices. -/
structure BoothFrame (s t : State) : Prop where
  rest : t = { s with ports := t.ports, booths := t.booths, slotMaps := t.slotMaps, taps := t.taps }
  ports : samePorts s t
  booths : ∀ b, t.booths.get b =
    { s.booths.get b with source := (t.booths.get b).source, allocation := (t.booths.get b).allocation }

theorem BoothFrame.refl (s : State) : BoothFrame s s :=
  ⟨rfl, fun _ => rfl, fun _ => rfl⟩

theorem BoothFrame.trans {s t u : State} (h : BoothFrame s t) (h' : BoothFrame t u) : BoothFrame s u :=
  ⟨by rw [h'.rest, h.rest], samePorts_trans h.ports h'.ports, fun b => by rw [h'.booths b, h.booths b]⟩

theorem BoothFrame.foldl {α : Type} {f : State → α → State} (h : ∀ s x, BoothFrame s (f s x)) (l : List α) (s : State) :
    BoothFrame s (l.foldl f s) := by
  induction l generalizing s with
  | nil => exact .refl s
  | cons x l ih => exact (h s x).trans (ih _)

theorem notify_boothFrame (ports : List Port) (body : NoticeBody) (s : State) : BoothFrame s (notify ports body s) :=
  ⟨rfl, (notify_floorFrame ports body s).ports, fun _ => rfl⟩

theorem modBooth_boothFrame (b : BoothId) (f : Booth → Booth) (s : State)
    (h : ∀ r, f r = { r with source := (f r).source, allocation := (f r).allocation }) :
    BoothFrame s (s.modBooth b f) where
  rest := rfl
  ports _ := rfl
  booths x := by
    rw [State.modBooth_booths, Tab.get_modify]
    split
    · exact h _
    · rfl

theorem setSlotMap_boothFrame (a : Segment) (m : SlotMap) (s : State) : BoothFrame s (s.setSlotMap a m) :=
  ⟨rfl, fun _ => rfl, fun _ => rfl⟩

theorem setTapOf_boothFrame (k : TapId) (t : Option Tap) (s : State) : BoothFrame s (s.setTapOf k t) :=
  ⟨rfl, fun _ => rfl, fun _ => rfl⟩

theorem revertRelay_boothFrame (a : Segment) (b : BoothId) (s : State) : BoothFrame s (revertRelay a b s) :=
  (modBooth_boothFrame b _ s fun _ => rfl).trans (notify_boothFrame _ _ _)

theorem revertRelays_boothFrame (a : Segment) (bs : List BoothId) (s : State) : BoothFrame s (revertRelays a bs s) :=
  .foldl (fun s b => revertRelay_boothFrame a b s) bs s

theorem writeAllocations_boothFrame (run : List (BoothId × Allocation)) (s : State) :
    BoothFrame s (writeAllocations run s) := by
  refine .foldl (fun s x => ?_) run s
  exact modBooth_boothFrame x.1 _ s fun _ => rfl

theorem runAllocator_boothFrame (a : Segment) (before s : State) : BoothFrame s (runAllocator a before s) :=
  ((writeAllocations_boothFrame _ s).trans (setSlotMap_boothFrame a _ _)).trans
    (.foldl (fun s _ => notify_boothFrame _ _ s) _ _)

theorem releaseTapIf_boothFrame (free : State → Tap → Bool) (k : TapId) (s : State) :
    BoothFrame s (releaseTapIf free s k) := by
  unfold releaseTapIf
  split
  · split
    · exact (setTapOf_boothFrame k none s).trans (notify_boothFrame _ _ _)
    · exact .refl s
  · exact .refl s

theorem commitBoothRoom_boothFrame (a : Segment) (s : State) : BoothFrame s (commitBoothRoom s a) :=
  (revertRelays_boothFrame a _ s).trans (runAllocator_boothFrame a _ _)

theorem commitBooths_boothFrame (affected news : List Segment) (s : State) :
    BoothFrame s (commitBooths affected news s) :=
  (BoothFrame.foldl (fun s a => setSlotMap_boothFrame a _ s) affected s).trans
    (.foldl (fun s a => commitBoothRoom_boothFrame a s) news _)

theorem commitTaps_boothFrame (s : State) : BoothFrame s (commitTaps s) :=
  .foldl (fun s k => releaseTapIf_boothFrame _ k s) allTaps s

/-! ### The floor's share -/

theorem trimSpeakers_floorFrame (sets : Sets) (n : Nat) (a : Segment) (s : State) :
    FloorFrame s (trimSpeakers sets n a s) := by
  induction n generalizing s with
  | zero => exact .refl s
  | succ n ih =>
    unfold trimSpeakers
    split
    · exact .refl s
    · split
      · exact (removeSpeaker_floorFrame sets a _ _ s).trans (ih _)
      · exact .refl s

theorem requeueSpeaker_floorFrame (a : Segment) (seat : SeatId) (s : State) :
    FloorFrame s (requeueSpeaker a s seat) := by
  unfold requeueSpeaker
  split
  · exact .refl s
  · exact (((modFloor_floorFrame a _ s).trans (setPoolFree_floorFrame _ _)).trans
      (setStampCounter_floorFrame _ _)).trans (floorNotice_floorFrame a seat _ _ _)

theorem commitPriority_floorFrame (old : State) (a : Segment) (s : State) :
    FloorFrame s (commitPriority old a s) :=
  .foldl (fun s g => by
    split
    · exact .refl s
    · exact notify_floorFrame _ _ s) _ s

theorem buildFloor_floorFrame (sets : Sets) (old : State) (affected : List Segment) (a : Segment) (s : State) :
    FloorFrame s (buildFloor sets old affected s a) := by
  unfold buildFloor
  extract_lets gathered s1 s2 trimmed direct s3 s4 s5 s6
  have h2 : FloorFrame s s2 := (modFloor_floorFrame a _ s).trans (trimSpeakers_floorFrame sets _ a s1)
  have h3 : FloorFrame s2 s3 := by
    unfold s3
    split
    · exact .refl s2
    · exact .foldl (fun s i => requeueSpeaker_floorFrame a i s) _ s2
  have h5 : FloorFrame s4 s5 := by
    unfold s5
    split
    · exact removeRequests_floorFrame a _ _ s4
    · exact .refl s4
  have h6 : FloorFrame s5 s6 := by
    unfold s6
    split
    · exact suspendAll_floorFrame a s5
    · exact resumeAll_floorFrame a s5
  exact (((((h2.trans h3).trans (modFloor_floorFrame a _ s3)).trans h5).trans h6).trans
    (commitPriority_floorFrame old a s6)).trans (autoAdvance_floorFrame sets a _)

theorem commitFloors_floorFrame (sets : Sets) (old : State) (affected news : List Segment) (s : State) :
    FloorFrame s (commitFloors sets old affected news s) := by
  have cleared (floors : Tab 6 Floor) : FloorFrame s (s.setFloors floors) :=
    ⟨rfl, fun _ => rfl, fun _ => rfl, fun _ => rfl⟩
  exact (cleared _).trans (.foldl (fun s a => buildFloor_floorFrame sets old affected a s) news _)

end Sys2Proof.Machine
end

