-- ==== Sys2Proof/Laws/PerInstr.lean ====
section
/-! SUPPORT. Facts about every command, one lemma for each constructor of `Instr`. -/

namespace Sys2Proof.Laws

open Machine

theorem byteSum_append (a b : List Byte) : byteSum (a ++ b) = byteSum a + byteSum b := by
  induction a with
  | nil => simp [byteSum]
  | cons x a ih =>
    have h : byteSum (x :: a) = x + byteSum a := rfl
    rw [List.cons_append, h, ← BitVec.add_assoc .. |>.symm, ← ih]
    rfl

/-- The bytes of a message sum to 0 (R193). -/
theorem byteSum_withSum (body : List Byte) : byteSum (withSum body) = 0 := by
  rw [withSum, byteSum_append]
  simp [byteSum]

/-- What `withSum` gives for a body of 2 to 63 bytes. -/
theorem withSum_bytes (body bytes : List Byte) (h2 : 2 ≤ body.length) (h63 : body.length ≤ 63)
    (h : bytes = withSum body) : 3 ≤ bytes.length ∧ bytes.length ≤ 64 ∧ byteSum bytes = 0 := by
  subst h
  refine ⟨?_, ?_, byteSum_withSum body⟩ <;> simp [withSum] <;> omega

/-- The message of a command has 3 to 64 bytes, and they sum to 0 (R175, R193). An event has no message. -/
def CommandBytes.Statement (i : Instr) : Prop :=
  ∀ bytes, encodeCommand i = some bytes → 3 ≤ bytes.length ∧ bytes.length ≤ 64 ∧ byteSum bytes = 0

theorem commandBytes_of_body {i : Instr} {body : List Byte} (hb : commandBody i = some body) (h2 : 2 ≤ body.length)
    (h63 : body.length ≤ 63) : CommandBytes.Statement i := by
  intro bytes h
  rw [encodeCommand, hb] at h
  exact withSum_bytes body bytes h2 h63 (Option.some.inj h).symm

theorem commandBytes_of_event {i : Instr} (hb : commandBody i = none) : CommandBytes.Statement i := by
  intro bytes h
  rw [encodeCommand, hb] at h
  cases h

theorem CommandBytes.powerOnReset (levels : Option WallMap) : CommandBytes.Statement (.powerOnReset levels) :=
  commandBytes_of_event rfl

theorem CommandBytes.frameEvent (micros : Nat) (levels : WallMap) (booths : Tab 8 (Option BoothFrame)) :
    CommandBytes.Statement (.frameEvent micros levels booths) :=
  commandBytes_of_event rfl

theorem CommandBytes.debounceEnd (wall : WallId) : CommandBytes.Statement (.debounceEnd wall) :=
  commandBytes_of_event rfl

theorem CommandBytes.consentExpiry (wall : WallId) : CommandBytes.Statement (.consentExpiry wall) :=
  commandBytes_of_event rfl

theorem CommandBytes.warmingExpiry (trunk : TrunkId) : CommandBytes.Statement (.warmingExpiry trunk) :=
  commandBytes_of_event rfl

theorem CommandBytes.holdExpiry (trunk : TrunkId) : CommandBytes.Statement (.holdExpiry trunk) :=
  commandBytes_of_event rfl

theorem CommandBytes.deadlineExpiry (seat : SeatId) : CommandBytes.Statement (.deadlineExpiry seat) :=
  commandBytes_of_event rfl

theorem CommandBytes.releaseEnd (seat : SeatId) : CommandBytes.Statement (.releaseEnd seat) :=
  commandBytes_of_event rfl

theorem CommandBytes.readyReport (room : Segment) : CommandBytes.Statement (.readyReport room) :=
  commandBytes_of_event rfl

theorem CommandBytes.commit (order : List CommitShare) : CommandBytes.Statement (.commit order) :=
  commandBytes_of_event rfl

theorem CommandBytes.uplinkFrame (trunk : TrunkId) (frame : UplinkFrame) :
    CommandBytes.Statement (.uplinkFrame trunk frame) :=
  commandBytes_of_event rfl

theorem CommandBytes.missingFrame (trunk : TrunkId) : CommandBytes.Statement (.missingFrame trunk) :=
  commandBytes_of_event rfl

theorem CommandBytes.messageArrival (port : Port) : CommandBytes.Statement (.messageArrival port) :=
  commandBytes_of_event rfl

theorem CommandBytes.portReset (port : Port) : CommandBytes.Statement (.portReset port) :=
  commandBytes_of_event rfl

theorem CommandBytes.messageSent (port : Port) : CommandBytes.Statement (.messageSent port) :=
  commandBytes_of_event rfl

theorem CommandBytes.attach (port : Port) (tag : Byte) :
    CommandBytes.Statement (.attach port tag) :=
  commandBytes_of_body rfl (Nat.le_of_ble_eq_true rfl) (Nat.le_of_ble_eq_true rfl)

theorem CommandBytes.detach (port : Port) (tag : Byte) :
    CommandBytes.Statement (.detach port tag) :=
  commandBytes_of_body rfl (Nat.le_of_ble_eq_true rfl) (Nat.le_of_ble_eq_true rfl)

theorem CommandBytes.setHall (port : Port) (tag : Byte) (wallSettle trunkStart trunkHold : Half) :
    CommandBytes.Statement (.setHall port tag wallSettle trunkStart trunkHold) :=
  commandBytes_of_body rfl (Nat.le_of_ble_eq_true rfl) (Nat.le_of_ble_eq_true rfl)

theorem CommandBytes.readHall (port : Port) (tag : Byte) :
    CommandBytes.Statement (.readHall port tag) :=
  commandBytes_of_body rfl (Nat.le_of_ble_eq_true rfl) (Nat.le_of_ble_eq_true rfl)

theorem CommandBytes.readClock (port : Port) (tag : Byte) :
    CommandBytes.Statement (.readClock port tag) :=
  commandBytes_of_body rfl (Nat.le_of_ble_eq_true rfl) (Nat.le_of_ble_eq_true rfl)

theorem CommandBytes.setWall (port : Port) (tag : Byte) (wall mode : Byte) :
    CommandBytes.Statement (.setWall port tag wall mode) :=
  commandBytes_of_body rfl (Nat.le_of_ble_eq_true rfl) (Nat.le_of_ble_eq_true rfl)

theorem CommandBytes.readWall (port : Port) (tag : Byte) (wall : Byte) :
    CommandBytes.Statement (.readWall port tag wall) :=
  commandBytes_of_body rfl (Nat.le_of_ble_eq_true rfl) (Nat.le_of_ble_eq_true rfl)

theorem CommandBytes.readRoom (port : Port) (tag : Byte) (room : Byte) :
    CommandBytes.Statement (.readRoom port tag room) :=
  commandBytes_of_body rfl (Nat.le_of_ble_eq_true rfl) (Nat.le_of_ble_eq_true rfl)

theorem CommandBytes.setProfile (port : Port) (tag : Byte) (floorMode maxOpen requestCap : Byte)
    (speechLimit levelFloor roomGain : Half) :
    CommandBytes.Statement (.setProfile port tag floorMode maxOpen requestCap speechLimit levelFloor roomGain) :=
  commandBytes_of_body rfl (Nat.le_of_ble_eq_true rfl) (Nat.le_of_ble_eq_true rfl)

theorem CommandBytes.readProfile (port : Port) (tag : Byte) (segment : Byte) :
    CommandBytes.Statement (.readProfile port tag segment) :=
  commandBytes_of_body rfl (Nat.le_of_ble_eq_true rfl) (Nat.le_of_ble_eq_true rfl)

theorem CommandBytes.trunkPower (port : Port) (tag : Byte) (trunk switch : Byte) :
    CommandBytes.Statement (.trunkPower port tag trunk switch) :=
  commandBytes_of_body rfl (Nat.le_of_ble_eq_true rfl) (Nat.le_of_ble_eq_true rfl)

theorem CommandBytes.trunkRestart (port : Port) (tag : Byte) (trunk : Byte) :
    CommandBytes.Statement (.trunkRestart port tag trunk) :=
  commandBytes_of_body rfl (Nat.le_of_ble_eq_true rfl) (Nat.le_of_ble_eq_true rfl)

theorem CommandBytes.trunkTest (port : Port) (tag : Byte) (trunk : Byte) :
    CommandBytes.Statement (.trunkTest port tag trunk) :=
  commandBytes_of_body rfl (Nat.le_of_ble_eq_true rfl) (Nat.le_of_ble_eq_true rfl)

theorem CommandBytes.snapshot (port : Port) (tag : Byte) (trunk : Byte) :
    CommandBytes.Statement (.snapshot port tag trunk) :=
  commandBytes_of_body rfl (Nat.le_of_ble_eq_true rfl) (Nat.le_of_ble_eq_true rfl)

theorem CommandBytes.readTrunk (port : Port) (tag : Byte) (trunk : Byte) :
    CommandBytes.Statement (.readTrunk port tag trunk) :=
  commandBytes_of_body rfl (Nat.le_of_ble_eq_true rfl) (Nat.le_of_ble_eq_true rfl)

theorem CommandBytes.setSeat (port : Port) (tag : Byte) (seat enabled chair : Byte) :
    CommandBytes.Statement (.setSeat port tag seat enabled chair) :=
  commandBytes_of_body rfl (Nat.le_of_ble_eq_true rfl) (Nat.le_of_ble_eq_true rfl)

theorem CommandBytes.readSeat (port : Port) (tag : Byte) (seat : Byte) :
    CommandBytes.Statement (.readSeat port tag seat) :=
  commandBytes_of_body rfl (Nat.le_of_ble_eq_true rfl) (Nat.le_of_ble_eq_true rfl)

theorem CommandBytes.grant (port : Port) (tag : Byte) (seat replace : Byte) :
    CommandBytes.Statement (.grant port tag seat replace) :=
  commandBytes_of_body rfl (Nat.le_of_ble_eq_true rfl) (Nat.le_of_ble_eq_true rfl)

theorem CommandBytes.grantNext (port : Port) (tag : Byte) (replace : Byte) :
    CommandBytes.Statement (.grantNext port tag replace) :=
  commandBytes_of_body rfl (Nat.le_of_ble_eq_true rfl) (Nat.le_of_ble_eq_true rfl)

theorem CommandBytes.close (port : Port) (tag : Byte) (seat : Byte) :
    CommandBytes.Statement (.close port tag seat) :=
  commandBytes_of_body rfl (Nat.le_of_ble_eq_true rfl) (Nat.le_of_ble_eq_true rfl)

theorem CommandBytes.deny (port : Port) (tag : Byte) (seat : Byte) :
    CommandBytes.Statement (.deny port tag seat) :=
  commandBytes_of_body rfl (Nat.le_of_ble_eq_true rfl) (Nat.le_of_ble_eq_true rfl)

theorem CommandBytes.enqueue (port : Port) (tag : Byte) (seat : Byte) :
    CommandBytes.Statement (.enqueue port tag seat) :=
  commandBytes_of_body rfl (Nat.le_of_ble_eq_true rfl) (Nat.le_of_ble_eq_true rfl)

theorem CommandBytes.clear (port : Port) (tag : Byte) (selector : Byte) :
    CommandBytes.Statement (.clear port tag selector) :=
  commandBytes_of_body rfl (Nat.le_of_ble_eq_true rfl) (Nat.le_of_ble_eq_true rfl)

theorem CommandBytes.priorityCancel (port : Port) (tag : Byte) (seat : Byte) :
    CommandBytes.Statement (.priorityCancel port tag seat) :=
  commandBytes_of_body rfl (Nat.le_of_ble_eq_true rfl) (Nat.le_of_ble_eq_true rfl)

theorem CommandBytes.readFloor (port : Port) (tag : Byte) (room selector start count : Byte) :
    CommandBytes.Statement (.readFloor port tag room selector start count) :=
  commandBytes_of_body rfl (Nat.le_of_ble_eq_true rfl) (Nat.le_of_ble_eq_true rfl)

theorem CommandBytes.assignBooth (port : Port) (tag : Byte) (booth language slot : Byte) :
    CommandBytes.Statement (.assignBooth port tag booth language slot) :=
  commandBytes_of_body rfl (Nat.le_of_ble_eq_true rfl) (Nat.le_of_ble_eq_true rfl)

theorem CommandBytes.releaseBooth (port : Port) (tag : Byte) (booth : Byte) :
    CommandBytes.Statement (.releaseBooth port tag booth) :=
  commandBytes_of_body rfl (Nat.le_of_ble_eq_true rfl) (Nat.le_of_ble_eq_true rfl)

theorem CommandBytes.setRelay (port : Port) (tag : Byte) (booth source : Byte) :
    CommandBytes.Statement (.setRelay port tag booth source) :=
  commandBytes_of_body rfl (Nat.le_of_ble_eq_true rfl) (Nat.le_of_ble_eq_true rfl)

theorem CommandBytes.readBooth (port : Port) (tag : Byte) (booth : Byte) :
    CommandBytes.Statement (.readBooth port tag booth) :=
  commandBytes_of_body rfl (Nat.le_of_ble_eq_true rfl) (Nat.le_of_ble_eq_true rfl)

theorem CommandBytes.setPaGain (port : Port) (tag : Byte) (segment : Byte) (gain : Half) :
    CommandBytes.Statement (.setPaGain port tag segment gain) :=
  commandBytes_of_body rfl (Nat.le_of_ble_eq_true rfl) (Nat.le_of_ble_eq_true rfl)

theorem CommandBytes.joinTap (port : Port) (tag : Byte) (tap kind number : Byte) :
    CommandBytes.Statement (.joinTap port tag tap kind number) :=
  commandBytes_of_body rfl (Nat.le_of_ble_eq_true rfl) (Nat.le_of_ble_eq_true rfl)

theorem CommandBytes.leaveTap (port : Port) (tag : Byte) (tap : Byte) :
    CommandBytes.Statement (.leaveTap port tag tap) :=
  commandBytes_of_body rfl (Nat.le_of_ble_eq_true rfl) (Nat.le_of_ble_eq_true rfl)

theorem CommandBytes.readTap (port : Port) (tag : Byte) (tap : Byte) :
    CommandBytes.Statement (.readTap port tag tap) :=
  commandBytes_of_body rfl (Nat.le_of_ble_eq_true rfl) (Nat.le_of_ble_eq_true rfl)

theorem CommandBytes.startBit (port : Port) (samples : BitSamples) :
    CommandBytes.Statement (.startBit port samples) :=
  commandBytes_of_event rfl

theorem CommandBytes.characterComplete (port : Port) (samples : Tab 9 BitSamples) :
    CommandBytes.Statement (.characterComplete port samples) :=
  commandBytes_of_event rfl

theorem CommandBytes.lineHighInLowWait (port : Port) : CommandBytes.Statement (.lineHighInLowWait port) :=
  commandBytes_of_event rfl

theorem CommandBytes.breakWaitEnd (port : Port) : CommandBytes.Statement (.breakWaitEnd port) :=
  commandBytes_of_event rfl

end Sys2Proof.Laws
end

