-- ==== Sys2Proof/Laws/Timebase.lean ====
section
/-! SUPPORT. What ordering a list does, the order of the lists of a floor by age, and what the reset input leaves. -/

namespace Sys2Proof.Machine

/-! ### Ordered lists -/

/-- Inserting adds the one element. -/
theorem insertBy_perm {α : Type} (before : α → α → Bool) (x : α) (l : List α) :
    (insertBy before x l).Perm (x :: l) := by
  induction l with
  | nil => exact .refl _
  | cons y l ih =>
    unfold insertBy
    split
    · exact .refl _
    · exact (ih.cons y).trans (.swap x y l)

theorem foldl_insertBy_perm {α : Type} (before : α → α → Bool) (l acc : List α) :
    (l.foldl (fun acc x => insertBy before x acc) acc).Perm (l ++ acc) := by
  induction l generalizing acc with
  | nil => exact .refl _
  | cons x l ih =>
    exact (ih _).trans (((insertBy_perm before x acc).append_left l).trans List.perm_middle)

/-- Ordering keeps the elements. -/
theorem sortBy_perm {α : Type} (before : α → α → Bool) (l : List α) : (sortBy before l).Perm l := by
  simpa [sortBy] using foldl_insertBy_perm before l []

@[simp] theorem mem_insertBy {α : Type} {before : α → α → Bool} {x y : α} {l : List α} :
    y ∈ insertBy before x l ↔ y = x ∨ y ∈ l := by
  simpa using (insertBy_perm before x l).mem_iff (a := y)

@[simp] theorem length_insertBy {α : Type} (before : α → α → Bool) (x : α) (l : List α) :
    (insertBy before x l).length = l.length + 1 :=
  (insertBy_perm before x l).length_eq

@[simp] theorem mem_sortBy {α : Type} {before : α → α → Bool} {y : α} {l : List α} : y ∈ sortBy before l ↔ y ∈ l :=
  (sortBy_perm before l).mem_iff

@[simp] theorem length_sortBy {α : Type} (before : α → α → Bool) (l : List α) : (sortBy before l).length = l.length :=
  (sortBy_perm before l).length_eq

/-- Inserting into an ordered list leaves an ordered list. -/
theorem insertBy_pairwise {α : Type} {before : α → α → Bool} {r : α → α → Prop}
    (first : ∀ x y, before x y = true → r x y) (second : ∀ x y, before x y = false → r y x)
    (trans : ∀ x y z, r x y → r y z → r x z) (x : α) {l : List α} (h : l.Pairwise r) :
    (insertBy before x l).Pairwise r := by
  induction l with
  | nil => simp [insertBy]
  | cons y l ih =>
    have hy := List.pairwise_cons.mp h
    unfold insertBy
    split
    · next hb =>
      refine List.pairwise_cons.mpr ⟨fun z hz => ?_, h⟩
      rcases List.mem_cons.mp hz with rfl | hz
      · exact first _ _ hb
      · exact trans _ _ _ (first _ _ hb) (hy.1 z hz)
    · next hb =>
      refine List.pairwise_cons.mpr ⟨fun z hz => ?_, ih hy.2⟩
      rcases mem_insertBy.mp hz with rfl | hz
      · exact second _ _ (by simpa using hb)
      · exact hy.1 z hz

/-- An ordered list is in order. -/
theorem sortBy_pairwise {α : Type} {before : α → α → Bool} {r : α → α → Prop}
    (first : ∀ x y, before x y = true → r x y) (second : ∀ x y, before x y = false → r y x)
    (trans : ∀ x y z, r x y → r y z → r x z) (l : List α) : (sortBy before l).Pairwise r := by
  suffices ∀ acc : List α, acc.Pairwise r → (l.foldl (fun acc x => insertBy before x acc) acc).Pairwise r from
    this [] .nil
  induction l with
  | nil => exact fun _ h => h
  | cons x l ih => exact fun acc h => ih _ (insertBy_pairwise first second trans x h)

/-! ### The order by age (R65, R97) -/

/-- The order of a speaker list. -/
def speakerOrder (now : Clock) (x y : Speaker) : Prop :=
  age now y.grantTime < age now x.grantTime ∨ age now y.grantTime = age now x.grantTime ∧ x.seat ≤ y.seat

/-- The order of a holder set. -/
def holderOrder (now : Clock) (x y : Holder) : Prop :=
  age now y.pressTime < age now x.pressTime ∨ age now y.pressTime = age now x.pressTime ∧ x.seat ≤ y.seat

theorem sortBy_speakerOrder (now : Clock) (l : List Speaker) :
    (sortBy (speakerBefore now) l).Pairwise (speakerOrder now) := by
  refine sortBy_pairwise ?_ ?_ ?_ l
  all_goals
    simp only [speakerOrder, speakerBefore, Bool.or_eq_true, Bool.or_eq_false_iff, Bool.and_eq_true, Bool.and_eq_false_imp,
      decide_eq_true_eq, decide_eq_false_iff_not, beq_iff_eq, Fin.lt_def, Fin.le_def]
    omega

theorem sortBy_holderOrder (now : Clock) (l : List Holder) :
    (sortBy (holderBefore now) l).Pairwise (holderOrder now) := by
  refine sortBy_pairwise ?_ ?_ ?_ l
  all_goals
    simp only [holderOrder, holderBefore, Bool.or_eq_true, Bool.or_eq_false_iff, Bool.and_eq_true, Bool.and_eq_false_imp,
      decide_eq_true_eq, decide_eq_false_iff_not, beq_iff_eq, Fin.lt_def, Fin.le_def]
    omega

@[simp] theorem Floor.inAgeOrder_speakers (now : Clock) (f : Floor) :
    (f.inAgeOrder now).speakers = sortBy (speakerBefore now) f.speakers := rfl

@[simp] theorem Floor.inAgeOrder_queue (now : Clock) (f : Floor) : (f.inAgeOrder now).queue = f.queue := rfl

@[simp] theorem Floor.inAgeOrder_holders (now : Clock) (f : Floor) :
    (f.inAgeOrder now).holders = sortBy (holderBefore now) f.holders := rfl

/-- Within 2^31 behind one counter, the earlier of two stamps is the one with the greater age (R67, R148). -/
theorem stampEarlier_eq_age {now x y : Clock} (hx : age now x < 2147483648) (hy : age now y < 2147483648) :
    stampEarlier x y = decide (age now y < age now x) := by
  unfold stampEarlier
  unfold age at *
  rw [show x - y = (now - y) - (now - x) by bv_omega]
  generalize now - x = u at *
  generalize now - y = v at *
  rw [decide_eq_decide, BitVec.toInt_eq_toNat_cond, BitVec.toNat_sub]
  omega

/-- What the advance of the hall clock changes (R138, R4, R65, R97). -/
theorem advanceClock_eq (s : State) :
    advanceClock s =
      { s with
        clock := s.clock + 1
        edgeSeen := true
        settleAtFrame := s.hall.wallSettle
        floors := s.floors.map (Floor.inAgeOrder (s.clock + 1)) } := rfl

/-! ### Release entries (R150) -/

@[simp] theorem Release.atEnd_iff (e : Release) : e.atEnd = true ↔ e.gain = 0 ∧ e.fresh = false := by
  simp [Release.atEnd]

/-! ### The reset input (R197) -/

@[simp] theorem holdReset_held (s : State) : (holdReset s).held = true := rfl

@[simp] theorem holdReset_pending (s : State) : (holdReset s).pending = s.pending := rfl

@[simp] theorem Trunk.supplyOff_power (r : Trunk) : r.supplyOff.power = .unpowered := rfl

@[simp] theorem Trunk.supplyOff_supervision (r : Trunk) : r.supplyOff.supervision = none := rfl

@[simp] theorem Trunk.supplyOff_linkUp (r : Trunk) : r.supplyOff.linkUp = false := rfl

/-- What a held reset leaves alone: everything but the mark, the trunk supplies, the transmitters and the outputs. -/
theorem holdReset_eq (s : State) :
    holdReset s =
      { s with
        held := true
        trunks := (holdReset s).trunks
        ports := (holdReset s).ports
        paOut := Tab.replicate 6 silence
        tapOut := Tab.replicate 4 silence
        downlinks := Tab.replicate 6 none } := rfl

end Sys2Proof.Machine
end

