-- ==== Sys2Proof/Tests/Slice0.lean ====
section
/-! SUPPORT. Tests of single steps against the worked examples and tables of the spec, the smoke test of WellFormed,
decoding of messages written out by hand, and a state for the hypotheses of every statement. -/

namespace Sys2Proof.Tests

open Sys2Proof Sys2Proof.Machine Sys2Proof.Safety

/-! The kernel evaluates one test at a time: elaborated in parallel, every `decide +kernel` waits on a thread of its own for
the tests before it, and the stacks of the threads that wait outgrow the memory the check allows. -/

set_option Elab.async false

/-! ### States the tests start from -/

/-- The state an event leaves. -/
def after (c : Instr) (s : State) : Option State :=
  match exec c s with
  | .next t => some t
  | .fault _ => none
  | .refused _ => none

/-- A part of the state an event leaves. -/
def see {α : Type} (c : Instr) (s : State) (f : State → α) : Option α :=
  (after c s).map f

/-- All walls closed, every port ATTACHED, every trunk LOCKED, every seat ONLINE, hall clock 100,000. -/
def hall : State :=
  { State.powerOn (Tab.replicate 7 .closed) with
    clock := 100000
    edgeSeen := true
    ports := Tab.replicate 6 { PortRec.atReset with attached := true, receiver := .hunt }
    rooms := Tab.ofFn fun a => some { members := [a], lead := some a, status := .steady }
    trunks :=
      Tab.replicate 6
        { Trunk.atReset with
          power := .live
          warmDeadline := none
          supervision := some .locked
          predictor := 0x0220
          linkUp := true }
    seats := Tab.replicate 240 { Seat.atReset with online := true, lastToggle := some false } }

/-- A seat by the manual's number. -/
def seat (n : Nat) (h : n - 1 < 240 := by decide) : SeatId := ⟨n - 1, h⟩

/-- A speaker entry that is OPEN. -/
def speaking (i : SeatId) (time : Clock) : Speaker where
  seat := i
  grantTime := time
  state := .opened
  chairAtGrant := false
  byPriority := false
  deadline := none
  remaining := none
  level := 0
  gain := 0

/-- A speaker entry of a chair. -/
def chairing (i : SeatId) (time : Clock) : Speaker :=
  { speaking i time with chairAtGrant := true }

/-- A request entry. -/
def asking (i : SeatId) (stamp : Clock) : Request where
  seat := i
  stamp := stamp
  returned := false

/-- The state with seats made chairs. -/
def withChairs (s : State) (chairs : List SeatId) : State :=
  chairs.foldl (fun t i => t.modSeat i fun x => { x with chair := true }) s

/-- The state with a floor in a room, the pool reduced by its queue. -/
def withFloor (s : State) (a : Segment) (f : Floor) : State :=
  { s with floors := s.floors.set a f, poolFree := s.poolFree - f.queue.length }

/-- The state with part of a profile changed. -/
def withProfile (s : State) (a : Segment) (mode : FloorMode) (maxOpen : Nat) : State :=
  { s with profiles := s.profiles.modify a fun x => { x with floorMode := mode, maxOpen := maxOpen } }

/-- A room record that is STEADY and led by its anchor's port. -/
def steady (members : List Segment) : Option Room :=
  some { members := members, lead := members.head?, status := .steady }

/-- A wall record that is FORCED_OPEN and committed. -/
def openWall : Wall :=
  { Wall.atReset .closed with mode := .forcedOpen, effective := .opened, committed := .opened }

/-- `hall` with wall W1 open and rooms 1 = S1, S2 and 3 to 6. -/
def merged : State :=
  { hall with
    walls := hall.walls.set 0 openWall
    rooms := (hall.rooms.set 0 (steady [0, 1])).set 1 none }

/-- An uplink frame with the word that `hall` predicts, 0x0CC0, and one event. -/
def press (position : Nat) (kind : EventKind) (toggle : Bool) : UplinkFrame where
  word := 0x0CC0
  events := [{ position := position, kind := kind, toggle := toggle }]
  audio := Tab.replicate 16 silence

/-- A reply. -/
def reply (tag : Byte) (code : ReplyCode) (results : List Byte) : Reply where
  tag := tag
  code := code
  results := results

/-- The replies and the notices that a port holds. -/
def heard (p : Port) (t : State) : List Reply × List NoticeBody :=
  ((t.ports.get p).replies, (t.ports.get p).notices.map Notice.body)

/-- The seats of the speaker list, the stamps of the request queue and the free pool entries. -/
def floorView (a : Segment) (t : State) : List SeatId × List (SeatId × Clock) × Nat :=
  ((t.floors.get a).speakers.map Speaker.seat, (t.floors.get a).queue.map (fun q => (q.seat, q.stamp)), t.poolFree)

/-! ### WellFormed refuses ill-formed commands -/

theorem test_order_missing_share_refused : wellFormed (.commit (allShares.erase .taps)) = false := by decide

theorem test_order_double_share_refused : wellFormed (.commit (.taps :: allShares)) = false := by decide

theorem test_order_trunk_before_floor_refused :
    wellFormed (.commit (.trunk 2 :: allShares.erase (.trunk 2))) = false := by decide

theorem test_two_events_of_a_position_refused :
    wellFormed
      (.uplinkFrame 0
        { word := 0
          events := [⟨3, .talk, true⟩, ⟨3, .bye, false⟩]
          audio := Tab.replicate 16 silence }) = false := by decide

theorem test_grant_of_seat_zero_refused : wellFormed (.grant 0 0x2A 0 1) = false := by decide

theorem test_good_order_accepted : wellFormed (.commit allShares) = true := by decide

/-! ### Messages written out by hand (08, "Command layouts"; "Example: a grant on the line") -/

theorem test_decode_grant : decodeCommand 0 [0x30, 0x2A, 0x0C, 0x01, 0x99] = some (.grant 0 0x2A 0x0C 1) := by decide

theorem test_decode_grant_next : decodeCommand 0 [0x30, 0x2A, 0x00, 0x01, 0xA5] = some (.grantNext 0 0x2A 1) := by decide

theorem test_decode_grant_short : decodeCommand 0 [0x30, 0x2A, 0x0C, 0x9A] = none := by decide

theorem test_decode_hall :
    decodeCommand 4 [0x03, 0x01, 0x01, 0xF4, 0x03, 0xE8, 0x00, 0xFA, 0x22] = some (.setHall 4 1 500 1000 250) := by
  decide

theorem test_decode_trunk_power : decodeCommand 1 [0x20, 0x07, 0x02, 0x00, 0xD7] = some (.trunkPower 1 7 2 0) := by decide

theorem test_decode_relay : decodeCommand 1 [0x42, 0x07, 0x01, 0x02, 0xB4] = some (.setRelay 1 7 1 2) := by decide

theorem test_decode_pa_gain :
    decodeCommand 2 [0x50, 0x09, 0x03, 0x08, 0x00, 0x9C] = some (.setPaGain 2 9 3 2048) := by decide

theorem test_decode_reply_code_refused : decodeCommand 2 [0xE0, 0x09, 0x17] = none := by decide

theorem test_no_word_spells_a_command : decodeTableWord 8 1 = none := by decide

theorem test_grant_reply_bytes :
    replyBytes 30 (reply 0x2A .done [0x0C, 0x03, 0x00, 0x02, 0x74, 0xE8]) =
      [0xE0, 0x2A, 0x00, 0x1E, 0x0C, 0x03, 0x00, 0x02, 0x74, 0xE8, 0x6B] := by decide

theorem test_grant_notice_bytes :
    noticeBytes { clock := 41000, body := .floor 0 (seat 12) .granted .byCommand } =
      [0xE1, 0x04, 0x00, 0x00, 0xA0, 0x28, 0x01, 0x0C, 0x01, 0x02, 0x43] := by decide +kernel

/-! ### Reset and the frame event -/

theorem test_reset_values :
    see (.powerOnReset (some (Tab.replicate 7 .opened))) hall (fun t =>
      (t.clock, t.poolFree, (t.walls.get 3).changeTime, (t.trunks.get 5).warmDeadline, (t.ports.get 0).attached)) =
      some (0, 96, some 0, some 1000, false) := by decide +kernel

/-- `hall` with the reset input low (R197). -/
def dark : State :=
  (after (.powerOnReset none) hall).getD hall

theorem test_held_reset :
    (dark.held, (dark.trunks.get 0).power, (dark.ports.get 0).transmitter) = (true, .unpowered, .idle) ∧
      see (.frameEvent 1000 (Tab.replicate 7 .opened) (Tab.replicate 8 none)) dark (fun t =>
        (t.clock, (t.walls.get 0).raw)) = some (dark.clock, (dark.walls.get 0).raw) := by decide +kernel

/-- The gain table of 06, "Example: a second speaker joins and the first closes", frame 20,001. -/
def twoSpeakers : State :=
  withFloor
    { hall with
      trunks :=
        hall.trunks.modify 2 fun r =>
          { r with
            channels := (r.channels.set 0 (some (seat 85))).set 1 (some (seat 90))
            audio := some ((Tab.replicate 16 silence).set 0 (Tab.replicate 48 768000) |>.set 1 (Tab.replicate 48 256000)) } }
    2
    { speakers := [{ speaking (seat 85) 10 with level := 3000, gain := 4096 }, speaking (seat 90) 20]
      queue := []
      holders := [] }

theorem test_frame_gains :
    see (.frameEvent 1000 (Tab.replicate 7 .closed) (Tab.replicate 8 none)) twoSpeakers (fun t =>
      ((t.floors.get 2).speakers.map fun e => (e.level, e.gain), t.clock)) =
      some ([(3000, 3932), (125, 163)], 100001) := by decide +kernel

/-- R65: an entry whose age passes 2^32 goes from the head of the list to its end. -/
theorem test_frame_orders_by_age :
    see (.frameEvent 1000 (Tab.replicate 7 .closed) (Tab.replicate 8 none))
      (withFloor hall 0 { Floor.empty with speakers := [speaking (seat 1) 100001, speaking (seat 2) 5] }) (fun t =>
      (t.floors.get 0).speakers.map Speaker.seat) = some [seat 2, seat 1] := by decide +kernel

theorem test_frame_edge_too_soon :
    see (.frameEvent 899 (Tab.replicate 7 .opened) (Tab.replicate 8 none)) hall (fun t =>
      (t.clock, (t.walls.get 0).raw)) = some (100000, .closed) := by decide +kernel

/-! ### Examples of the room relation, the check words and the frame arithmetic -/

/-- The walls with the given numbers open. -/
def openWalls (numbers : List Nat) : WallMap :=
  Tab.ofFn fun w => if numbers.contains (w.val + 1) then .opened else .closed

theorem test_rooms_of_R15 :
    (component (openWalls [1]) 1, component (openWalls [2, 7]) 5, component (openWalls [3, 4]) 3,
      component (openWalls [1, 3, 5, 6]) 4, component (openWalls [1, 3, 5]) 4, component (openWalls [1]) 2) =
      ([0, 1], [1, 2, 5], [3, 4, 5], [0, 1, 3, 4], [0, 1, 3, 4], [2]) := by decide

/-- The first words that a generator sends after power-on reset (R37). -/
def words : Nat → BitVec 15 → List (BitVec 16)
  | 0, _ => []
  | n + 1, r => (nextWord r).2 :: words n (nextWord r).1

theorem test_words_of_R37 : words 6 0x7FFF = [0x0002, 0x000C, 0x0028, 0x00F0, 0x0220, 0x0CC0] := by decide +kernel

theorem test_level_of_R143 :
    see (.frameEvent 1000 (Tab.replicate 7 .closed) (Tab.replicate 8 none))
      (withFloor
        { hall with
          trunks :=
            hall.trunks.modify 0 fun r =>
              { r with
                channels := r.channels.set 4 (some (seat 1))
                audio := some ((Tab.replicate 16 silence).set 4 (Tab.replicate 48 (-768000))) } }
        0 { speakers := [{ speaking (seat 1) 10 with level := 2800 }], queue := [], holders := [] })
      (fun t => (t.floors.get 0).speakers.map Speaker.level) = some [2825] := by decide +kernel

/-- Roundings of 06, R152 and "Example: gain sharing in one frame", and of 09, "One sample of frame 50,004". -/
theorem test_roundings :
    [roundUnity 266240000, roundUnity (-6144), roundUnity 6144, roundUnity (-26164000)] = [65000, -1, 2, -6388] ∧
      scaleRaw (-6388) 3072 = -4791 ∧ scaleRaw (-4791) 4096 = -4791 ∧ scaleRaw (-4791) 2048 = -2395 := by decide

/-! ### Walls, consents and the commit -/

/-- 01, "Example: joining a third segment": W1 is open, the debounce of W2 ends at 300,500. -/
def joining (clock : Clock) : State :=
  { merged with
    clock := clock
    walls := merged.walls.modify 1 fun r => { r with raw := .opened, changeTime := some 300000 } }

theorem test_debounce_end_drains :
    see (.debounceEnd 1) (joining 300500) (fun t =>
      (t.repartition.map Repartition.affected, allSegments.map (isDraining t), (t.trunks.get 2).holding)) =
        some (some [0, 2], [true, false, true, false, false, false], true) ∧
      see (.debounceEnd 1) (joining 300500) (fun t => ((heard 1 t).2, (t.mixes.get 2).phase)) =
        some ([.wall 1 .sensed .opened .opened .closed, .room 0 [0, 1] (some 0) .draining], .falling) := by
  decide +kernel

theorem test_debounce_runs_on :
    see (.debounceEnd 1) (joining 300499) (fun t => ((t.walls.get 1).sensed, t.repartition)) =
      some (.closed, none) := by decide +kernel

/-- The same repartition with both rooms reported ready. -/
def drained : State :=
  { joining 300516 with
    walls :=
      merged.walls.set 1
        { Wall.atReset .opened with changeTime := none, sensed := .opened, effective := .opened }
    rooms := (merged.rooms.set 0 (some ⟨[0, 1], some 0, .draining⟩)).set 2 (some ⟨[2], some 2, .draining⟩)
    repartition := some { target := openWalls [1, 2], affected := [0, 2], ready := [0, 2] } }

theorem test_commit_rebuilds_rooms :
    see (.commit allShares) drained (fun t => (t.rooms, t.repartition.isSome)) =
        some (⟨[steady [0, 1, 2], none, none, steady [3], steady [4], steady [5]], rfl⟩, false) ∧
      see (.commit allShares) drained (fun t => ((heard 2 t).2, (t.mixes.get 0).fade, (t.mixes.get 0).phase)) =
        some ([.wall 1 .sensed .opened .opened .opened, .room 0 [0, 1, 2] (some 0) .steady], 0, .rising) := by
  decide +kernel

/-- 03, "Example: a merge that trims two speakers": rooms 1 and 2 are ready for the commit. -/
def trimming : State :=
  { hall with
    stampCounter := 1300
    poolFree := 93
    walls :=
      hall.walls.set 0 { openWall with committed := .closed }
    rooms := (hall.rooms.set 0 (some ⟨[0], some 0, .draining⟩)).set 1 (some ⟨[1], some 1, .draining⟩)
    repartition := some { target := openWalls [1], affected := [0, 1], ready := [0, 1] }
    seats := (withChairs hall [seat 3, seat 41]).seats
    floors :=
      (hall.floors.set 0
        { speakers :=
            [chairing (seat 3) 40000, speaking (seat 12) 41000, speaking (seat 20) 42500, speaking (seat 7) 44000,
              speaking (seat 15) 45000]
          queue := [asking (seat 9) 1200]
          holders := [] }).set 1
        { speakers :=
            [speaking (seat 55) 40500, speaking (seat 60) 43000, speaking (seat 70) 44000, speaking (seat 48) 46000,
              chairing (seat 41) 46500, speaking (seat 66) 47000, speaking (seat 58) 47500]
          queue := [asking (seat 50) 1190, asking (seat 52) 1210]
          holders := [] } }

theorem test_commit_trims :
    see (.commit allShares) trimming (fun t => (floorView 0 t, t.stampCounter)) =
      some (([seat 3, seat 55, seat 12, seat 20, seat 60, seat 7, seat 70, seat 15, seat 48, seat 41],
        [(seat 66, 1300), (seat 58, 1301), (seat 50, 1190), (seat 9, 1200), (seat 52, 1210)], 91), 1302) := by
  decide +kernel

/-- Rooms 1 and 2 before their commit, with an AUTO_QUEUE whose head holds the newest of seven release entries. -/
def seven : State :=
  { trimming with
    floors := hall.floors.set 1 { Floor.empty with queue := [asking (seat 50) 3] }
    poolFree := 95
    releaseCounter := 8
    mixes :=
      (hall.mixes.set 0
        { MixRoom.atReset with
          fade := 0
          phase := .silent
          release :=
            [⟨seat 10, 9, 1, false⟩, ⟨seat 11, 9, 2, false⟩, ⟨seat 12, 9, 3, false⟩, ⟨seat 13, 9, 4, false⟩,
              ⟨seat 14, 9, 5, false⟩, ⟨seat 15, 9, 6, false⟩] }).set 1
        { MixRoom.atReset with fade := 0, phase := .silent, release := [⟨seat 50, 9, 7, false⟩] } }

/-- R159: a grant that comes before the mix engine's share keeps its entry out of the gathered seven. -/
theorem test_grant_before_gathering :
    see (.commit allShares) seven (fun t => (t.mixes.get 0).release.map Release.seat) =
        some [seat 11, seat 12, seat 13, seat 14, seat 15] ∧
      see (.commit (allShares.erase .mix ++ [.mix])) seven (fun t => (t.mixes.get 0).release.map Release.seat) =
        some [seat 10, seat 11, seat 12, seat 13, seat 14, seat 15] := by
  decide +kernel

/-- Wall W7 with a consent record of P3 that expires at 100,000. -/
def consenting (mode : WallMode) : State :=
  hall.modWall 6 fun r =>
    { r with mode := mode, effective := effectiveFor mode r.sensed, consent := some { requester := 2, expiry := 100000 } }

theorem test_consent_expires :
    see (.consentExpiry 6) (consenting .sensed) (fun t => ((t.walls.get 6).consent, (heard 2 t).2, (heard 5 t).2)) =
      some (none, [.consent 6 .expired 2 100000], []) := by decide +kernel

theorem test_set_wall_asks_consent :
    see (.setWall 2 7 7 1) hall (fun t => ((t.walls.get 6).consent, heard 2 t, (heard 5 t).2)) =
      some (some { requester := 2, expiry := 110000 }, ([reply 7 .pending [0, 0x00, 0x01, 0xAD, 0xB0]], []),
        [.consent 6 .pending 2 110000]) := by decide +kernel

theorem test_set_wall_confirmed :
    see (.setWall 5 8 7 1) (consenting .sensed) (fun t =>
      ((t.walls.get 6).mode, (t.walls.get 6).consent, t.repartition.map Repartition.affected)) =
        some (.forcedOpen, none, some [2, 5]) ∧
      see (.setWall 5 8 7 1) (consenting .sensed) (fun t => ((heard 5 t).1, (heard 2 t).2)) =
        some ([reply 8 .done [1, 0, 0, 0, 0]],
          [.wall 6 .forcedOpen .closed .opened .closed, .room 2 [2] (some 2) .draining]) := by
  decide +kernel

theorem test_read_wall :
    see (.readWall 0 7 2) (joining 300400) (fun t => (heard 0 t).1) =
      some [reply 7 .done [0, 1, 0, 0, 0, 0x00, 0x04, 0x93, 0xE0, 0, 0, 0, 0, 0]] := by decide +kernel

theorem test_read_room :
    see (.readRoom 1 7 0) { merged with mixes := merged.mixes.modify 0 fun m => { m with clip := true } } (fun t =>
      ((heard 1 t).1, (t.mixes.get 0).clip)) =
      some ([reply 7 .done [1, 0x03, 1, 0, 1]], false) := by decide +kernel

theorem test_ready_report :
    see (.readyReport 0)
      { drained with
        mixes := drained.mixes.modify 0 fun m => { m with fade := 0, phase := .falling }
        repartition := some { target := openWalls [1, 2], affected := [0, 2], ready := [2] } } (fun t =>
      ((t.mixes.get 0).phase, t.repartition.map Repartition.ready)) = some (.silent, some [2, 0]) := by decide +kernel

/-! ### Settings, clock and profiles -/

theorem test_set_hall_clamps :
    see (.setHall 0 7 49 5001 250) hall (fun t => (t.hall, (heard 0 t).1, (heard 5 t).2)) =
      some (⟨50, 5000, 250⟩, [reply 7 .adjusted [0x00, 0x32, 0x13, 0x88, 0x00, 0xFA]], [.hall ⟨50, 5000, 250⟩]) := by
  decide +kernel

theorem test_read_hall :
    see (.readHall 0 7) State.reset (fun t => (heard 0 t).1) =
      some [reply 7 .done [0x01, 0xF4, 0x03, 0xE8, 0x00, 0xFA]] := by decide +kernel

theorem test_read_clock :
    see (.readClock 0 7) hall (fun t => (heard 0 t).1) = some [reply 7 .done [0x00, 0x01, 0x86, 0xA0]] := by
  decide +kernel

theorem test_set_profile_clamps :
    see (.setProfile 0 7 1 0 200 5000 4 5000) hall (fun t => (t.profiles.get 0, (heard 0 t).1)) =
      some (⟨.autoQueue, 1, 96, 3600, 16, 4096⟩,
        [reply 7 .adjusted [1, 1, 96, 0x0E, 0x10, 0x00, 0x10, 0x10, 0x00]]) := by decide +kernel

theorem test_set_profile_direct_empties_queue :
    see (.setProfile 0 7 0 4 24 0 256 4096)
      (withFloor hall 0 { Floor.empty with queue := [asking (seat 9) 3, asking (seat 8) 4] }) (fun t =>
      (floorView 0 t, (heard 0 t).2, (t.trunks.get 0).refusals.get 8)) =
      some (([], [], 96), [.floor 0 (seat 9) .dequeued .modeDirect, .floor 0 (seat 8) .dequeued .modeDirect], true) := by
  decide +kernel

theorem test_read_profile :
    see (.readProfile 1 7 0) merged (fun t => (heard 1 t).1) =
      some [reply 7 .done [1, 1, 4, 24, 0, 0, 0x01, 0x00, 0x10, 0x00]] := by decide +kernel

/-! ### Trunks -/

theorem test_warming_ends :
    see (.warmingExpiry 3) { State.reset with clock := 1000 } (fun t =>
      ((t.trunks.get 3).power, (t.trunks.get 3).supervision, (t.trunks.get 3).warmDeadline)) =
      some (.live, some .hunt, none) := by decide +kernel

theorem test_warming_runs_on :
    see (.warmingExpiry 3) { State.reset with clock := 999 } (fun t => (t.trunks.get 3).power) = some .warming := by
  decide +kernel

/-- `hall` with a trunk in another supervision state. -/
def supervised (k : TrunkId) (x : Supervision) (hold : Option Clock) : State :=
  hall.modTrunk k fun r => { r with supervision := some x, holdDeadline := hold }

/-- 02, "Example: from HUNT to LOCKED", the last row. -/
theorem test_locked_frame :
    see (.uplinkFrame 0 { (press 1 .talk true) with word := 0x0CC3 }) hall (fun t =>
      ((t.trunks.get 0).live, (t.trunks.get 0).blockPos, (t.trunks.get 0).blockErrors, (t.trunks.get 0).predictor)) =
      some (⟨1, 1, 2, 0⟩, 1, 1, 0x0CC0) := by decide +kernel

/-- 03, "Example: an automatic queue", at 12,000. -/
def autoQueue : State :=
  withFloor
    (withProfile { hall with clock := 12000, stampCounter := 502, poolFree := 90 } 2 .autoQueue 2) 2
    { speakers := [speaking (seat 85) 10000, speaking (seat 90) 10200, chairing (seat 81) 11000]
      queue := [asking (seat 97) 500, asking (seat 110) 501]
      holders := [] }

theorem test_talk_closes_and_advances :
    see (.uplinkFrame 2 (press 5 .talk true)) autoQueue (fun t =>
      (floorView 2 t, (heard 2 t).2, (t.trunks.get 2).acks.get 4)) =
      some (([seat 90, seat 81, seat 97], [(seat 110, 501)], 89),
        [.floor 2 (seat 85) .closed .bySeat, .floor 2 (seat 97) .granted .none], some true) := by decide +kernel

theorem test_missing_frame :
    see (.missingFrame 0) hall (fun t => ((t.trunks.get 0).live, (t.trunks.get 0).predictor)) =
      some (⟨1, 1, 16, 0⟩, 0x0CC0) := by decide +kernel

theorem test_sixth_errored_frame_loses_sync :
    see (.missingFrame 0) (hall.modTrunk 0 fun r => { r with blockErrors := 5 }) (fun t =>
      ((t.trunks.get 0).supervision, (t.trunks.get 0).live.syncLosses, (t.trunks.get 0).holdDeadline)) =
      some (some .hunt, 1, some 100250) := by decide +kernel

theorem test_hold_expires :
    see (.holdExpiry 1)
      (withFloor (supervised 1 .hunt (some 100000)) 1 { Floor.empty with speakers := [speaking (seat 43) 5] }) (fun t =>
      ((t.trunks.get 1).linkUp, t.seats.get (seat 43), (t.floors.get 1).speakers.length,
        (t.mixes.get 1).release.length)) = some (false, Seat.atReset, 0, 0) := by decide +kernel

theorem test_trunk_power_off :
    see (.trunkPower 1 7 2 0) hall (fun t =>
      ((t.trunks.get 1).power, (t.trunks.get 1).linkUp, (t.seats.get (seat 80)).online, (heard 1 t).1)) =
      some (.unpowered, false, false, [reply 7 .done [0]]) := by decide +kernel

theorem test_trunk_power_other_segment :
    see (.trunkPower 0 7 2 0) hall (fun t => ((t.trunks.get 1).power, (heard 0 t).1)) =
      some (.live, [reply 7 .notSegment []]) := by decide +kernel

theorem test_trunk_restart :
    see (.trunkRestart 1 7 2) hall (fun t =>
      ((t.trunks.get 1).supervision, (t.trunks.get 1).linkUp, (t.trunks.get 1).holdDeadline, (heard 1 t).2)) =
      some (some .hunt, true, some 100250, [.trunk 1 .live (some .hunt) true (some 100250)]) := by decide +kernel

theorem test_trunk_test :
    see (.trunkTest 1 7 2) hall (fun t => ((t.trunks.get 1).testPending, (heard 1 t).1)) =
      some (true, [reply 7 .done []]) := by decide +kernel

theorem test_trunk_test_in_hunt :
    see (.trunkTest 1 7 2) (supervised 1 .hunt (some 100250)) (fun t =>
      ((t.trunks.get 1).testPending, (heard 1 t).1)) = some (false, [reply 7 .trunkNotLive []]) := by decide +kernel

theorem test_snapshot :
    see (.snapshot 1 7 2) (hall.modTrunk 1 fun r => { r with live := ⟨256, 3, 40, 1⟩ }) (fun t =>
      ((t.trunks.get 1).live, (heard 1 t).1)) =
      some (⟨0, 0, 0, 0⟩,
        [reply 7 .done [0, 0, 1, 0, 0, 0, 0, 3, 0, 0, 0, 40, 0, 0, 0, 1, 0x00, 0x01, 0x86, 0xA0]]) := by decide +kernel

theorem test_read_trunk :
    see (.readTrunk 0 7 6) State.reset (fun t => (heard 0 t).1.map fun r => (r.results.length, r.results.take 12)) =
      some [(48, [1, 0x00, 0x00, 0x03, 0xE8, 0, 0, 0, 0, 0, 0, 0])] := by decide +kernel

/-! ### Seats and the floor -/

theorem test_set_seat :
    see (.setSeat 0 7 12 0 1) hall (fun t => (heard 0 t).1) = some [reply 7 .done [12, 1, 0, 1, 0, 0, 0, 0]] := by
  decide +kernel

theorem test_set_seat_busy :
    see (.setSeat 0 7 12 0 1) (withFloor hall 0 { Floor.empty with queue := [asking (seat 12) 3] }) (fun t =>
      ((heard 0 t).1, (t.seats.get (seat 12)).enabled)) = some ([reply 7 .seatBusy []], true) := by decide +kernel

theorem test_read_seat :
    see (.readSeat 0 7 12) State.reset (fun t => (heard 0 t).1) =
      some [reply 7 .done [12, 0, 1, 0, 0xFF, 0, 0, 0]] := by decide +kernel

/-- 08, "Example: a grant on the line": channels 1 and 2 are taken. -/
def granting : State :=
  let s := hall.modTrunk 0 fun r => { r with channels := (r.channels.set 0 (some (seat 1))).set 1 (some (seat 2)) }
  { s with clock := 41000, profiles := s.profiles.modify 0 fun x => { x with speechLimit := 120 } }

theorem test_grant :
    see (.grant 0 0x2A 0x0C 1) granting (fun t => (heard 0 t)) =
      some ([reply 0x2A .done [0x0C, 0x03, 0x00, 0x02, 0x74, 0xE8]], [.floor 0 (seat 12) .granted .byCommand]) := by
  decide +kernel

theorem test_grant_bad_seat :
    see (.grant 0 0x2A 0xF5 1) granting (fun t => heard 0 t) = some ([reply 0x2A .badArgument []], []) := by
  decide +kernel

theorem test_message_of_a_grant :
    see (.messageArrival 0)
      (granting.modPort 0 fun r => { r with buffer := [0x30, 0x2A, 0x0C, 0x01, 0x99], gapRunning := true })
      (fun t => ((t.ports.get 0).buffer, (heard 0 t).1)) =
      some ([], [reply 0x2A .done [0x0C, 0x03, 0x00, 0x02, 0x74, 0xE8]]) := by decide +kernel

theorem test_message_sum_wrong :
    see (.messageArrival 0)
      (granting.modPort 0 fun r => { r with buffer := [0x30, 0x2A, 0x0C, 0x01, 0x98], gapRunning := true })
      (fun t => heard 0 t) = some ([], [.linkFault .sum 0]) := by decide +kernel

theorem test_grant_next_replaces :
    see (.grantNext 2 7 1) autoQueue (fun t => (floorView 2 t, (heard 2 t).2)) =
      some (([seat 90, seat 81, seat 97], [(seat 110, 501)], 89),
        [.floor 2 (seat 85) .closed .replaced, .floor 2 (seat 97) .granted .byCommand]) := by decide +kernel

theorem test_grant_next_full :
    see (.grantNext 2 7 0) autoQueue (fun t => (floorView 2 t).1.length) = some 3 := by decide +kernel

theorem test_close_moves_gain_to_release :
    see (.close 0 7 12)
      (withFloor { hall with releaseCounter := 900 } 0
        { Floor.empty with speakers := [{ speaking (seat 12) 5 with level := 3000, gain := 3691 }] }) (fun t =>
      ((t.mixes.get 0).release, t.releaseCounter, heard 0 t)) =
      some ([⟨seat 12, 3691, 900, true⟩], 901, [reply 7 .done []], [.floor 0 (seat 12) .closed .byCommand]) := by
  decide +kernel

theorem test_deny_marks_refusal :
    see (.deny 2 7 110) autoQueue (fun t => (floorView 2 t, (t.trunks.get 2).refusals.get 29, (heard 2 t).2)) =
      some (([seat 85, seat 90, seat 81], [(seat 97, 500)], 89), true,
        [.floor 2 (seat 110) .dequeued .denied]) := by decide +kernel

theorem test_enqueue :
    see (.enqueue 2 7 100) autoQueue (fun t => (floorView 2 t, t.stampCounter, (heard 2 t).1)) =
      some (([seat 85, seat 90, seat 81], [(seat 97, 500), (seat 110, 501), (seat 100, 502)], 87), 503,
        [reply 7 .done [0, 0, 0x01, 0xF6, 3]]) := by decide +kernel

theorem test_clear_both :
    see (.clear 2 7 3) autoQueue (fun t => (floorView 2 t, (heard 2 t).2.length)) =
      some (([], [], 90), 5) := by decide +kernel

/-- 04, "Example: priority taken and given back", before 100,000. -/
def beforePriority : State :=
  let s := withChairs (withProfile hall 1 .autoQueue 3) [seat 41, seat 44]
  withFloor { s with profiles := s.profiles.modify 1 fun x => { x with speechLimit := 120 } } 1
    { speakers :=
        [{ speaking (seat 50) 80000 with deadline := some 200000 },
          { speaking (seat 53) 90000 with deadline := some 210000 },
          { speaking (seat 60) 95000 with deadline := some 215000 }]
      queue := [asking (seat 65) 3]
      holders := [] }

theorem test_priority_taken :
    see (.uplinkFrame 1 (press 1 .priorityDown true)) beforePriority (fun t =>
      ((t.floors.get 1).speakers.map (fun e => (e.seat, e.state, e.remaining)), (t.floors.get 1).holders,
        (heard 1 t).2.length)) =
      some ([(seat 50, .suspended, some 100000), (seat 53, .suspended, some 110000),
        (seat 60, .suspended, some 115000), (seat 41, .opened, none)], [⟨seat 41, 100000⟩], 5) := by decide +kernel

/-- 04, the same example before the PRIORITY_CANCEL at 175,000. -/
def underPriority : State :=
  { beforePriority with
    clock := 175000
    floors :=
      beforePriority.floors.set 1
        { speakers :=
            [{ speaking (seat 50) 80000 with state := .suspended, remaining := some 100000 },
              { speaking (seat 60) 95000 with state := .suspended, remaining := some 115000 },
              { chairing (seat 44) 130000 with byPriority := true }]
          queue := [asking (seat 65) 3]
          holders := [⟨seat 44, 130000⟩] } }

theorem test_priority_cancelled :
    see (.priorityCancel 1 7 0) underPriority (fun t =>
      (t.floors.get 1).speakers.map fun e => (e.seat, e.state, e.deadline)) =
        some [(seat 50, .opened, some 275000), (seat 60, .opened, some 290000), (seat 65, .opened, some 295000)] ∧
      see (.priorityCancel 1 7 0) underPriority (heard 1) =
        some ([reply 7 .done [0]],
          [.floor 1 (seat 44) .closed .priorityEnd, .floor 1 (seat 50) .resumed .none,
            .floor 1 (seat 60) .resumed .none, .priority 1 false, .floor 1 (seat 65) .granted .none]) := by
  decide +kernel

theorem test_deadline_in_draining_room :
    see (.deadlineExpiry (seat 130))
      (withFloor
        { hall with
          clock := 500004
          rooms := hall.rooms.set 3 (some ⟨[3], some 3, .draining⟩) } 3
        { Floor.empty with
          speakers := [{ speaking (seat 130) 9 with deadline := some 500004 }]
          queue := [asking (seat 131) 3] }) (fun t => (floorView 3 t, (heard 3 t).2)) =
      some (([], [(seat 131, 3)], 95), [.floor 3 (seat 130) .closed .timeUp]) := by decide +kernel

theorem test_read_floor :
    see (.readFloor 0 7 3 1 1 8) autoQueue (fun t => (heard 0 t).1) =
      some [reply 7 .done [3, 2, 2, 88, 0, 0, 0x01, 0xF6, 1, 110, 0, 0, 0x01, 0xF5, 0]] := by decide +kernel

theorem test_read_floor_speakers :
    see (.readFloor 0 7 2 0 0 0) underPriority (fun t => (heard 0 t).1) =
      some [reply 7 .adjusted
        ([2, 3, 2, 95, 0, 0, 0, 0, 1] ++ [50, 0x00, 0x01, 0x38, 0x80, 0x11, 0, 0, 0, 0, 0x00, 0x01, 0x86, 0xA0])] := by
  decide +kernel

theorem test_release_ends :
    see (.releaseEnd (seat 12))
      { (hall.modTrunk 0 fun r => { r with channels := r.channels.set 2 (some (seat 12)) }) with
        mixes := hall.mixes.modify 0 fun m => { m with release := [⟨seat 12, 0, 900, false⟩] } }
      (fun t => ((t.mixes.get 0).release, (t.trunks.get 0).channels.get 2)) = some ([], none) := by decide +kernel

/-- R150: an entry created with gain 0 ends at the next frame, not between frames. -/
theorem test_new_release_stays :
    see (.releaseEnd (seat 12)) (hall.modMix 0 fun m => { m with release := [⟨seat 12, 0, 900, true⟩] })
      (fun t => (t.mixes.get 0).release.length) = some 1 ∧
    see (.frameEvent 1000 (Tab.replicate 7 .closed) (Tab.replicate 8 none))
      (hall.modMix 0 fun m => { m with release := [⟨seat 12, 0, 900, true⟩] })
      (fun t => (t.mixes.get 0).release.length) = some 0 := by decide +kernel

/-! ### Booths, relays, PA gains and taps -/

/-- A booth that is assigned. -/
def booth (anchor : Segment) (language : Byte) (preferred : Slot) (allocation : Allocation)
    (source : Option BoothId := none) : Booth where
  assignment := some anchor
  language := some language
  preferred := some preferred
  source := source
  live := true
  allocation := allocation

/-- 05, "Example: placing five booths". -/
def fiveBooths : State :=
  { merged with
    booths :=
      (((merged.booths.set 2 (booth 0 10 0 (.onAir 0))).set 0 (booth 1 10 1 (.standby .duplicateLanguage))).set 1
        (booth 1 30 1 (.onAir 1))).set 4 (booth 0 20 2 (.onAir 2))
    slotMaps := merged.slotMaps.set 0 ⟨[some 2, some 1, some 4, none, none, none], rfl⟩ }

theorem test_assign_booth :
    see (.assignBooth 0 7 8 40 2) fiveBooths (fun t =>
      (t.booths.items.map Booth.allocation, (t.slotMaps.get 0).items, (heard 0 t).1, (heard 1 t).2.length)) =
      some ([.standby .duplicateLanguage, .onAir 3, .onAir 0, .unassigned, .onAir 2, .unassigned, .unassigned, .onAir 1],
        [some 2, some 7, some 4, some 1, none, none], [reply 7 .done [8, 1, 1, 40, 2, 2, 2, 0, 0, 0, 0]], 2) := by
  decide +kernel

theorem test_release_booth :
    see (.releaseBooth 0 7 3)
      { fiveBooths with booths := (fiveBooths.booths.set 7 (booth 0 40 1 (.onAir 1))).set 1 (booth 1 30 1 (.onAir 3)) }
      (fun t => (t.booths.items.map Booth.allocation, (heard 0 t).1)) =
      some ([.onAir 0, .onAir 3, .unassigned, .unassigned, .onAir 2, .unassigned, .unassigned, .onAir 1],
        [reply 7 .done [0]]) := by decide +kernel

/-- 05, "Example: relay checks", after the first command: B1 takes B2, B4 takes B1, B6 takes B5. -/
def relays : State :=
  { hall with
    walls := hall.walls.set 1 openWall
    rooms := (hall.rooms.set 1 (steady [1, 2])).set 2 none
    booths :=
      ⟨[booth 1 1 0 (.onAir 0) (some 1), booth 1 2 1 (.onAir 1), Booth.atReset, booth 1 4 2 (.onAir 2) (some 0),
        booth 2 5 3 (.onAir 3), booth 2 6 4 (.onAir 4) (some 4), Booth.atReset, Booth.atReset], rfl⟩ }

/-- The codes and results that a series of relays of booths gets, each from the same state. -/
def relayReply (b k : Byte) : Option (List (ReplyCode × List Byte)) :=
  see (.setRelay 1 7 b k) relays fun t => (heard 1 t).1.map fun r => (r.code, r.results)

theorem test_relays_refused :
    relayReply 2 6 = some [(.relayDepth, [])] ∧ relayReply 2 4 = some [(.relayLoop, [])] ∧
      relayReply 6 4 = some [(.relayDepth, [])] ∧ relayReply 3 1 = some [(.noSuch, [])] := by
  decide +kernel

theorem test_relay_set :
    see (.setRelay 1 7 6 2) relays (fun t => ((t.booths.get 5).source, heard 1 t)) =
      some (some 1, ([reply 7 .done [1]], [.relay 5 (some 1) 1 .set])) := by decide +kernel

theorem test_read_booth :
    see (.readBooth 4 7 1) relays (fun t => (heard 4 t).1) =
      some [reply 7 .done [1, 2, 2, 1, 1, 2, 1, 2, 1, 1, 1]] := by decide +kernel

theorem test_set_pa_gain :
    see (.setPaGain 2 9 3 5000) hall (fun t => (t.paGains.get 2, (heard 2 t).1)) =
      some (4096, [reply 9 .adjusted [0x10, 0x00]]) := by decide +kernel

theorem test_set_pa_gain_other_segment :
    see (.setPaGain 2 9 4 50) hall (fun t => (t.paGains.get 3, (heard 2 t).1)) =
      some (4096, [reply 9 .notSegment []]) := by decide +kernel

theorem test_join_tap :
    see (.joinTap 1 7 3 3 6) relays (fun t => (t.taps.get 2, (heard 1 t).1)) =
      some (some ⟨.boothOut 5, 1⟩, [reply 7 .done [2]]) := by decide +kernel

theorem test_join_tap_other_room :
    see (.joinTap 0 7 3 3 6) relays (fun t => (t.taps.get 2, (heard 0 t).1)) =
      some (none, [reply 7 .notSameRoom []]) := by decide +kernel

/-- `relays` with tap K3 joined by S3. -/
def tapped : State := relays.setTapOf 2 (some ⟨.slot 1, 2⟩)

theorem test_leave_tap_by_lead :
    see (.leaveTap 1 7 3) tapped (fun t => (t.taps.get 2, heard 1 t, (heard 2 t).2)) =
      some (none, ([reply 7 .done []], []), [.tap 2 (.slot 1) 2 .left]) := by decide +kernel

theorem test_read_tap :
    see (.readTap 0 7 3) tapped (fun t => (heard 0 t).1) = some [reply 7 .done [3, 1, 2, 2, 3, 2]] := by decide +kernel

/-! ### Ports -/

theorem test_attach_takes_lead :
    see (.attach 0 7)
      { merged with
        rooms := merged.rooms.set 0 (some ⟨[0, 1], some 1, .steady⟩)
        ports := merged.ports.modify 0 fun r => { r with attached := false } } (fun t =>
      (heard 0 t, (heard 1 t).2, leadOf t 0)) =
      some (([reply 7 .done [1, 1]], [.room 0 [0, 1] (some 0) .steady]), [.room 0 [0, 1] (some 0) .steady], some 0) := by
  decide +kernel

theorem test_detach_gives_lead :
    see (.detach 0 7) merged (fun t => ((t.ports.get 0).attached, (heard 0 t), (heard 1 t).2, leadOf t 0)) =
      some (false, ([reply 7 .done []], []), [.room 0 [0, 1] (some 1) .steady], some 1) := by decide +kernel

theorem test_port_reset :
    see (.portReset 5) (consenting .sensed) (fun t =>
      (t.ports.get 5, (t.walls.get 6).consent, leadOf t 5, (heard 2 t).2)) =
      some (PortRec.atReset, none, none, [.consent 6 .cancelled 2 100000]) := by decide +kernel

/-- A port in overflow whose transmitter sends its last notice, with one reply waiting. -/
def overflowing : State :=
  hall.modPort 1 fun r =>
    { r with
      overflow := true
      notices := [⟨80000, .overflow⟩]
      replies := [reply 5 .done []]
      transmitter := .notice [0xE1] }

theorem test_last_notice_sent :
    see (.messageSent 1) overflowing (fun t =>
      ((t.ports.get 1).overflow, (t.ports.get 1).notices, (t.ports.get 1).transmitter)) =
      some (false, [], .reply [0xE0, 5, 0, 32, 0xFB]) := by decide +kernel

theorem test_reply_sent :
    see (.messageSent 1)
      (hall.modPort 1 fun r => { r with replies := [reply 5 .done [], reply 6 .noSuch []], transmitter := .reply [] })
      (fun t => ((t.ports.get 1).replies, (t.ports.get 1).transmitter)) =
      some ([reply 6 .noSuch []], .reply [0xE0, 6, 0x20, 32, 0xDA]) := by decide +kernel

/-- The three samples of a clean bit. -/
def clean (b : Bool) : BitSamples := ⟨b, b, b⟩

theorem test_start_bit :
    (see (.startBit 0 ⟨false, true, false⟩) hall (fun t => (t.ports.get 0).receiver),
      see (.startBit 0 ⟨true, true, false⟩) hall (fun t => (t.ports.get 0).receiver)) =
      (some (.character true), some .hunt) := by decide +kernel

/-- The samples of the character 0x31 with its stop bit. -/
def character (stop : Bool) : Tab 9 BitSamples :=
  ⟨[clean true, clean false, clean false, clean false, clean true, clean true, clean false, clean false, clean stop],
    rfl⟩

theorem test_character :
    see (.characterComplete 0 (character true)) (hall.modPort 0 fun r => { r with receiver := .character false })
      (fun t => ((t.ports.get 0).buffer, (t.ports.get 0).lineFault, (t.ports.get 0).receiver)) =
      some ([0x31], false, .hunt) := by decide +kernel

theorem test_low_stop_bit :
    see (.characterComplete 0 (character false)) (hall.modPort 0 fun r => { r with receiver := .character false })
      (fun t => ((t.ports.get 0).buffer, (t.ports.get 0).lineFault, (t.ports.get 0).receiver)) =
      some ([0x31], true, .lowWait) := by decide +kernel

theorem test_low_wait_ends :
    see (.lineHighInLowWait 0) (hall.modPort 0 fun r => { r with receiver := .lowWait }) (fun t =>
      ((t.ports.get 0).receiver, (t.ports.get 0).gapRunning)) = some (.hunt, true) := by decide +kernel

theorem test_break_wait_ends :
    see (.breakWaitEnd 0) State.reset (fun t => ((t.ports.get 0).receiver, (t.ports.get 0).gapRunning)) =
      some (.hunt, false) := by decide +kernel

/-! ### States that meet the hypotheses of the statements

One theorem for each statement that has hypotheses (EventsAccepted has four, by kind of event); each of its clauses shows the hypotheses of one clause of the
statement met together, at the boundary of a range where there is one. -/

/-- A hypothesis about the value that is present, checked by looking. -/
theorem forall_some {α : Type} {o : Option α} {p : α → Prop} (h : ∀ d ∈ o, p d) : ∀ d, o = some d → p d := h

/-- A state with something of every kind in it: W1 is open; W4 was opened and drains rooms 5 and 6; W7 has a consent
record; W5 debounces; room 1 has a holder, a suspended speaker and a queue; a relay, a tap, full queues. -/
def busy : State :=
  { merged with
    walls :=
      (((merged.walls.set 3 { openWall with committed := .closed }).set 4
        { Wall.atReset .opened with changeTime := some 99900 })).set 6
        { Wall.atReset .closed with consent := some { requester := 2, expiry := 110000 } }
    rooms := (merged.rooms.set 4 (some ⟨[4], some 4, .draining⟩)).set 5 (some ⟨[5], some 5, .draining⟩)
    repartition := some { target := openWalls [1, 4], affected := [4, 5], ready := [5] }
    mixes :=
      ((merged.mixes.set 4 { MixRoom.atReset with fade := 256, phase := .falling }).set 5
        { MixRoom.atReset with fade := 0, phase := .silent }).modify 0 fun m => { m with release := [⟨seat 5, 300, 8, false⟩] }
    trunks :=
      ((((merged.trunks.modify 4 fun r => { r with holding := true, intake := [⟨seat 170, .talk, true⟩] }).modify 5
        fun r => { r with holding := true }).modify 3
        fun r => { r with supervision := some .hunt, holdDeadline := some 100200 }).set 2 Trunk.atReset).modify 0
        fun r => { r with channels := ((r.channels.set 0 (some (seat 3))).set 1 (some (seat 5))).set 7 (some (seat 12)) }
    seats := (withChairs merged [seat 3]).seats
    floors :=
      merged.floors.set 0
        { speakers :=
            [{ speaking (seat 12) 90000 with state := .suspended, remaining := some 500, level := 32768, gain := 4096 },
              { chairing (seat 3) 95000 with byPriority := true }]
          queue := [asking (seat 9) 7, asking (seat 41) 8]
          holders := [⟨seat 3, 95000⟩] }
    poolFree := 94
    stampCounter := 9
    releaseCounter := 9
    booths := (merged.booths.set 0 (booth 0 1 0 (.onAir 0))).set 1 (booth 1 2 0 (.onAir 1) (some 0))
    taps := merged.taps.set 1 (some ⟨.boothOut 0, 1⟩)
    ports :=
      merged.ports.modify 1 fun r =>
        { r with
          replies := List.replicate 4 (reply 1 .done [])
          notices := List.replicate 31 ⟨5, .overflow⟩ ++ [⟨6, .overflow⟩]
          overflow := true
          transmitter := .reply []
          buffer := List.replicate 64 0 } }

/-- `busy` with a command that closes the suspended speaker in front of its queue. -/
def closing : State :=
  { busy with pending := [.close 0 7 12, .readClock 0 8] }

theorem roomsOk_closing : roomsOk closing := by
  refine ⟨?_, ?_⟩
  · unfold roomsFollowWalls
    decide +kernel
  · exact (show _ ∧ _ by decide +kernel :
      [4, 5] = affectedRooms closing (openWalls [1, 4]) ∧ ∀ a, isDraining closing a = [4, 5].contains a)

theorem witness_PowerOnResetValues : dark.held = true ∧ ∀ x, Instr.readClock 0 7 ≠ .powerOnReset x := by
  refine ⟨?_, nofun⟩
  decide +kernel

theorem leadsOk_closing : leadsOk closing := fun a =>
  forall_some ((by decide +kernel : ∀ a, ∀ r ∈ closing.rooms.get a,
    r.lead = r.members.find? fun g => (closing.ports.get g).attached) a)

theorem wallsOk_closing : wallsOk closing := by
  intro w
  refine ⟨?_, ?_, forall_some ?_⟩ <;> revert w <;> decide +kernel

theorem trunksOk_closing : trunksOk closing := by
  unfold trunksOk trunkOk
  decide +kernel

theorem channelsOk_closing : channelsOk closing := fun t c =>
  forall_some ((by decide +kernel : ∀ t c, ∀ i ∈ (closing.trunks.get t).channels.get c,
    segmentOf i = t ∧ ∀ c', (closing.trunks.get t).channels.get c' = some i → c' = c) t c)

theorem floorsBounded_closing : floorsBounded closing := by
  unfold floorsBounded
  decide +kernel

theorem listsOrdered_closing : listsOrdered closing := by
  unfold listsOrdered
  decide +kernel

theorem releasesAtHome_closing : releasesAtHome closing := by
  unfold releasesAtHome
  decide +kernel

theorem intakesAtHome_closing : intakesAtHome closing := by
  unfold intakesAtHome
  decide +kernel

theorem transmittersOk_closing : transmittersOk closing := by
  unfold transmittersOk
  decide +kernel

theorem mixInRange_closing : mixInRange closing := by
  unfold mixInRange
  decide +kernel

theorem priorityOk_closing : priorityOk closing := by
  unfold priorityOk
  decide +kernel

theorem entriesOk_closing : entriesOk closing := by
  unfold entriesOk
  decide +kernel

theorem relaysOk_closing : relaysOk closing := fun b =>
  ⟨(by decide +kernel : ∀ b, relayDepth closing b ≤ 2) b,
    forall_some ((by decide +kernel : ∀ b, ∀ k ∈ (closing.booths.get b).source,
      (boothRoom closing b).isSome = true ∧ boothRoom closing k = boothRoom closing b) b)⟩

theorem portsOk_closing : portsOk closing := by
  unfold portsOk portOk
  decide +kernel

theorem releasesOrdered_closing : releasesOrdered 2147483519 closing := by
  unfold releasesOrdered
  decide +kernel

theorem queuesOrdered_closing : queuesOrdered 2147483519 closing := by
  unfold queuesOrdered
  decide +kernel

theorem witness_StepKeepsCapacities :
    roomsOk closing ∧ entriesOk closing ∧ releasesAtHome closing ∧ intakesAtHome closing ∧ floorsBounded closing ∧
      listsOrdered closing ∧ trunksOk closing ∧ (∀ c ∈ closing.pending.head?, wellFormed c = true) ∧
      2147483519 + 128 < 2147483648 ∧ releasesOrdered 2147483519 closing ∧ queuesOrdered 2147483519 closing ∧
      ∃ t, step closing = .next t :=
  ⟨roomsOk_closing, entriesOk_closing, releasesAtHome_closing, intakesAtHome_closing, floorsBounded_closing,
    listsOrdered_closing, trunksOk_closing, by decide, by decide, releasesOrdered_closing, queuesOrdered_closing, _, rfl⟩

theorem witness_StepKeepsRooms : roomsOk closing ∧ ∃ t, step closing = .next t := ⟨roomsOk_closing, _, rfl⟩

theorem witness_StepKeepsLeads : roomsOk closing ∧ leadsOk closing ∧ ∃ t, step closing = .next t :=
  ⟨roomsOk_closing, leadsOk_closing, _, rfl⟩

theorem witness_StepKeepsWalls : wallsOk closing ∧ ∃ t, step closing = .next t := ⟨wallsOk_closing, _, rfl⟩

theorem witness_StepKeepsTrunks : trunksOk closing ∧ ∃ t, step closing = .next t := ⟨trunksOk_closing, _, rfl⟩

theorem channelsExact_closing : channelsExact closing := by
  unfold channelsExact
  decide +kernel

theorem witness_StepKeepsChannels :
    channelsOk closing ∧ roomsOk closing ∧ entriesOk closing ∧ releasesAtHome closing ∧ intakesAtHome closing ∧
      floorsBounded closing ∧ (soundingSeats closing).Nodup ∧ channelsExact closing ∧ ∃ t, step closing = .next t :=
  ⟨channelsOk_closing, roomsOk_closing, entriesOk_closing, releasesAtHome_closing, intakesAtHome_closing,
    floorsBounded_closing, by decide +kernel, channelsExact_closing, _, rfl⟩

theorem witness_StepKeepsMixRanges : mixInRange closing ∧ ∃ t, step closing = .next t := ⟨mixInRange_closing, _, rfl⟩

theorem holdersOk_closing : holdersOk closing := by
  unfold holdersOk
  decide +kernel

theorem witness_StepKeepsPriority :
    priorityOk closing ∧ roomsOk closing ∧ entriesOk closing ∧ holdersOk closing ∧ ∃ t, step closing = .next t :=
  ⟨priorityOk_closing, roomsOk_closing, entriesOk_closing, holdersOk_closing, _, rfl⟩

theorem witness_StepKeepsEntries : roomsOk closing ∧ entriesOk closing ∧ ∃ t, step closing = .next t :=
  ⟨roomsOk_closing, entriesOk_closing, _, rfl⟩

theorem witness_StepKeepsRelays : roomsOk closing ∧ relaysOk closing ∧ ∃ t, step closing = .next t :=
  ⟨roomsOk_closing, relaysOk_closing, _, rfl⟩

theorem witness_StepKeepsQueues : portsOk closing ∧ transmittersOk closing ∧ ∃ t, step closing = .next t :=
  ⟨portsOk_closing, transmittersOk_closing, _, rfl⟩

theorem witness_CommandsDecodeAsEncoded :
    wellFormed (.grant 0 0x2A 12 1) = true ∧ commandPort (.grant 0 0x2A 12 1) = some 0 ∧
      encodeCommand (.grant 0 0x2A 12 1) = some [0x30, 0x2A, 0x0C, 0x01, 0x99] := by decide

/-- `hall` with a message at P1 whose gap timer has run out. -/
def holding (bytes : List Byte) : State :=
  hall.modPort 0 fun r => { r with buffer := bytes, gapRunning := true }

theorem witness_MessageIsJudged :
    (hall.held = false ∧ (holding []).held = false) ∧
    ¬((hall.ports.get 0).receiver = .hunt ∧ (hall.ports.get 0).gapRunning = true) ∧
    (∀ bytes, ((holding bytes).ports.get 0).receiver = .hunt ∧ ((holding bytes).ports.get 0).gapRunning = true) ∧
    (let r := ((holding []).modPort 0 fun r => { r with lineFault := true }).ports.get 0;
      r.receiver = .hunt ∧ r.gapRunning = true ∧ r.lineFault = true) ∧
    (let r := ((holding []).modPort 0 fun r => { r with tooLong := true }).ports.get 0;
      r.receiver = .hunt ∧ r.gapRunning = true ∧ r.lineFault = false ∧ r.tooLong = true) ∧
    (let r := (holding [0, 0]).ports.get 0;
      r.lineFault = false ∧ r.tooLong = false ∧ r.buffer.length < 3) ∧
    (let r := (holding [0, 0, 1]).ports.get 0;
      r.lineFault = false ∧ r.tooLong = false ∧ 3 ≤ r.buffer.length ∧ byteSum r.buffer ≠ 0) ∧
    (let r := (holding [5, 0x2A, 0xD1]).ports.get 0;
      r.lineFault = false ∧ r.tooLong = false ∧ 3 ≤ r.buffer.length ∧ byteSum r.buffer = 0 ∧
        decodeCommand 0 r.buffer = some (.readClock 0 0x2A)) ∧
    (let r := (holding [0xE0, 0, 0x20]).ports.get 0;
      r.lineFault = false ∧ r.tooLong = false ∧ 3 ≤ r.buffer.length ∧ byteSum r.buffer = 0 ∧
        decodeCommand 0 r.buffer = none) ∧
    hasPlace (holding [0xE0, 0, 0x20]) 0 ∧
    ¬hasPlace ((holding [0xE0, 0, 0x20]).modPort 0 fun r => { r with replies := List.replicate 4 (reply 1 .done []) })
      0 := by
  unfold hasPlace
  refine ⟨?_, ?_, fun bytes => ⟨rfl, rfl⟩, ?_, ?_, ?_, ?_, ?_, ?_, ?_, ?_⟩ <;> decide +kernel

/-- `hall` with P1 DETACHED. -/
def detached : State :=
  hall.modPort 0 fun r => { r with attached := false }

theorem witness_CommandsAreAnswered :
    (busy.held = false ∧ detached.held = false ∧ hall.held = false) ∧
    commandPort (.readClock 1 7) = some 1 ∧ ¬hasPlace busy 1 ∧
    commandPort (.close 0 7 1) = some 0 ∧ hasPlace detached 0 ∧ (detached.ports.get 0).attached = false ∧
      isRead (.close 0 7 1) = false ∧
    commandPort (.readClock 0 7) = some 0 ∧ hasPlace hall 0 := by
  unfold hasPlace
  decide +kernel

theorem witness_RefusedChangesNothing :
    ∃ t, commandPort (.close 0 7 1) = some 0 ∧ hasPlace hall 0 ∧ exec (.close 0 7 1) hall = .next t ∧
      repliedWith hall t 0 (reply 7 .noSuch []) ∧ isRefusal ReplyCode.noSuch = true := by
  refine ⟨_, rfl, ?_, rfl, ?_, rfl⟩
  · unfold hasPlace
    decide +kernel
  · unfold repliedWith
    decide +kernel

/-- The hypothesis of a statement whose only one is that the reset input is high. -/
theorem witness_StartBitCheck_WaitsEnd : hall.held = false := by decide +kernel

theorem witness_CharacterJoinsMessage :
    hall.held = false ∧ ((hall.modPort 0 fun r => { r with receiver := .character true }).ports.get 0).receiver = .character true ∧
    ∀ noise, (hall.ports.get 0).receiver ≠ .character noise := by decide +kernel

theorem witness_MessageSentMakesRoom :
    (hall.held = false ∧ overflowing.held = false) ∧
    (hall.ports.get 1).transmitter = .idle ∧
    ((hall.modPort 1 fun r => { r with transmitter := .reply [1] }).ports.get 1).transmitter = .reply [1] ∧
    (overflowing.ports.get 1).transmitter = .notice [0xE1] ∧ (overflowing.ports.get 1).transmitter ≠ .idle := by
  decide +kernel

/-- A port record of an ATTACHED port with a number of notices. -/
def noticed (n : Nat) (overflow : Bool) : PortRec :=
  { PortRec.atReset with attached := true, notices := List.replicate n ⟨5, .clip 0⟩, overflow := overflow }

theorem witness_NoticeQueueRule :
    PortRec.atReset.attached = false ∧
    ((noticed 1 true).attached = true ∧ (noticed 1 true).overflow = true) ∧
    ((noticed 30 false).attached = true ∧ (noticed 30 false).overflow = false ∧
      (noticed 30 false).notices.length + 2 ≤ 32) ∧
    ((noticed 31 false).attached = true ∧ (noticed 31 false).overflow = false ∧
      (noticed 31 false).notices.length = 31) := by decide +kernel

theorem witness_AttachTakesEffect :
    (hall.held = false ∧ detached.held = false) ∧
    (hasPlace hall 0 ∧ hall.rooms.get (roomOf hall 0) = steady [0] ∧ (hall.ports.get 0).attached = true) ∧
    (hasPlace detached 0 ∧ detached.rooms.get (roomOf detached 0) = steady [0] ∧
      (detached.ports.get 0).attached = false) := by
  unfold hasPlace
  decide +kernel

theorem witness_PortLeaves :
    served hall 0 ∧ (hall.held = false ∧ (hall.ports.get 0).attached = true) ∧
    (served (consenting .sensed) 2 ∧
      ((consenting .sensed).walls.get 6).consent = some { requester := 2, expiry := 100000 } ∧ adjacentTo 6 2 = true) ∧
    (detached.held = false ∧ (detached.ports.get 0).attached = false) := by
  unfold served hasPlace
  decide +kernel

theorem witness_HallReads :
    (detached.held = false ∧ merged.held = false) ∧
    hasPlace detached 0 ∧ (1 : Byte).toNat = (0 : WallId).val + 1 ∧ (7 : Byte).toNat = (6 : WallId).val + 1 ∧
    ((0 : Byte).toNat = 0 ∨ 7 < (0 : Byte).toNat) ∧ ((8 : Byte).toNat = 0 ∨ 7 < (8 : Byte).toNat) ∧
    ((0 : Byte) = 0 ∧ (0 : Segment) = roomOf merged 1) ∧ (6 : Byte).toNat = (5 : Segment).val + 1 ∧
    6 < (7 : Byte).toNat ∧ merged.rooms.get 1 = none ∧ merged.rooms.get 0 = steady [0, 1] := by
  unfold hasPlace
  decide +kernel

theorem witness_BlockReads :
    (merged.held = false) ∧
    hasPlace merged 0 ∧ (6 : Byte).toNat = (5 : TrunkId).val + 1 ∧ ((7 : Byte).toNat = 0 ∨ 6 < (7 : Byte).toNat) ∧
    (240 : Byte).toNat = (239 : SeatId).val + 1 ∧ ((241 : Byte).toNat = 0 ∨ 240 < (241 : Byte).toNat) ∧
    (8 : Byte).toNat = (7 : BoothId).val + 1 ∧ ((9 : Byte).toNat = 0 ∨ 8 < (9 : Byte).toNat) ∧
    (4 : Byte).toNat = (3 : TapId).val + 1 ∧ ((5 : Byte).toNat = 0 ∨ 4 < (5 : Byte).toNat) ∧
    (6 < (7 : Byte).toNat ∨ 3 < (0 : Byte).toNat) ∧ (6 < (0 : Byte).toNat ∨ 3 < (4 : Byte).toNat) ∧
    (2 : Byte).toNat = (1 : Segment).val + 1 ∧ (merged.rooms.get 1).isSome = false ∧ (3 : Byte).toNat ≤ 3 ∧
    (0 : Segment) = roomOf merged 1 ∧ (merged.rooms.get 0).isSome = true := by
  unfold hasPlace
  decide +kernel

theorem witness_FrameEventTaken :
    (hall.held = false ∧ State.reset.held = false) ∧
    (hall.edgeSeen = true ∧ 899 < 900) ∧ (hall.edgeSeen = false ∨ 900 ≤ 900) ∧
    (State.reset.edgeSeen = false ∨ 900 ≤ 0) := by decide +kernel

theorem witness_FrameMovesGains :
    (twoSpeakers.held = false) ∧
    (twoSpeakers.edgeSeen = false ∨ 900 ≤ 1000) ∧ (twoSpeakers.rooms.get 2).isSome = true := by decide +kernel

theorem witness_FrameMixesFloor :
    (twoSpeakers.held = false) ∧
    (twoSpeakers.edgeSeen = false ∨ 900 ≤ 900) ∧ (twoSpeakers.rooms.get 2).isSome = true := by decide +kernel

theorem witness_FrameSendsClip : twoSpeakers.held = false ∧ (twoSpeakers.edgeSeen = false ∨ 900 ≤ 900) := by decide +kernel

theorem witness_FrameStepsFade :
    (busy.held = false) ∧
    (busy.edgeSeen = false ∨ 900 ≤ 1000) ∧ (busy.rooms.get 4).isSome = true ∧ (busy.mixes.get 4).phase = .falling := by
  decide +kernel

/-- `hall` with a release entry of seat 12 at a gain. -/
def releasing (gain : Nat) (fresh : Bool := false) : State :=
  hall.modMix 0 fun m => { m with release := [⟨seat 12, gain, 5, fresh⟩] }

theorem witness_ReleaseEntriesEnd :
    ((releasing 256).held = false ∧ ((releasing 256).edgeSeen = false ∨ 900 ≤ 1000)) ∧
    ((releasing 0).held = false ∧ ∃ e ∈ ((releasing 0).mixes.get (seatRoom (releasing 0) (seat 12))).release,
      e.seat = seat 12 ∧ e.gain = 0 ∧ e.fresh = false) ∧
    (∀ e ∈ ((releasing 1).mixes.get (seatRoom (releasing 1) (seat 12))).release,
      e.seat = seat 12 → e.gain ≠ 0 ∨ e.fresh = true) ∧
    (∀ e ∈ ((releasing 0 true).mixes.get (seatRoom (releasing 0 true) (seat 12))).release,
      e.seat = seat 12 → e.gain ≠ 0 ∨ e.fresh = true) := by
  decide +kernel

/-- `busy` with booth B3 assigned to no one, B1 in slot 1 of room 1, and taps of each kind. -/
def sounding : State :=
  { busy with
    slotMaps := busy.slotMaps.set 0 ⟨[some 0, some 1, none, none, none, none], rfl⟩
    taps := ⟨[some ⟨.floor, 0⟩, some ⟨.slot 0, 1⟩, some ⟨.boothOut 0, 1⟩, some ⟨.boothFeed 1, 0⟩], rfl⟩ }

/-- The booth inputs of a frame: B1 live, B2 connected and not live, the rest with no readable frame. -/
def inputs : Tab 8 (Option BoothFrame) :=
  ((Tab.replicate 8 none).set 0 (some ⟨true, Tab.replicate 48 5⟩)).set 1 (some ⟨false, Tab.replicate 48 6⟩)

theorem witness_FrameFormsOutputs :
    sounding.held = false ∧ (sounding.edgeSeen = false ∨ 900 ≤ 1000) ∧ (sounding.rooms.get 0).isSome = true ∧
    ((sounding.slotMaps.get 0).get 0 = some 0 ∧ (inputs.get 0).map BoothFrame.tally = some true) ∧
    ((sounding.slotMaps.get 0).get 1 = some 1 ∧ (inputs.get 1).map BoothFrame.tally = some false) ∧
    (sounding.slotMaps.get 0).get 2 = none ∧ boothRoom sounding 2 = none ∧
    (boothRoom sounding 0 = some 0 ∧ (sounding.booths.get 0).source = none) ∧
    (boothRoom sounding 1 = some 0 ∧ (sounding.booths.get 1).source = some 0) ∧
    busy.taps.get 0 = none ∧ (sounding.taps.get 0).map Tap.source = some .floor ∧
    (sounding.taps.get 1).map Tap.source = some (.slot 0) ∧
    (sounding.taps.get 2).map Tap.source = some (.boothOut 0) ∧
    (sounding.taps.get 3).map Tap.source = some (.boothFeed 1) := by
  refine ⟨?_, ?_, ?_, ?_, ?_, ?_, ?_, ?_, ?_, ?_, ?_, ?_, ?_, ?_⟩ <;> decide +kernel

/-- `hall` with a trunk in another power state. -/
def powered (k : TrunkId) (power : Power) : State :=
  hall.modTrunk k fun r => { r with power := power, supervision := none, linkUp := false, warmDeadline := some 100000 }

theorem witness_FrameSendsDownlinks :
    ((powered 1 .unpowered).held = false ∧ hall.held = false ∧ (powered 1 .warming).held = false) ∧
    ((powered 1 .unpowered).edgeSeen = false ∨ 900 ≤ 1000) ∧
    ((powered 1 .unpowered).trunks.get 1).power = .unpowered ∧
    (hall.trunks.get 1).power ≠ .unpowered ∧ ((powered 1 .warming).trunks.get 1).power ≠ .unpowered := by
  decide +kernel

theorem witness_ReadyReportTaken :
    (busy.held = false) ∧
    (let s := busy.modMix 4 fun m => { m with fade := 0 };
      (s.rooms.get 4).isSome = true ∧ (s.mixes.get 4).phase = .falling ∧ (s.mixes.get 4).fade = 0) ∧
    ¬((busy.rooms.get 4).isSome = true ∧ (busy.mixes.get 4).phase = .falling ∧ (busy.mixes.get 4).fade = 0) := by
  decide +kernel

theorem witness_DebounceEnds :
    (∀ clock, (joining clock).held = false) ∧ (∃ c, ((joining 300500).walls.get 1).changeTime = some c ∧
      ((joining 300500).settleAtFrame : Int) ≤ ((joining 300500).clock - c).toInt) ∧
    ¬(∃ c, ((joining 300499).walls.get 1).changeTime = some c ∧
      ((joining 300499).settleAtFrame : Int) ≤ ((joining 300499).clock - c).toInt) := by
  refine ⟨fun _ => rfl, ⟨300000, by decide +kernel⟩, ?_⟩
  rintro ⟨c, h, n⟩
  cases h
  revert n
  decide +kernel

theorem witness_ConsentExpires :
    ((consenting .sensed).held = false ∧ busy.held = false) ∧ (((consenting .sensed).walls.get 6).consent = some { requester := 2, expiry := 100000 } ∧
      0 ≤ ((consenting .sensed).clock - 100000).toInt) ∧
    (∀ c, (busy.walls.get 6).consent = some c → (busy.clock - c.expiry).toInt < 0) := by
  refine ⟨?_, ?_, forall_some ?_⟩ <;> decide +kernel

theorem witness_SetWallRequests :
    served hall 2 ∧ ((0 : Byte).toNat = 0 ∨ 7 < (0 : Byte).toNat ∨ 2 < (0 : Byte).toNat) ∧
    ((8 : Byte).toNat = 0 ∨ 7 < (8 : Byte).toNat ∨ 2 < (0 : Byte).toNat) ∧
    ((7 : Byte).toNat = 0 ∨ 7 < (7 : Byte).toNat ∨ 2 < (3 : Byte).toNat) ∧
    (7 : Byte).toNat = (6 : WallId).val + 1 ∧ (adjacentTo 6 0 = false ∧ (2 : Byte).toNat ≤ 2) ∧ adjacentTo 6 2 = true ∧
    (served merged 0 ∧ adjacentTo 0 0 = true ∧ (merged.walls.get 0).consent = none ∧
      (merged.walls.get 0).mode = .forcedOpen) ∧
    (served hall 2 ∧ (hall.walls.get 6).consent = none ∧ (hall.walls.get 6).mode ≠ .forcedOpen ∧
      (hall.ports.get (otherSide 6 2)).attached = true) ∧
    (served detached 1 ∧ adjacentTo 0 1 = true ∧ (detached.walls.get 0).consent = none ∧
      (detached.walls.get 0).mode ≠ .forcedOpen ∧ (detached.ports.get (otherSide 0 1)).attached = false) ∧
    (served (consenting .sensed) 2 ∧
      ((consenting .sensed).walls.get 6).consent = some { requester := 2, expiry := 100000 }) := by
  unfold served hasPlace
  refine ⟨?_, ?_, ?_, ?_, ?_, ?_, ?_, ?_, ?_, ?_, ?_⟩ <;> decide +kernel

theorem witness_SetWallModes :
    (served (consenting .sensed) 5 ∧ (7 : Byte).toNat = (6 : WallId).val + 1 ∧ adjacentTo 6 5 = true) ∧
    ((consenting .sensed).walls.get 6).mode = .sensed ∧ ((consenting .sensed).walls.get 6).mode ≠ .forcedClosed ∧
    (served (consenting .forcedClosed) 5 ∧ ((consenting .forcedClosed).walls.get 6).mode ≠ .sensed) ∧
    ((consenting .sensed).walls.get 6).consent = some { requester := 2, expiry := 100000 } ∧ (2 : Segment) ≠ 5 := by
  unfold served hasPlace
  refine ⟨?_, ?_, ?_, ?_, ?_, ?_⟩ <;> decide +kernel

/-- The two ways in which a LEAD command with good arguments is turned away before its own tests. -/
def turnsAway : Prop :=
  (served merged 1 ∧ leadOf merged (roomOf merged 1) ≠ some 1) ∧
    (served busy 4 ∧ leadOf busy (roomOf busy 4) = some 4 ∧ isDraining busy (roomOf busy 4) = true)

theorem turnsAway_holds : turnsAway := by
  unfold turnsAway served hasPlace
  decide +kernel

/-- `trimming` with wall W3 open as well: a repartition follows the commit. -/
def chained : State :=
  { trimming with walls := trimming.walls.set 2 { openWall with committed := .closed } }

/-- A commit after which the effective map closes a loop: W1, W3 and W5 are targeted, W6 has been opened. -/
def looping : State :=
  { hall with
    walls :=
      (((hall.walls.set 0 openWall).set 2 openWall).set 4 { openWall with committed := .closed }).set 5
        { openWall with committed := .closed }
    rooms :=
      (((hall.rooms.set 0 (some ⟨[0, 1], some 0, .draining⟩)).set 1 none).set 3
        (some ⟨[3, 4], some 3, .draining⟩)).set 4 none
    repartition := some { target := openWalls [1, 3, 5], affected := [0, 3], ready := [3, 0] } }

/-- The room table of a state with a repartition is in order, computed. -/
theorem rooms_in_order {s : State} {rp : Repartition} (h : s.repartition = some rp)
    (rooms : ∀ a, (s.rooms.get a).map Room.members =
      if anchorIn (committedMap s) a = a then some (component (committedMap s) a) else none)
    (drain : rp.affected = affectedRooms s rp.target ∧ ∀ a, isDraining s a = rp.affected.contains a) : roomsOk s := by
  refine ⟨rooms, ?_⟩
  unfold drainMatches
  rw [h]
  exact drain

/-- 01, "Example: joining a third segment", its last paragraph: W6 has opened during the drain, so the new room 1 is drained
at its own commit, with room 5; 06, R158: it is SILENT at fade 0 and ready, and room 5 falls from FULL. -/
def rechained : State :=
  { drained with walls := drained.walls.set 5 { openWall with committed := .closed } }

theorem test_commit_drains_its_new_room :
    see (.commit allShares) rechained (fun t => (t.repartition, (t.mixes.get 0).phase, (t.mixes.get 4).phase)) =
      some (some { target := openWalls [1, 2, 6], affected := [0, 4], ready := [0] }, .silent, .falling) := by
  decide +kernel

theorem witness_CommitRebuildsRooms :
    (hall.held = false ∧ hall.repartition = none) ∧
    (busy.held = false ∧ busy.repartition = some { target := openWalls [1, 4], affected := [4, 5], ready := [5] } ∧
      ∃ a ∈ ([4, 5] : List Segment), a ∉ ([5] : List Segment)) ∧
    (drained.held = false ∧ roomsOk drained ∧ drained.repartition = some { target := openWalls [1, 2], affected := [0, 2], ready := [0, 2] } ∧
      (∀ a ∈ ([0, 2] : List Segment), a ∈ ([0, 2] : List Segment)) ∧ effectiveMap drained = openWalls [1, 2]) ∧
    (anchorIn (openWalls [1, 2]) 2 ≠ 2 ∧ anchorIn (openWalls [1, 2]) 0 = 0 ∧ 0 ∈ newRooms drained (openWalls [1, 2]) ∧
      3 ∉ newRooms drained (openWalls [1, 2]) ∧
      (∀ k, ∀ e ∈ (drained.trunks.get k).intake, e.seat ≠ seat 1 ∧ segmentOf e.seat = k) ∧
      3 ∉ ([0, 2] : List Segment).flatMap (membersOf drained) ∧ (drained.rooms.get 3).isSome = true) ∧
    (looping.held = false ∧ roomsOk looping ∧
      looping.repartition = some { target := openWalls [1, 3, 5], affected := [0, 3], ready := [3, 0] } ∧
      (∀ a ∈ ([0, 3] : List Segment), a ∈ ([3, 0] : List Segment)) ∧ effectiveMap looping ≠ openWalls [1, 3, 5] ∧
      ∀ g, component (effectiveMap looping) g = component (openWalls [1, 3, 5]) g) ∧
    (chained.held = false ∧ roomsOk chained ∧ chained.repartition = some { target := openWalls [1], affected := [0, 1], ready := [0, 1] } ∧
      (∀ a ∈ ([0, 1] : List Segment), a ∈ ([0, 1] : List Segment)) ∧ effectiveMap chained ≠ openWalls [1] ∧
      ∃ g, component (effectiveMap chained) g ≠ component (openWalls [1]) g) := by
  refine ⟨⟨rfl, rfl⟩, ⟨rfl, rfl, by decide⟩, ⟨rfl, rooms_in_order rfl ?_ ?_, rfl, ?_, ?_⟩, ?_,
    ⟨rfl, rooms_in_order rfl ?_ ?_, rfl, ?_, ?_, ?_⟩, rfl, rooms_in_order rfl ?_ ?_, rfl, ?_, ?_, ?_⟩ <;> decide +kernel

/-- `trimming` with the profile of S1 in CHAIR mode and ten speakers in all. -/
def gathering : State :=
  let s := withProfile trimming 0 .chair 4
  s.modFloor 1 fun f => { f with speakers := f.speakers.take 5 }

/-- `gathering` with TALK of seat 30 held in the intake queue of T1. -/
def replaying : State :=
  gathering.modTrunk 0 fun r => { r with holding := true, intake := [⟨seat 30, .talk, true⟩] }

/-- What a commit of rooms 1 and 2 into one needs. -/
def commits (s : State) : Prop :=
  s.held = false ∧ s.repartition = some { target := openWalls [1], affected := [0, 1], ready := [0, 1] } ∧ roomsOk s ∧
    entriesOk s ∧ releasesAtHome s ∧ newRooms s (openWalls [1]) = [0]

theorem commits_of {s : State} (held : s.held = false)
    (h : s.repartition = some { target := openWalls [1], affected := [0, 1], ready := [0, 1] })
    (rooms : ∀ a, (s.rooms.get a).map Room.members =
      if anchorIn (committedMap s) a = a then some (component (committedMap s) a) else none)
    (drain : [0, 1] = affectedRooms s (openWalls [1]) ∧ ∀ a, isDraining s a = [0, 1].contains a) (entries : entriesOk s)
    (releases : releasesAtHome s) (news : newRooms s (openWalls [1]) = [0]) : commits s :=
  ⟨held, h, rooms_in_order h rooms drain, entries, releases, news⟩

/-- R57: after the commit a held event acts as the seat's next accepted event would. -/
theorem test_held_event_is_replayed :
    see (.commit allShares) gathering (fun u =>
      see (frameWith u 0 (seat 30) .talk true) (listening u 0 (seat 30)) fun v => (v.floors.get 0).queue) =
    (see (.commit allShares) replaying fun t => (t.floors.get 0).queue).map some := by decide +kernel

theorem witness_CommitMovesEntries :
    let rp : Repartition := { target := openWalls [1], affected := [0, 1], ready := [0, 1] }
    let auto := withProfile gathering 0 .autoQueue 4
    (commits gathering ∧ commits auto ∧ commits trimming ∧ commits replaying ∧ commits seven) ∧
    ((1 : Segment) ∈ rp.affected ∧ 1 ∉ newRooms gathering rp.target) ∧
    0 ∈ rp.affected.flatMap (membersOf gathering) ∧
    ((∀ k, (gathering.trunks.get k).intake = []) ∧ (gathered gathering rp 0).speakers.length = 10 ∧
      0 ∈ newRooms gathering rp.target ∧ 0 ∈ component rp.target 0) ∧
    ((gathered auto rp 0).speakers.length ≤ 10 ∧ (∀ k, (auto.trunks.get k).intake = [])) ∧
    ((∀ k, (trimming.trunks.get k).intake = []) ∧ 10 < (gathered trimming rp 0).speakers.length) ∧
    (floorsBounded trimming ∧ releasesOk trimming rp.affected) ∧
    (0 ∈ component rp.target 0 ∧ (∀ j, j ≠ 0 → (replaying.trunks.get j).intake = []) ∧
      (gathered replaying rp 0).speakers.length ≤ 10 ∧ (replaying.profiles.get 0).floorMode = .chair ∧
      see (.commit allShares) replaying (fun t => isDraining t 0) = some false) ∧
    (let events := (replaying.trunks.get 0).intake;
      (events.map HeldEvent.seat).Nodup ∧
        (builtFloor replaying rp 0).queue.length + events.length ≤ (replaying.profiles.get 0).requestCap ∧
        events.length ≤ replaying.poolFree ∧
        ∀ e ∈ events, e.kind = .talk ∧ segmentOf e.seat = 0 ∧ (replaying.seats.get e.seat).online = true ∧
          (replaying.seats.get e.seat).enabled = true ∧ (replaying.seats.get e.seat).chair = false ∧
          hasSpeaker (gathered replaying rp 0) e.seat = false ∧ hasRequest (gathered replaying rp 0) e.seat = false) ∧
    (0 ∈ rp.affected.flatMap (membersOf replaying) ∧
      (replaying.trunks.get 0).intake = [] ++ [⟨seat 30, .talk, true⟩] ∧ segmentOf (seat 30) = 0 ∧
      see (.commit allShares) replaying (fun t => t.repartition) = some none ∧
      (∀ j, isBefore allShares (.trunk 0) (.trunk j) = true → (replaying.trunks.get j).intake = []) ∧
      isBefore allShares .mix (.trunk 0) = true) := by
  intro rp auto
  refine ⟨⟨commits_of rfl rfl ?_ ?_ ?_ ?_ ?_, commits_of rfl rfl ?_ ?_ ?_ ?_ ?_, commits_of rfl rfl ?_ ?_ ?_ ?_ ?_,
    commits_of rfl rfl ?_ ?_ ?_ ?_ ?_, commits_of rfl rfl ?_ ?_ ?_ ?_ ?_⟩, ?_, ?_, ?_, ?_, ?_, ⟨?_, ?_⟩, ?_, ?_, ?_⟩
  all_goals try unfold entriesOk
  all_goals try unfold releasesAtHome
  all_goals try unfold floorsBounded
  all_goals try unfold releasesOk
  all_goals decide +kernel

/-- `trimming` with a relay, and the booths of both rooms. -/
def boothMerge : State :=
  { trimming with
    booths := (trimming.booths.set 0 (booth 0 1 0 (.onAir 0))).set 1 (booth 0 2 0 (.onAir 1) (some 0)) }

theorem witness_CommitMovesBooths :
    boothMerge.held = false ∧
    boothMerge.repartition = some { target := openWalls [1], affected := [0, 1], ready := [0, 1] } ∧
    roomsOk boothMerge ∧ relaysOk boothMerge ∧ 0 ∈ newRooms boothMerge (openWalls [1]) := by
  refine ⟨rfl, rfl, rooms_in_order rfl ?_ ?_, fun b => ⟨?_, forall_some ?_⟩, ?_⟩
  · decide +kernel
  · decide +kernel
  · revert b
    decide +kernel
  · revert b
    decide +kernel
  · decide +kernel

/-- `hall` with trunk T1 in CONFIRM. -/
def confirming (count : Nat) : State :=
  hall.modTrunk 0 fun r => { r with supervision := some .confirm, confirmCount := count }

/-- `hall` with the block of T1 at a position with a count of errored frames. -/
def block (pos errors : Nat) : State :=
  hall.modTrunk 0 fun r => { r with blockPos := pos, blockErrors := errors }

theorem witness_FramesSupervised :
    hall.held = false ∧ ((powered 0 .warming).trunks.get 0).power ≠ .live ∧
    (((supervised 0 .hunt none).trunks.get 0).power = .live ∧
      ((supervised 0 .hunt none).trunks.get 0).supervision = some .hunt) ∧
    (((confirming 0).trunks.get 0).power = .live ∧ ((confirming 0).trunks.get 0).supervision = some .confirm ∧
      (press 1 .talk true).word = (nextWord ((confirming 2).trunks.get 0).predictor).2 ∧
      (0x0CC1 : BitVec 16) ≠ (nextWord ((confirming 2).trunks.get 0).predictor).2 ∧
      ((confirming 2).trunks.get 0).confirmCount < 3 ∧ 3 ≤ ((confirming 3).trunks.get 0).confirmCount) ∧
    ((hall.trunks.get 0).power = .live ∧ (hall.trunks.get 0).supervision = some .locked) ∧
    (∀ f, some { (press 1 .talk true) with events := [] } = some f → f.events = []) ∧
    6 ≤ ((block 3 5).trunks.get 0).blockErrors + 1 ∧
    (((block 63 4).trunks.get 0).blockErrors + 1 < 6 ∧ 63 ≤ ((block 63 4).trunks.get 0).blockPos) ∧
    (((block 62 4).trunks.get 0).blockErrors + 1 < 6 ∧ ((block 62 4).trunks.get 0).blockPos < 63) := by
  refine ⟨rfl, ?_, ?_, ?_, ?_, ?_, ?_, ?_, ?_⟩
  on_goal 5 =>
    intro f h
    cases h
    rfl
  all_goals decide +kernel

/-- A room 1 of `hall` with a floor mode and `n` speakers of `maxOpen` 2. -/
def crowded (mode : FloorMode) (n : Nat) (queue : List Request) : State :=
  withFloor (withProfile hall 0 mode 2) 0
    { speakers := (List.finRange 240).take n |>.map fun i => speaking i 5
      queue := queue
      holders := [] }

/-- The conditions of a place and of a queue entry in room 1. -/
def placeIn (s : State) : Prop :=
  openCount (s.floors.get 0) < (s.profiles.get 0).maxOpen ∧ (s.floors.get 0).speakers.length < 10 ∧
    (s.floors.get 0).holders = []

/-- The conditions of a queue entry in room 1. -/
def queueIn (s : State) : Prop :=
  (s.floors.get 0).queue.length < (s.profiles.get 0).requestCap ∧ 0 < s.poolFree

/-- Room 1 of `hall` as seat 12, a chair or not, finds it. -/
def keyed (chair : Bool) (speakers : List Speaker) (queue : List Request) (holders : List Holder) : State :=
  withFloor (withProfile (withChairs hall (if chair then [11] else [])) 0 .autoQueue 2) 0
    { speakers := speakers, queue := queue, holders := holders }

/-- The conditions under which an event of seat 12 with toggle bit one reaches the floor of room 1. -/
def listens (s : State) : Prop :=
  s.held = false ∧ (s.trunks.get 0).power = .live ∧ (s.trunks.get 0).supervision = some .locked ∧
    (s.trunks.get 0).blockErrors < 6 ∧ (s.seats.get (seatAt 0 11)).lastToggle ≠ some true ∧
    (s.trunks.get 0).holding = false ∧ (s.seats.get (seatAt 0 11)).online = true ∧
    (s.seats.get (seatAt 0 11)).enabled = true ∧ (entrySeats (s.floors.get (roomOf s 0))).Nodup

/-- The hypotheses of the four ways in which an event that leads from `s` to `t` ends: nothing follows, priority ends,
auto-advance runs, both. -/
def nothingFollows (s t : State) : Prop :=
  (s.floors.get 0).holders = [] ∧ (t.floors.get 0).holders = [] ∧ ¬mayGrant t 0

def priorityEnds (s t : State) : Prop :=
  (s.floors.get 0).holders ≠ [] ∧ (t.floors.get 0).holders = [] ∧ ¬mayGrant t 0

def headFollows (s t : State) : Prop :=
  (s.floors.get 0).holders = [] ∧ (t.floors.get 0).holders = [] ∧ mayGrant t 0

def bothFollow (s t : State) : Prop :=
  (s.floors.get 0).holders ≠ [] ∧ (t.floors.get 0).holders = [] ∧ mayGrant t 0

/-- Seat 12's entry, taken by priority or not, alone; as the sole holder; with a queue; with both; with another holder. -/
def alone (e : Speaker) : State := keyed true [e] [] []
def soleHolder (e : Speaker) : State := keyed true [e] [] [⟨11, 9⟩]
def withQueue (e : Speaker) : State := keyed true [e] [asking 8 3] []
def holderWithQueue (e : Speaker) : State := keyed true [e] [asking 8 3] [⟨11, 9⟩]
def twoHolders (e : Speaker) : State := keyed true [e] [asking 8 3] [⟨2, 8⟩, ⟨11, 9⟩]

/-- A change that an event makes in room 1, `leave`, meets the hypotheses of each way in which the event ends. -/
def endsEachWay (e : Speaker) (leave : State → State) : Prop :=
  nothingFollows (alone e) (leave (alone e)) ∧ priorityEnds (soleHolder e) (leave (soleHolder e)) ∧
    headFollows (withQueue e) (leave (withQueue e)) ∧ bothFollow (holderWithQueue e) (leave (holderWithQueue e)) ∧
    ((leave (twoHolders e)).floors.get 0).holders ≠ []

theorem witness_SettingsStored :
    served hall 0 ∧ (served merged 1 ∧ leadOf merged (roomOf merged 1) ≠ some 1) ∧
    (served hall 0 ∧ leadOf hall (roomOf hall 0) = some 0 ∧ 2 < (3 : Byte).toNat) ∧
    (served busy 4 ∧ leadOf busy (roomOf busy 4) = some 4 ∧ (2 : Byte).toNat ≤ 2 ∧
      isDraining busy (roomOf busy 4) = true) ∧
    (leads (withProfile hall 0 .direct 4) 0 0 ∧ ((withProfile hall 0 .direct 4).profiles.get 0).floorMode = .direct) ∧
    (leads autoQueue 2 2 ∧ (autoQueue.profiles.get 2).floorMode ≠ .direct) ∧
    (leads hall 0 0 ∧ ¬mayGrant hall 0) ∧ (leads underPriority 1 1 ∧ ¬mayGrant underPriority 1) ∧
    (leads (withQueue (chairing 11 5)) 0 0 ∧ mayGrant (withQueue (chairing 11 5)) 0) := by
  unfold leads served hasPlace mayGrant
  refine ⟨?_, ?_, ?_, ?_, ?_, ?_, ?_, ?_, ?_⟩ <;> decide +kernel

/-- A floor of room 1 with ten speakers, chairs all. -/
def tenChairs : State :=
  withFloor hall 0 { Floor.empty with speakers := (List.finRange 240).take 10 |>.map fun i => chairing i 5 }

/-- Ten speakers, the last of them no chair, seat 12 a chair without an entry. -/
def bumping : State :=
  keyed true (((List.finRange 240).drop 20).take 9 |>.map (fun i => chairing i 5) |>.append [speaking 40 6]) [] []

/-- Three events of one frame: outside 1 to 40, at position 3, at position 12. -/
def threeEvents : List UplinkEvent :=
  [⟨12, .talk, true⟩, ⟨41, .talk, true⟩, ⟨3, .talk, true⟩]

/-- R54: the events of a frame are taken in ascending position, and one outside 1 to 40 is discarded. -/
theorem test_events_in_ascending_position :
    see (.uplinkFrame 0 { word := 0x0CC0, events := threeEvents, audio := Tab.replicate 16 silence })
      (withProfile hall 0 .chair 4) (fun t => (floorView 0 t).2.1) = some [(seat 3, 0), (seat 12, 1)] := by
  decide +kernel

theorem witness_EventsAccepted_several :
    (threeEvents.map UplinkEvent.position).Nodup ∧ threeEvents.reverse.Perm threeEvents ∧
    (hall.held = false ∧ (hall.trunks.get 0).power = .live ∧ (hall.trunks.get 0).supervision = some .locked ∧
      (hall.trunks.get 0).blockErrors < 6 ∧ transmittersOk hall) ∧
    (∀ x ∈ ([⟨12, .talk, true⟩, ⟨41, .talk, true⟩] : List UplinkEvent), 3 < x.position) ∧
    ∃ s1, exec (.uplinkFrame 0
      { word := (nextWord (hall.trunks.get 0).predictor).2, events := [⟨3, .talk, true⟩]
        audio := Tab.replicate 16 silence }) hall = .next s1 := by
  refine ⟨by decide, List.reverse_perm _, ?_, by decide, _, rfl⟩
  unfold transmittersOk
  decide +kernel

theorem witness_EventsAccepted_restart_bye_talk :
    (listens (alone (chairing 11 5)) ∧ listens (soleHolder (chairing 11 5)) ∧ listens (withQueue (chairing 11 5)) ∧
      listens (holderWithQueue (chairing 11 5)) ∧ listens (twoHolders (chairing 11 5))) ∧
    endsEachWay (chairing 11 5) (fun s => afterDrop (s.modSeat 11 fun x => { x with lastToggle := some true }) 0 11) ∧
    endsEachWay (chairing 11 5)
      (fun s => afterDrop (s.modSeat 11 fun x => { x with online := false, lastToggle := none }) 0 11) ∧
    endsEachWay (chairing 11 5)
      (fun s => afterRemoval (s.modSeat 11 fun x => { x with lastToggle := some true }) 0 11 0) ∧
    (let s := keyed false [] [asking 11 3] [];
      listens s ∧ hasSpeaker (s.floors.get 0) 11 = false ∧ hasRequest (s.floors.get 0) 11 = true) ∧
    (let s := keyed true [] [] [];
      listens s ∧ (s.seats.get 11).chair = true ∧ hasSpeaker (s.floors.get 0) 11 = false ∧
        hasRequest (s.floors.get 0) 11 = false ∧ (s.floors.get 0).speakers.length < 10) ∧
    (listens bumping ∧ (bumping.seats.get 11).chair = true ∧ hasSpeaker (bumping.floors.get 0) 11 = false ∧
      hasRequest (bumping.floors.get 0) 11 = false ∧ 10 ≤ (bumping.floors.get 0).speakers.length) := by
  unfold endsEachWay nothingFollows priorityEnds headFollows bothFollow mayGrant listens
  refine ⟨?_, ?_, ?_, ?_, ?_, ?_, ?_⟩ <;> decide +kernel

theorem witness_EventsAccepted_chair_keys :
    (let s := twoHolders (chairing 11 5); listens s ∧ isHolder (s.floors.get 0) 11 = true) ∧
    (let s := keyed true [] [] [⟨2, 6⟩, ⟨3, 7⟩, ⟨4, 8⟩, ⟨5, 9⟩];
      listens s ∧ isHolder (s.floors.get 0) 11 = false ∧ 4 ≤ (s.floors.get 0).holders.length) ∧
    (let s := keyed true [chairing 11 5] [] [⟨2, 6⟩, ⟨3, 7⟩, ⟨4, 8⟩];
      listens s ∧ isHolder (s.floors.get 0) 11 = false ∧ (s.floors.get 0).holders.length < 4 ∧
        hasSpeaker (s.floors.get 0) 11 = true) ∧
    (let s := keyed true [speaking 13 5] [] [];
      listens s ∧ hasSpeaker (s.floors.get 0) 11 = false ∧ (s.floors.get 0).speakers.length < 10) ∧
    (listens { tenChairs with seats := (withChairs hall [11]).seats } ∧ 10 ≤ (tenChairs.floors.get 0).speakers.length ∧
      hasSpeaker (tenChairs.floors.get 0) 11 = false ∧
      ((tenChairs.floors.get 0).speakers.filter fun e => !e.chairAtGrant).getLast? = none) ∧
    (isHolder (bumping.floors.get 0) 11 = false ∧ (bumping.floors.get 0).holders.length < 4 ∧
      ((bumping.floors.get 0).speakers.filter fun e => !e.chairAtGrant).getLast? = some (speaking 40 6)) ∧
    (let e := chairing 11 5;
      let leave := fun s : State => s.modFloor 0 fun f => { f with holders := f.holders.filter fun h => h.seat != 11 };
      isHolder ((alone e).floors.get 0) 11 = false ∧ isHolder ((soleHolder e).floors.get 0) 11 = true ∧
        e.byPriority = false ∧ priorityEnds (soleHolder e) (leave (soleHolder e)) ∧
        bothFollow (holderWithQueue e) (leave (holderWithQueue e)) ∧
        ((leave (twoHolders e)).floors.get 0).holders ≠ []) ∧
    (let e := { chairing 11 5 with byPriority := true };
      let leave := fun s : State => afterRemoval s 0 11 0;
      isHolder ((soleHolder e).floors.get 0) 11 = true ∧ priorityEnds (soleHolder e) (leave (soleHolder e)) ∧
        bothFollow (holderWithQueue e) (leave (holderWithQueue e)) ∧
        ((leave (twoHolders e)).floors.get 0).holders ≠ []) ∧
    ((soleHolder (chairing 11 5)).floors.get 0).holders ≠ [] ∧
    (let s := keyed true [] [asking 8 3] [];
      listens s ∧ (s.floors.get 0).holders = [] ∧ (s.profiles.get (roomOf s 0)).floorMode ≠ .direct ∧
        (s.floors.get 0).queue.head? = some (asking 8 3) ∧ (s.floors.get 0).speakers.length < 10 ∧
        openCount (s.floors.get 0) < (s.profiles.get 0).maxOpen) ∧
    (let s := keyed true [speaking 13 5, speaking 14 6] [asking 8 3] [];
      listens s ∧ (s.seats.get 8).chair = false ∧ ¬openCount (s.floors.get 0) < (s.profiles.get 0).maxOpen) := by
  unfold priorityEnds bothFollow mayGrant listens
  refine ⟨?_, ?_, ?_, ?_, ?_, ?_, ?_, ?_, ?_, ?_, ?_⟩ <;> decide +kernel

theorem witness_EventsAccepted :
    (hall.held = false ∧ (hall.trunks.get 0).power = .live ∧ (hall.trunks.get 0).supervision = some .locked ∧
      (hall.trunks.get 0).blockErrors < 6) ∧
    ((hall.seats.get (seatAt 0 11)).lastToggle = some false ∧ (hall.seats.get (seatAt 0 11)).lastToggle ≠ some true) ∧
    (let r := (busy.trunks.get 4);
      r.power = .live ∧ r.supervision = some .locked ∧ r.holding = true ∧ r.intake.length < 8) ∧
    (let r := (busy.modTrunk 4 fun r => { r with intake := List.replicate 8 ⟨seat 170, .talk, true⟩ }).trunks.get 4;
      r.power = .live ∧ r.supervision = some .locked ∧ r.holding = true ∧ 8 ≤ r.intake.length) ∧
    ((hall.trunks.get 0).holding = false ∧ (hall.seats.get (seatAt 0 11)).online = true ∧
      (hall.seats.get (seatAt 0 11)).enabled = true ∧ (hall.seats.get (seatAt 0 11)).chair = false) ∧
    (((hall.modSeat (seatAt 0 11) fun x => { x with online := false }).seats.get (seatAt 0 11)).online = false) ∧
    (((hall.modSeat (seatAt 0 11) fun x => { x with enabled := false }).seats.get (seatAt 0 11)).enabled = false) ∧
    (let s := crowded .direct 1 [];
      placeIn s ∧ hasSpeaker (s.floors.get 0) 11 = false ∧ hasRequest (s.floors.get 0) 11 = false ∧
        (s.profiles.get (roomOf s 0)).floorMode = .direct) ∧
    ¬placeIn (crowded .direct 2 []) ∧
    (placeIn (crowded .autoQueue 1 []) ∧ ((crowded .autoQueue 1 []).floors.get 0).queue = []) ∧
    (¬placeIn (crowded .autoQueue 2 []) ∧ queueIn (crowded .autoQueue 2 [])) ∧
    (¬placeIn (crowded .autoQueue 2 []) ∧ ¬queueIn { crowded .autoQueue 2 [] with poolFree := 0 }) ∧
    (queueIn (crowded .chair 1 []) ∧ ¬queueIn { crowded .chair 1 [] with poolFree := 0 }) ∧
    (let s := withChairs (withFloor hall 0 { Floor.empty with speakers := [chairing 11 5, speaking 12 6] }) [11];
      (s.seats.get (seatAt 0 11)).chair = true ∧ hasSpeaker (s.floors.get 0) 11 = true ∧
        (s.floors.get 0).holders = []) := by
  unfold placeIn queueIn
  refine ⟨?_, ?_, ?_, ?_, ?_, ?_, ?_, ?_, ?_, ?_, ?_, ?_, ?_, ?_⟩ <;> decide +kernel

theorem witness_TrunkPowerChanges :
    ((powered 1 .warming).held = false ∧ ((powered 1 .warming).trunks.get 1).power = .warming ∧
      ((powered 1 .warming).trunks.get 1).warmDeadline = some 100000 ∧
      0 ≤ ((powered 1 .warming).clock - 100000).toInt) ∧
    (hall.held = false ∧ (hall.trunks.get 1).power ≠ .warming) ∧
    (∀ d, ((State.reset).trunks.get 1).warmDeadline = some d → (State.reset.clock - d).toInt < 0) ∧
    (served hall 1 ∧ ((7 : Byte).toNat = 0 ∨ 6 < (7 : Byte).toNat ∨ 1 < (0 : Byte).toNat)) ∧
    ((2 : Byte).toNat = 0 ∨ 6 < (2 : Byte).toNat ∨ 1 < (2 : Byte).toNat) ∧
    (served hall 0 ∧ (2 : Byte).toNat = (1 : TrunkId).val + 1 ∧ (0 : Port) ≠ 1 ∧ (1 : Byte).toNat ≤ 1) ∧
    (served (powered 1 .unpowered) 1 ∧ ((powered 1 .unpowered).trunks.get 1).power = .unpowered) ∧
    (served hall 1 ∧ (hall.trunks.get 1).power ≠ .unpowered) ∧
    (served (powered 1 .warming) 1 ∧ ((powered 1 .warming).trunks.get 1).power = .warming) ∧
    (served (powered 1 .live) 1 ∧ ((powered 1 .live).trunks.get 1).power = .live ∧
      ((powered 1 .live).trunks.get 1).linkUp = false) := by
  unfold served hasPlace
  refine ⟨?_, ?_, ?_, ?_, ?_, ?_, ?_, ?_, ?_, ?_⟩
  on_goal 3 =>
    intro d h
    cases (show some 1000 = some d from h)
  all_goals decide +kernel

/-- `merged` with the hold of trunk T2 due, and in room 1 seat 43 of T2 with an entry. -/
def losing (holders : List Holder) (queue : List Request) : State :=
  withFloor { merged with trunks := (supervised 1 .hunt (some 100000)).trunks } 0
    { speakers := [speaking (seat 3) 4, speaking (seat 43) 5], queue := queue, holders := holders }

/-- What is left of room 1 after seat 43 is gone. -/
def seat43Gone (s : State) : State :=
  afterDrop s 0 (seat 43)

theorem witness_LinkLossTakesSeats :
    (busy.held = false ∧ hall.held = false) ∧ (∀ d, (busy.trunks.get 3).holdDeadline = some d → (busy.clock - d).toInt < 0) ∧
    (let s := losing [] [];
      roomOf s 1 = 0 ∧ (entrySeats (s.floors.get 0)).Nodup ∧ (s.trunks.get 1).holdDeadline = some 100000 ∧
        0 ≤ (s.clock - 100000).toInt ∧ segmentOf (seat 43) = 1 ∧ (s.seats.get (seat 43)).online = true ∧
        hasSpeaker (s.floors.get 0) (seat 43) = true ∧ nothingFollows s (seat43Gone s)) ∧
    headFollows (losing [] [asking (seat 9) 4]) (seat43Gone (losing [] [asking (seat 9) 4])) ∧
    priorityEnds (losing [⟨seat 43, 9⟩] []) (seat43Gone (losing [⟨seat 43, 9⟩] [])) ∧
    bothFollow (losing [⟨seat 43, 9⟩] [asking (seat 9) 4]) (seat43Gone (losing [⟨seat 43, 9⟩] [asking (seat 9) 4])) ∧
    ((seat43Gone (losing [⟨seat 3, 8⟩, ⟨seat 43, 9⟩] [])).floors.get 0).holders ≠ [] ∧
    (let s := { supervised 1 .hunt (some 100000) with seats := Tab.replicate 240 Seat.atReset };
      (entrySeats (s.floors.get (roomOf s 1))).Nodup ∧ (s.trunks.get 1).holdDeadline = some 100000 ∧
        ∀ i, segmentOf i = 1 → (s.seats.get i).online = false) ∧
    (served hall 1 ∧ (entrySeats (hall.floors.get (roomOf hall 1))).Nodup ∧ (2 : Byte).toNat = (1 : TrunkId).val + 1 ∧
      (hall.trunks.get 1).power = .live ∧ (hall.trunks.get 1).linkUp = true) := by
  unfold nothingFollows headFollows priorityEnds bothFollow mayGrant served hasPlace
  refine ⟨⟨rfl, rfl⟩, ?_, ?_, ?_, ?_, ?_, ?_, ?_, ?_⟩
  on_goal 1 =>
    intro d h
    cases (show some 100200 = some d from h)
  all_goals decide +kernel

theorem witness_TrunkCommands :
    served hall 1 ∧ ((0 : Byte).toNat = 0 ∨ 6 < (0 : Byte).toNat) ∧ (2 : Byte).toNat = (1 : TrunkId).val + 1 ∧
    (3 : Byte).toNat = (2 : TrunkId).val + 1 ∧ (1 : Port) ≠ 2 ∧
    (served (powered 1 .unpowered) 1 ∧ ((powered 1 .unpowered).trunks.get 1).power ≠ .live) ∧
    (served (supervised 1 .hunt none) 1 ∧ ((supervised 1 .hunt none).trunks.get 1).power = .live ∧
      ((supervised 1 .hunt none).trunks.get 1).supervision = some .hunt) ∧
    (served (supervised 1 .confirm none) 1 ∧ ((supervised 1 .confirm none).trunks.get 1).power = .live ∧
      ((supervised 1 .confirm none).trunks.get 1).supervision = some .confirm) ∧
    ((hall.trunks.get 1).power = .live ∧ (hall.trunks.get 1).supervision = some .locked) ∧
    ((241 : Byte).toNat = 0 ∨ 240 < (241 : Byte).toNat ∨ 1 < (0 : Byte).toNat ∨ 1 < (0 : Byte).toNat) ∧
    ((1 : Byte).toNat = 0 ∨ 240 < (1 : Byte).toNat ∨ 1 < (0 : Byte).toNat ∨ 1 < (2 : Byte).toNat) ∧
    ((43 : Byte).toNat = (seat 43).val + 1 ∧ segmentOf (seat 43) = 1 ∧ isDraining hall (seatRoom hall (seat 43)) = false) ∧
    ((0 : Byte).toNat ≠ 1 ∧ (0 : Port) ≠ segmentOf (seat 43)) ∧
    (served busy 4 ∧ (4 : Port) = segmentOf (seat 170) ∧ isDraining busy (seatRoom busy (seat 170)) = true) ∧
    (served busy 0 ∧ (0 : Port) = segmentOf (seat 12) ∧ isDraining busy (seatRoom busy (seat 12)) = false ∧
      (hasSpeaker (busy.floors.get (seatRoom busy (seat 12))) (seat 12) ||
        hasRequest (busy.floors.get (seatRoom busy (seat 12))) (seat 12)) = true) ∧
    ((hasSpeaker (hall.floors.get (seatRoom hall (seat 43))) (seat 43) ||
        hasRequest (hall.floors.get (seatRoom hall (seat 43))) (seat 43)) = false) := by
  unfold served hasPlace
  refine ⟨?_, ?_, ?_, ?_, ?_, ?_, ?_, ?_, ?_, ?_, ?_, ?_, ?_, ?_, ?_, ?_⟩ <;> decide +kernel

/-- The place of GRANT for a seat of S1 in room 1. -/
def grantPlace (s : State) (i : SeatId) : Prop :=
  (s.floors.get 0).speakers.length < 10 ∧
    ((s.seats.get i).chair = true ∨ openCount (s.floors.get 0) < (s.profiles.get 0).maxOpen)

theorem witness_GrantGivesFloor :
    (turnsAway ∧ served hall 0 ∧ ((0xF1 : Byte) ≠ 0 ∧ (240 < (0xF1 : Byte).toNat ∨ 1 < (0 : Byte).toNat)) ∧
      ¬(240 < (240 : Byte).toNat ∨ 1 < (1 : Byte).toNat) ∧ 1 < (2 : Byte).toNat) ∧
    (leads granting 0 0 ∧ (entrySeats (granting.floors.get 0)).Nodup ∧ (12 : Byte).toNat = (seat 12).val + 1) ∧
    (leads underPriority 1 1 ∧ (entrySeats (underPriority.floors.get 1)).Nodup ∧
      (underPriority.floors.get 1).holders ≠ []) ∧
    (leads detached 1 1 ∧ (detached.floors.get 1).holders = [] ∧ segmentOf (seat 12) ∉ membersOf detached 1) ∧
    (let s := crowded .chair 2 [];
      leads s 0 0 ∧ (entrySeats (s.floors.get 0)).Nodup ∧ (s.floors.get 0).holders = [] ∧
        hasSpeaker (s.floors.get 0) (seat 1) = true) ∧
    ((granting.floors.get 0).holders = [] ∧ segmentOf (seat 12) ∈ membersOf granting 0 ∧
      (granting.seats.get (seat 12)).online = true ∧ (granting.seats.get (seat 12)).enabled = true ∧
      hasSpeaker (granting.floors.get 0) (seat 12) = false ∧ grantPlace granting (seat 12)) ∧
    (leads (crowded .chair 2 []) 0 0 ∧ ¬grantPlace (crowded .chair 2 []) (seat 12) ∧
      (((crowded .chair 2 []).floors.get 0).speakers.find? fun e => !e.chairAtGrant) = some (speaking 0 5)) ∧
    (leads tenChairs 0 0 ∧ (entrySeats (tenChairs.floors.get 0)).Nodup ∧ ¬grantPlace tenChairs (seat 12) ∧
      ∀ e ∈ (tenChairs.floors.get 0).speakers, e.chairAtGrant = true) ∧
    (leads (crowded .direct 2 []) 0 0 ∧ ((crowded .direct 2 []).profiles.get 0).floorMode = .direct) ∧
    (leads (crowded .chair 2 []) 0 0 ∧ ((crowded .chair 2 []).profiles.get 0).floorMode ≠ .direct ∧
      ((crowded .chair 2 []).floors.get 0).queue = []) ∧
    (let s := crowded .chair 2 [asking (seat 12) 3];
      leads s 0 0 ∧ (entrySeats (s.floors.get 0)).Nodup ∧ (s.floors.get 0).holders = [] ∧
        (s.profiles.get 0).floorMode ≠ .direct ∧ (s.floors.get 0).queue.head?.map Request.seat = some (seat 12)) := by
  unfold leads served hasPlace grantPlace
  refine ⟨⟨turnsAway_holds, ?_⟩, ?_, ?_, ?_, ?_, ?_, ?_, ?_, ?_, ?_, ?_⟩ <;> decide +kernel

/-- An entry of seat 12 in room 1 with a deadline. -/
def timed (deadline : Clock) : Speaker :=
  { speaking (seat 12) 5 with deadline := some deadline }

/-- Room 1 with that entry, holders and a queue. -/
def timing (deadline : Clock) (holders : List Holder) (queue : List Request) : State :=
  withFloor hall 0 { speakers := [timed deadline, chairing (seat 3) 9], queue := queue, holders := holders }

/-- Room 1 after the entry of seat 12 is removed. -/
def seat12Gone (s : State) : State :=
  afterRemoval s 0 (seat 12) 0

theorem witness_CloseEndsSpeech :
    (turnsAway ∧ served hall 0 ∧ ((0 : Byte).toNat = 0 ∨ 240 < (0 : Byte).toNat) ∧ ((241 : Byte).toNat = 0 ∨ 240 < (241 : Byte).toNat) ∧
      ¬((240 : Byte).toNat = 0 ∨ 240 < (240 : Byte).toNat)) ∧
    (leads hall 0 0 ∧ (12 : Byte).toNat = (seat 12).val + 1 ∧ hasSpeaker (hall.floors.get 0) (seat 12) = false) ∧
    (let s := timing 100000 [] [];
      leads s 0 0 ∧ (entrySeats (s.floors.get 0)).Nodup ∧ timed 100000 ∈ (s.floors.get 0).speakers ∧
        nothingFollows s (seat12Gone s) ∧ s.held = false ∧ 0 = seatRoom s (seat 12) ∧
        0 ≤ (s.clock - 100000).toInt) ∧
    (let s := timing 100000 [⟨seat 3, 9⟩] [];
      leads s 0 0 ∧ (entrySeats (s.floors.get 0)).Nodup ∧ timed 100000 ∈ (s.floors.get 0).speakers ∧
        ((seat12Gone s).floors.get 0).holders ≠ []) ∧
    (let s := timing 100000 [⟨seat 12, 9⟩] [];
      leads s 0 0 ∧ priorityEnds s (seat12Gone s)) ∧
    (let s := timing 100000 [] [asking (seat 9) 4];
      leads s 0 0 ∧ (entrySeats (s.floors.get 0)).Nodup ∧ headFollows s (seat12Gone s)) ∧
    (let s := timing 100000 [⟨seat 12, 9⟩] [asking (seat 9) 4];
      leads s 0 0 ∧ bothFollow s (seat12Gone s)) ∧
    (hall.held = false ∧ hasSpeaker (hall.floors.get (seatRoom hall (seat 12))) (seat 12) = false) ∧
    (let s := timing 100001 [] [];
      s.held = false ∧ 0 = seatRoom s (seat 12) ∧ timed 100001 ∈ (s.floors.get 0).speakers ∧ (timed 100001).deadline = some 100001 ∧
        (s.clock - 100001).toInt < 0) := by
  unfold nothingFollows priorityEnds headFollows bothFollow leads served hasPlace mayGrant
  refine ⟨⟨turnsAway_holds, ?_⟩, ?_, ?_, ?_, ?_, ?_, ?_, ?_, ?_⟩ <;> decide +kernel

theorem witness_RequestCommands :
    (turnsAway ∧ served hall 0 ∧ ((0 : Byte).toNat = 0 ∨ 240 < (0 : Byte).toNat) ∧ ((241 : Byte).toNat = 0 ∨ 240 < (241 : Byte).toNat) ∧
      ¬((240 : Byte).toNat = 0 ∨ 240 < (240 : Byte).toNat)) ∧
    (leads hall 0 0 ∧ (12 : Byte).toNat = (seat 12).val + 1 ∧ hasRequest (hall.floors.get 0) (seat 12) = false) ∧
    (leads (crowded .chair 1 [asking (seat 12) 3]) 0 0 ∧
      hasRequest ((crowded .chair 1 [asking (seat 12) 3]).floors.get 0) (seat 12) = true) ∧
    ((crowded .direct 1 []).profiles.get 0).floorMode = .direct ∧
    (leads hall 1 1 ∧ (hall.profiles.get 1).floorMode ≠ .direct ∧ segmentOf (seat 12) ∉ membersOf hall 1) ∧
    (let s := crowded .chair 1 [];
      leads s 0 0 ∧ (s.profiles.get 0).floorMode ≠ .direct ∧ segmentOf (seat 12) ∈ membersOf s 0 ∧
        (s.seats.get (seat 12)).online = true ∧ (s.seats.get (seat 12)).enabled = true ∧
        hasSpeaker (s.floors.get 0) (seat 1) = true ∧ hasSpeaker (s.floors.get 0) (seat 12) = false ∧
        hasRequest (s.floors.get 0) (seat 12) = false ∧ (s.profiles.get 0).floorMode = .chair ∧
        (s.floors.get 0).queue.length < (s.profiles.get 0).requestCap ∧ 0 < s.poolFree) ∧
    (let s := (crowded .chair 1 []).setProfileOf 0 { Profile.atReset with floorMode := .chair, requestCap := 0 };
      leads s 0 0 ∧ (s.profiles.get 0).requestCap ≤ (s.floors.get 0).queue.length) ∧
    ({ crowded .chair 1 [] with poolFree := 0 } : State).poolFree = 0 ∧
    (leads (timing 5 [⟨seat 3, 9⟩] []) 0 0 ∧ ((timing 5 [⟨seat 3, 9⟩] []).floors.get 0).holders ≠ []) ∧
    (leads (crowded .autoQueue 1 []) 0 0 ∧ ((crowded .autoQueue 1 []).profiles.get 0).floorMode = .autoQueue ∧
      ((crowded .autoQueue 1 []).floors.get 0).holders = []) := by
  unfold leads served hasPlace
  refine ⟨⟨turnsAway_holds, ?_⟩, ?_, ?_, ?_, ?_, ?_, ?_, ?_, ?_, ?_⟩ <;> decide +kernel

/-- Room 1 with its lead, as CLEAR and PRIORITY_CANCEL find it. -/
def commandable (s : State) : Prop :=
  leads s 0 0 ∧ (entrySeats (s.floors.get 0)).Nodup ∧ floorsBounded s

/-- The state after every speaker entry of room 1 is removed, oldest first, and after every request is. -/
def speakersGone (s : State) : State :=
  (s.floors.get 0).speakers.foldl (fun t e => afterRemoval t 0 e.seat e.gain) s

def requestsGone (s : State) : State :=
  (s.floors.get 0).queue.foldl (fun t q => afterDequeue t 0 q.seat false) s

/-- 04, R104: PRIORITY_CANCEL of every holder closes the entries that priority opened in press-time order. -/
theorem test_priority_cancelled_of_two :
    see (.priorityCancel 1 7 0)
      (underPriority.modFloor 1 fun f =>
        { f with
          speakers := f.speakers ++ [{ chairing (seat 41) 140000 with byPriority := true }]
          queue := []
          holders := [⟨seat 41, 120000⟩, ⟨seat 44, 130000⟩] }) (fun t => (heard 1 t).2.take 3) =
      some [.floor 1 (seat 41) .closed .priorityEnd, .floor 1 (seat 44) .closed .priorityEnd,
        .floor 1 (seat 50) .resumed .none] := by decide +kernel

theorem witness_ClearAndCancel :
    (turnsAway ∧ served hall 0 ∧ ¬((3 : Byte).toNat = 0 ∨ 3 < (3 : Byte).toNat) ∧ ¬(240 < (240 : Byte).toNat)) ∧
    (leads underPriority 1 1 ∧ (entrySeats (underPriority.floors.get 1)).Nodup ∧ floorsBounded underPriority) ∧
    ((0 : Byte).toNat = 0 ∨ 3 < (0 : Byte).toNat) ∧ ((4 : Byte).toNat = 0 ∨ 3 < (4 : Byte).toNat) ∧
    (leads (timing 5 [] []) 0 0 ∧ floorsBounded (timing 5 [] []) ∧ ¬mayGrant (speakersGone (timing 5 [] [])) 0) ∧
    240 < (241 : Byte).toNat ∧
    (leads hall 0 0 ∧ (entrySeats (hall.floors.get 0)).Nodup ∧ floorsBounded hall ∧ (hall.floors.get 0).holders = [] ∧
      (240 : Byte).toNat ≤ 240) ∧
    ((41 : Byte).toNat = (seat 41).val + 1 ∧ isHolder (underPriority.floors.get 1) (seat 41) = false) ∧
    (let s := timing 5 [⟨seat 3, 9⟩, ⟨seat 12, 10⟩] [];
      leads s 0 0 ∧ (entrySeats (s.floors.get 0)).Nodup ∧ floorsBounded s ∧ (3 : Byte).toNat = (seat 3).val + 1 ∧
        isHolder (s.floors.get 0) (seat 3) = true ∧
        (∀ e ∈ (s.floors.get 0).speakers, e.seat = seat 3 → e.byPriority = false) ∧
        ((s.floors.get 0).holders.filter fun h => h.seat != seat 3) ≠ []) ∧
    (let s := timing 5 [⟨seat 3, 9⟩] [];
      leads s 0 0 ∧ isHolder (s.floors.get 0) (seat 3) = true ∧
        ((s.floors.get 0).holders.filter fun h => h.seat != seat 3) = [] ∧ ¬mayGrant s 0 ∧
        (s.floors.get 0).holders ≠ [] ∧ ∀ e ∈ (s.floors.get 0).speakers, e.byPriority = false) ∧
    (let s := underPriority.modFloor 1 fun f => { f with queue := [] };
      leads s 1 1 ∧ (∃ e ∈ (s.floors.get 1).speakers, e.byPriority = true ∧
        isHolder (s.floors.get 1) e.seat = true ∧ (44 : Byte).toNat = e.seat.val + 1 ∧
        ((s.floors.get 1).holders.filter fun h => h.seat != e.seat) = []) ∧ ¬mayGrant s 1) ∧
    (let e := chairing 11 5;
      commandable (alone e) ∧ commandable (soleHolder e) ∧ commandable (withQueue e) ∧
        commandable (holderWithQueue e) ∧ commandable (twoHolders e)) ∧
    endsEachWay (chairing 11 5) speakersGone ∧
    (let e := chairing 11 5;
      nothingFollows (withQueue e) (requestsGone (speakersGone (withQueue e))) ∧
        priorityEnds (holderWithQueue e) (requestsGone (speakersGone (holderWithQueue e)))) ∧
    (let e := { chairing 11 5 with byPriority := true };
      let leave := fun s : State => afterRemoval s 0 11 0;
      isHolder ((soleHolder e).floors.get 0) 11 = true ∧ priorityEnds (soleHolder e) (leave (soleHolder e)) ∧
        bothFollow (holderWithQueue e) (leave (holderWithQueue e)) ∧
        ((leave (twoHolders e)).floors.get 0).holders ≠ []) ∧
    (let e := { chairing 11 5 with byPriority := true };
      let leave := fun s : State => (((s.floors.get 0).holders.map Holder.seat).foldl (afterLeave 0) (s, [])).1;
      priorityEnds (soleHolder e) (leave (soleHolder e)) ∧ bothFollow (holderWithQueue e) (leave (holderWithQueue e)) ∧
        bothFollow (twoHolders e) (leave (twoHolders e))) := by
  unfold endsEachWay nothingFollows priorityEnds bothFollow headFollows commandable leads served hasPlace mayGrant
    floorsBounded
  refine ⟨⟨turnsAway_holds, ?_⟩, ?_, ?_, ?_, ?_, ?_, ?_, ?_, ?_, ?_, ?_, ?_, ?_, ?_, ?_, ?_⟩ <;> decide +kernel

theorem witness_AllocatorPlacesBooths :
    (roomsOk fiveBooths ∧ boothsInOrder fiveBooths 0 = [2, 4, 0, 1]) ∧
    (let placed := allocateAll fiveBooths [2, 4] (Tab.replicate 6 none) [];
      (∃ x ∈ placed.1, (∃ slot, x.2 = .onAir slot) ∧ (fiveBooths.booths.get x.1).language =
        (fiveBooths.booths.get 0).language ∧ (fiveBooths.booths.get 0).language ≠ none) ∧
      placed.2.get 1 = none ∧ placed.2.get 2 ≠ none) ∧
    (fiveBooths.booths.get 1).preferred = some 1 ∧ ([2, 4] ++ 0 :: [1] : List BoothId).Nodup := by
  unfold roomsOk roomsFollowWalls
  refine ⟨⟨⟨?_, (?_ : ∀ a, isDraining fiveBooths a = false)⟩, ?_⟩, ?_⟩ <;> decide +kernel

theorem witness_BoothCommands :
    (turnsAway ∧ served hall 0 ∧ ((8 : Byte).toNat = 0 ∨ 8 < (8 : Byte).toNat ∨ (0 : Byte) = 0) ∧
      ¬((8 : Byte).toNat = 0 ∨ 8 < (8 : Byte).toNat ∨ (1 : Byte) = 0)) ∧
    served hall 0 ∧ ((0 : Byte).toNat = 0 ∨ 8 < (0 : Byte).toNat) ∧ ((9 : Byte).toNat = 0 ∨ 8 < (9 : Byte).toNat) ∧
    (leads busy 0 0 ∧ roomsOk busy ∧ (1 : Byte).toNat = (0 : BoothId).val + 1) ∧
    ((1 : Byte) ≠ 0 ∧ (busy.booths.get 0).assignment ≠ none ∧ boothRoom busy 0 = some 0) ∧
    (leads busy 2 2 ∧ (busy.booths.get 0).assignment ≠ none ∧ boothRoom busy 0 ≠ some 2) ∧
    ((busy.booths.get 5).assignment = none ∧ (2 : Slot).val + 1 = max 1 (min 6 (3 : Byte).toNat) ∧
      (5 : Slot).val + 1 = max 1 (min 6 (7 : Byte).toNat)) := by
  unfold leads served hasPlace
  refine ⟨⟨turnsAway_holds, ?_⟩, ?_, ?_, ?_, ⟨?_, rooms_in_order rfl ?_ ?_, ?_⟩, ?_, ?_, ?_⟩ <;> decide +kernel

theorem witness_RelayCommand :
    (turnsAway ∧ served hall 0 ∧ ¬((8 : Byte).toNat = 0 ∨ 8 < (8 : Byte).toNat ∨ 8 < (8 : Byte).toNat)) ∧
    (leads relays 1 1 ∧ ((1 : Byte).toNat = 0 ∨ 8 < (1 : Byte).toNat ∨ 8 < (9 : Byte).toNat)) ∧
    (1 : Byte).toNat = (0 : BoothId).val + 1 ∧ (relays.booths.get 2).assignment = none ∧
    (leads relays 0 0 ∧ (relays.booths.get 0).assignment ≠ none ∧ boothRoom relays 0 ≠ some 0) ∧
    boothRoom relays 1 = some 1 ∧ boothRoom relays 2 ≠ some 1 ∧
    (boothRoom relays 3 = some 1 ∧ relayLoops relays 1 3 = true) ∧
    (relayLoops relays 1 5 = false ∧ 2 < relayDepth relays 5 + 1 + relayHeight relays 1) ∧
    (boothRoom relays 1 = some 1 ∧ relayLoops relays 5 1 = false ∧
      relayDepth relays 1 + 1 + relayHeight relays 5 ≤ 2 ∧ some 1 ≠ (relays.booths.get 5).source) ∧
    (boothRoom relays 4 = some 1 ∧ relayLoops relays 5 4 = false ∧
      relayDepth relays 4 + 1 + relayHeight relays 5 ≤ 2 ∧ some 4 = (relays.booths.get 5).source) := by
  unfold leads served hasPlace
  refine ⟨⟨turnsAway_holds, ?_⟩, ?_, ?_, ?_, ?_, ?_, ?_, ?_, ?_, ?_, ?_⟩ <;> decide +kernel

theorem witness_GainAndTapCommands :
    (served hall 2 ∧ ((0 : Byte).toNat = 0 ∨ 6 < (0 : Byte).toNat) ∧ ((7 : Byte).toNat = 0 ∨ 6 < (7 : Byte).toNat)) ∧
    ((4 : Byte).toNat = (3 : Segment).val + 1 ∧ (2 : Port) ≠ 3) ∧ (3 : Byte).toNat = (2 : Port).val + 1 ∧
    ((5 : Byte).toNat = 0 ∨ 4 < (5 : Byte).toNat ∨ tapSourceArg 1 0 = none) ∧ tapSourceArg 1 1 = none ∧
    ((3 : Byte).toNat = (2 : TapId).val + 1 ∧ tapSourceArg 3 6 = some (.boothOut 5)) ∧
    (served busy 4 ∧ isDraining busy (roomOf busy 4) = true) ∧
    (served tapped 1 ∧ isDraining tapped (roomOf tapped 1) = false ∧ tapped.taps.get 2 = some ⟨.slot 1, 2⟩) ∧
    (served relays 0 ∧ relays.taps.get 2 = none ∧ isDraining relays (roomOf relays 0) = false ∧
      boothRoom relays 5 ≠ some (roomOf relays 0)) ∧
    (served relays 1 ∧ boothRoom relays 5 = some (roomOf relays 1)) ∧
    (served tapped 0 ∧ (2 : Port) ≠ 0 ∧ leadOf tapped (roomOf tapped 2) ≠ some 0) ∧
    (served tapped 2 ∧ isDraining tapped (roomOf tapped 2) = false) ∧
    ((2 : Port) ≠ 1 ∧ leadOf tapped (roomOf tapped 2) = some 1) ∧
    (let s := busy.setTapOf 2 (some ⟨.floor, 4⟩);
      served s 4 ∧ s.taps.get 2 = some ⟨.floor, 4⟩ ∧ isDraining s (roomOf s 4) = true) := by
  unfold served hasPlace
  refine ⟨?_, ?_, ?_, ?_, ?_, ?_, ?_, ?_, ?_, ?_, ?_, ?_, ?_, ?_⟩ <;> decide +kernel

end Sys2Proof.Tests
end

section
/-! Rooms of a wall map: the computed component is what chains of open walls reach (R15). -/

namespace Sys2Proof.Machine

/-! ### Joined segments and the expansion of a list -/

theorem joined_iff {m : WallMap} {g h : Segment} :
    joined m g h = true ↔ ∃ w, m.get w = .opened ∧ adjacentTo w g = true ∧ adjacentTo w h = true := by
  simp [joined, allWalls, and_assoc]

theorem joined_comm {m : WallMap} {g h : Segment} : joined m g h = true ↔ joined m h g = true := by
  simp only [joined_iff]
  exact exists_congr fun w => and_congr_right fun _ => and_comm

theorem mem_expand {m : WallMap} {l : List Segment} {g : Segment} :
    g ∈ expand m l ↔ g ∈ l ∨ ∃ h ∈ l, joined m h g = true := by
  simp [expand, allSegments]

theorem subset_expand (m : WallMap) (l : List Segment) : l ⊆ expand m l := fun _ hg => mem_expand.mpr (.inl hg)

/-- No open wall leads out of a list of segments. -/
def Closed (m : WallMap) (l : List Segment) : Prop :=
  ∀ g ∈ l, ∀ h, joined m g h = true → h ∈ l

theorem Closed.expand {m : WallMap} {l : List Segment} (hl : Closed m l) : Closed m (expand m l) := by
  have mem_iff : ∀ g, g ∈ Machine.expand m l ↔ g ∈ l := fun g =>
    mem_expand.trans ⟨fun hg => hg.elim id fun ⟨h, hh, hj⟩ => hl h hh g hj, .inl⟩
  exact fun g hg h hj => (mem_iff h).mpr (hl g ((mem_iff g).mp hg) h hj)

/-- An expansion of a list that is not closed has more segments. -/
theorem card_lt_card_expand {m : WallMap} {l : List Segment} (hl : ¬Closed m l) :
    l.toFinset.card < (expand m l).toFinset.card := by
  unfold Closed at hl
  push Not at hl
  obtain ⟨g, hg, h, hj, hh⟩ := hl
  refine Finset.card_lt_card ⟨fun x hx => ?_, fun hsub => hh ?_⟩
  · exact List.mem_toFinset.mpr (subset_expand m l (List.mem_toFinset.mp hx))
  · exact List.mem_toFinset.mp (hsub (List.mem_toFinset.mpr (mem_expand.mpr (.inr ⟨g, hg, hj⟩))))

/-- What `n` expansions reach is closed, or has more than `n` segments. -/
theorem iterate_expand_closed_or_large (m : WallMap) (g : Segment) (n : Nat) :
    Closed m ((expand m)^[n] [g]) ∨ n < ((expand m)^[n] [g]).toFinset.card := by
  induction n with
  | zero => exact .inr (by simp)
  | succ n ih =>
    rw [Function.iterate_succ_apply']
    by_cases hc : Closed m ((expand m)^[n] [g])
    · exact .inl hc.expand
    · exact .inr (lt_of_le_of_lt (ih.resolve_left hc) (card_lt_card_expand hc))

/-- Five expansions reach the whole room, since there are six segments. -/
theorem component_closed (m : WallMap) (g : Segment) : Closed m (component m g) := by
  rcases iterate_expand_closed_or_large m g 5 with hc | hl
  · exact hc
  · have full : (component m g).toFinset = Finset.univ :=
      Finset.eq_univ_of_card _ (le_antisymm (Finset.card_le_univ _) hl)
    exact fun _ _ h _ => List.mem_toFinset.mp (full ▸ Finset.mem_univ h)

/-! ### The component as reachability -/

/-- A chain of segments that open walls join. -/
def Reaches (m : WallMap) : Segment → Segment → Prop :=
  Relation.ReflTransGen fun g h => joined m g h = true

theorem Reaches.symm {m : WallMap} {g h : Segment} (hr : Reaches m g h) : Reaches m h g :=
  have : Std.Symm fun g h => joined m g h = true := ⟨fun _ _ => joined_comm.mp⟩
  Relation.ReflTransGen.stdSymm.symm _ _ hr

theorem reaches_of_mem_iterate {m : WallMap} {g : Segment} (n : Nat) :
    ∀ h ∈ (expand m)^[n] [g], Reaches m g h := by
  induction n with
  | zero => exact fun h hh => List.mem_singleton.mp hh ▸ .refl
  | succ n ih =>
    intro h hh
    rw [Function.iterate_succ_apply', mem_expand] at hh
    rcases hh with hh | ⟨x, hx, hj⟩
    · exact ih h hh
    · exact (ih x hx).tail hj

theorem self_mem_component (m : WallMap) (g : Segment) : g ∈ component m g := by
  simp [component, mem_expand]

theorem mem_component_iff {m : WallMap} {g h : Segment} : h ∈ component m g ↔ Reaches m g h := by
  refine ⟨reaches_of_mem_iterate 5 h, fun hr => ?_⟩
  induction hr with
  | refl => exact self_mem_component m g
  | tail _ hj ih => exact component_closed m g _ ih _ hj

/-! ### Rooms as classes of segments, and their anchors -/

theorem component_eq_filter (m : WallMap) (g : Segment) :
    component m g = allSegments.filter fun h => (component m g).contains h := by
  conv_lhs => rw [component]
  refine List.filter_congr fun h _ => ?_
  rw [Bool.eq_iff_iff, List.contains_iff_mem, component, mem_expand]
  simp

/-- Segments of one room have the same room. -/
theorem component_eq_of_mem {m : WallMap} {g h : Segment} (hh : h ∈ component m g) : component m h = component m g := by
  have hgh := mem_component_iff.mp hh
  rw [component_eq_filter m h, component_eq_filter m g]
  refine List.filter_congr fun x _ => ?_
  rw [Bool.eq_iff_iff, List.contains_iff_mem, List.contains_iff_mem, mem_component_iff, mem_component_iff]
  exact ⟨hgh.trans, hgh.symm.trans⟩

theorem mem_component_comm {m : WallMap} {g h : Segment} : h ∈ component m g ↔ g ∈ component m h := by
  rw [mem_component_iff, mem_component_iff]
  exact ⟨.symm, .symm⟩

theorem head?_component (m : WallMap) (g : Segment) : (component m g).head? = some (anchorIn m g) := by
  have hne : component m g ≠ [] := List.ne_nil_of_mem (self_mem_component m g)
  rw [anchorIn, List.headD_eq_head?_getD, List.head?_eq_some_head hne, Option.getD_some]

/-- The anchor is a segment of the room. -/
theorem anchorIn_mem_component (m : WallMap) (g : Segment) : anchorIn m g ∈ component m g :=
  List.mem_of_mem_head? (head?_component m g)

theorem component_anchorIn (m : WallMap) (g : Segment) : component m (anchorIn m g) = component m g :=
  component_eq_of_mem (anchorIn_mem_component m g)

/-- Equal rooms have equal anchors. -/
theorem anchorIn_congr {m m' : WallMap} {g h : Segment} (hc : component m g = component m' h) :
    anchorIn m g = anchorIn m' h :=
  Option.some.inj (by rw [← head?_component, ← head?_component, hc])

@[simp] theorem anchorIn_anchorIn (m : WallMap) (g : Segment) : anchorIn m (anchorIn m g) = anchorIn m g :=
  anchorIn_congr (component_anchorIn m g)

theorem mem_anchorsOf {m : WallMap} {a : Segment} : a ∈ anchorsOf m ↔ anchorIn m a = a := by
  simp [anchorsOf, allSegments]

/-! ### The walls between two segments (R1) -/

theorem adjacentTo_iff {w : WallId} {g : Segment} :
    adjacentTo w g = true ↔ g = (wallSides.get w).1 ∨ g = (wallSides.get w).2 := by
  simp [adjacentTo, sidesOf]

/-- Two segments that an open wall joins are equal or lie on the two sides of the wall. -/
theorem joined_iff_sides {m : WallMap} {g h : Segment} (hne : g ≠ h) :
    joined m g h = true ↔
      ∃ w, m.get w = .opened ∧ g ≠ h ∧ (wallSides.get w = (g, h) ∨ wallSides.get w = (h, g)) := by
  rw [joined_iff]
  refine exists_congr fun w => and_congr_right fun _ => ?_
  rw [adjacentTo_iff, adjacentTo_iff, Prod.ext_iff, Prod.ext_iff]
  constructor
  · rintro ⟨rfl | rfl, rfl | rfl⟩
    · exact absurd rfl hne
    · exact ⟨hne, .inl ⟨rfl, rfl⟩⟩
    · exact ⟨hne, .inr ⟨rfl, rfl⟩⟩
    · exact absurd rfl hne
  · rintro ⟨-, ⟨rfl, rfl⟩ | ⟨rfl, rfl⟩⟩
    · exact ⟨.inl rfl, .inr rfl⟩
    · exact ⟨.inr rfl, .inl rfl⟩

/-- Settles O16: five expansions reach all that a chain of open walls reaches, as there are six segments. -/
theorem roomsAreComponents : Obligations.RoomsAreComponents := by
  intro m g h
  rw [mem_component_iff]
  constructor <;> intro hr
  · induction hr with
    | refl => exact .refl
    | @tail x y _ hj ih =>
      by_cases hxy : x = y
      · exact hxy ▸ ih
      · exact ih.tail ((joined_iff_sides hxy).mp hj)
  · refine Relation.ReflTransGen.mono (fun x y hw => ?_) _ _ hr
    obtain ⟨w, hw, hxy, hs⟩ := hw
    exact (joined_iff_sides hxy).mpr ⟨w, hw, hxy, hs⟩

end Sys2Proof.Machine
end

section
/-! One step of the part: what each event does to the state, and how a condition that every event keeps is kept by a
step. -/

namespace Sys2Proof.Machine
open Sys2Proof.Safety

/-! ### The effect of an event -/

/-- What an event or command does to the state before idle transmitters take their next message. The reset input has a
meaning of its own (R197). -/
def effectOf : Instr → State → State
  | .powerOnReset _ => id
  | .frameEvent micros levels booths => takeEdge micros levels booths
  | .debounceEnd w => endDebounce w
  | .consentExpiry w => expireConsent w
  | .warmingExpiry k => endWarming k
  | .holdExpiry k => expireHold k
  | .deadlineExpiry i => endSpeech i
  | .releaseEnd i => fun s => releaseEndOf (seatRoom s i) i s
  | .readyReport a => becomeSilent a
  | .commit order => takeCommit order
  | .uplinkFrame k frame => takeUplink k frame
  | .missingFrame k => takeMissing k
  | .messageArrival p => endMessage p
  | .portReset p => leaveByReset p
  | .messageSent p => fun s => s.modPort p PortRec.sent
  | .startBit p samples => fun s => s.modPort p (PortRec.startBit samples)
  | .characterComplete p samples => fun s => s.modPort p (PortRec.character samples)
  | .lineHighInLowWait p => fun s => s.modPort p PortRec.lineHigh
  | .breakWaitEnd p => fun s => s.modPort p PortRec.breakEnds
  | c => runCommand c

theorem exec_eq_carryOut {c : Instr} (hc : ∀ x, c ≠ .powerOnReset x) (s : State) : exec c s = carryOut (effectOf c) s := by
  cases c <;> first | rfl | exact absurd rfl (hc _)

/-- An event of a part that is not held in reset. -/
theorem exec_eq_next {c : Instr} (hc : ∀ x, c ≠ .powerOnReset x) {s : State} (hs : s.held = false) :
    exec c s = .next (startTransmitters (effectOf c s)) := by
  rw [exec_eq_carryOut hc, carryOut_eq hs]
  rfl

/-- While the reset input is low nothing but the reset input has an effect (R197). -/
theorem exec_held {c : Instr} (hc : ∀ x, c ≠ .powerOnReset x) {s : State} (hs : s.held = true) : exec c s = .next s := by
  rw [exec_eq_carryOut hc, carryOut_held hs]

/-- A condition on states that does not look at the waiting commands, holds after power-on reset, and is kept while the
reset input is low, when transmitters start, and by the effect of every other event. -/
structure Kept (P : State → Prop) : Prop where
  pending : ∀ s l, P s → P { s with pending := l }
  hold : ∀ s, P s → P (holdReset s)
  powerOn : ∀ levels, P (State.powerOn levels)
  start : ∀ s, P s → P (startTransmitters s)
  effect : ∀ c s, P s → P (effectOf c s)

theorem Kept.exec {P : State → Prop} (h : Kept P) {c : Instr} {s t : State} (hs : P s) (he : exec c s = .next t) : P t := by
  by_cases hc : ∀ x, c ≠ .powerOnReset x
  · cases hheld : s.held with
    | true => rw [exec_held hc hheld] at he; exact Host.Outcome.next.inj he ▸ hs
    | false =>
      rw [exec_eq_next hc hheld] at he
      exact Host.Outcome.next.inj he ▸ h.start _ (h.effect _ _ hs)
  · push Not at hc
    obtain ⟨levels, rfl⟩ := hc
    cases levels with
    | none => exact Host.Outcome.next.inj he ▸ h.hold _ hs
    | some high => exact Host.Outcome.next.inj he ▸ h.pending _ _ (h.powerOn high)

/-- A step keeps what every event keeps. -/
theorem Kept.step {P : State → Prop} (h : Kept P) {s t : State} (hs : P s) (ht : step s = .next t) : P t := by
  unfold Machine.step at ht
  split at ht
  · exact Host.Outcome.next.inj ht ▸ hs
  · exact h.exec (h.pending _ _ hs) ht

/-! ### Commands -/

/-- What each of the shared parts of a command keeps, the whole command keeps. -/
theorem serve_related {R : State → State → Prop} {p : Port} {tag : Byte} {read : Bool} {rule : State → Answer} {s : State}
    (notify : ∀ body, R s (notify [p] body s)) (push : ∀ r t, R s t → R s (pushReply p r t)) (refl : R s s)
    (taken : read = true ∨ isAttached s p = true → R s (rule s).state) : R s (serve p tag read rule s) := by
  unfold serve
  split
  · exact notify _
  · split
    · exact push _ _ refl
    · next h => exact push _ _ (taken (by cases read <;> simp_all))

end Sys2Proof.Machine
end

section
/-! What of the part the partition controller's conditions look at, and the events that leave it alone. -/

namespace Sys2Proof.Machine
open Sys2Proof.Safety

/-! ### The hall: walls, room table, plan of the repartition, attached ports -/

/-- Between two states the wall records, the room table, the target and the affected rooms of a repartition, and which
ports are ATTACHED are the same. -/
structure HallKept (s t : State) : Prop where
  walls : t.walls = s.walls
  rooms : t.rooms = s.rooms
  plan : t.repartition.map (fun rp => (rp.target, rp.affected)) = s.repartition.map fun rp => (rp.target, rp.affected)
  attached : ∀ p, (t.ports.get p).attached = (s.ports.get p).attached

theorem HallKept.refl (s : State) : HallKept s s :=
  ⟨rfl, rfl, rfl, fun _ => rfl⟩

theorem HallKept.trans {s t u : State} (h : HallKept s t) (h' : HallKept t u) : HallKept s u :=
  ⟨h'.walls.trans h.walls, h'.rooms.trans h.rooms, h'.plan.trans h.plan, fun p => (h'.attached p).trans (h.attached p)⟩

theorem HallKept.foldl {α : Type} {f : State → α → State} (h : ∀ s x, HallKept s (f s x)) (l : List α) (s : State) :
    HallKept s (l.foldl f s) := by
  induction l generalizing s with
  | nil => exact .refl s
  | cons x l ih => exact (h s x).trans (ih _)

/-- A state that differs in other fields only. -/
theorem HallKept.of_eq {s t : State} (hw : t.walls = s.walls) (hr : t.rooms = s.rooms)
    (hp : t.repartition = s.repartition) (ha : t.ports = s.ports) : HallKept s t :=
  ⟨hw, hr, by rw [hp], fun p => by rw [ha]⟩

theorem samePorts.attached {s t : State} (h : samePorts s t) (p : Port) :
    (t.ports.get p).attached = (s.ports.get p).attached := by
  rw [h p]

theorem SeatFrame.hallKept {s t : State} (h : SeatFrame s t) : HallKept s t :=
  ⟨by rw [h.rest], by rw [h.rest], by rw [h.rest], h.ports.attached⟩

theorem FloorFrame.hallKept {s t : State} (h : FloorFrame s t) : HallKept s t :=
  h.toSeat.hallKept

theorem BoothFrame.hallKept {s t : State} (h : BoothFrame s t) : HallKept s t :=
  ⟨by rw [h.rest], by rw [h.rest], by rw [h.rest], h.ports.attached⟩

theorem notify_hallKept (ports : List Port) (body : NoticeBody) (s : State) : HallKept s (notify ports body s) :=
  (notify_floorFrame ports body s).hallKept

theorem sendAll_hallKept (sent : List Sent) (s : State) : HallKept s (sendAll sent s) := by
  induction sent generalizing s with
  | nil => exact .refl s
  | cons n sent ih => exact (notify_hallKept n.1 n.2 s).trans (ih _)

theorem modPort_hallKept (p : Port) {f : PortRec → PortRec} (h : ∀ r, (f r).attached = r.attached) (s : State) :
    HallKept s (s.modPort p f) where
  walls := rfl
  rooms := rfl
  plan := rfl
  attached q := by
    rw [State.modPort_ports, Tab.get_modify]
    split
    · exact h _
    · rfl

theorem pushReply_hallKept (p : Port) (r : Reply) (s : State) : HallKept s (pushReply p r s) := by
  refine modPort_hallKept p (fun _ => ?_) s
  rfl

theorem startTransmitters_hallKept (s : State) : HallKept s (startTransmitters s) :=
  ⟨rfl, rfl, rfl, fun p => by simp [startTransmitters]⟩

theorem modTrunk_hallKept (k : TrunkId) (f : Trunk → Trunk) (s : State) : HallKept s (s.modTrunk k f) :=
  ⟨rfl, rfl, rfl, fun _ => rfl⟩

theorem modMix_hallKept (a : Segment) (f : MixRoom → MixRoom) (s : State) : HallKept s (s.modMix a f) :=
  ⟨rfl, rfl, rfl, fun _ => rfl⟩

theorem reportReady_hallKept (a : Segment) (s : State) : HallKept s (reportReady a s) := by
  unfold reportReady
  split
  · next rp hrp =>
    split
    · exact ⟨rfl, rfl, by simp [hrp], fun _ => rfl⟩
    · exact .refl s
  · exact .refl s

/-! ### Trunks and seats -/

theorem trunkNotice_hallKept (k : TrunkId) (s : State) : HallKept s (trunkNotice k s) :=
  notify_hallKept ..

theorem takeFrame_hallKept (k : TrunkId) (frame : Option UplinkFrame) (s : State) : HallKept s (takeFrame k frame s) := by
  unfold takeFrame
  extract_lets before after audio s1
  split
  · exact modTrunk_hallKept ..
  · exact (modTrunk_hallKept ..).trans (trunkNotice_hallKept ..)

theorem acknowledge_hallKept (k : TrunkId) (pos : Position) (toggle : Bool) (s : State) :
    HallKept s (acknowledge k pos toggle s) :=
  modTrunk_hallKept ..

theorem storeToggle_hallKept (i : SeatId) (toggle : Bool) (s : State) : HallKept s (storeToggle i toggle s) :=
  (modSeat_seatFrame i _ s).hallKept

theorem acceptEvent_hallKept (k : TrunkId) (pos : Position) (kind : EventKind) (toggle : Bool) (s : State) :
    HallKept s (acceptEvent k pos kind toggle s) := by
  have noted (i : SeatId) : HallKept s (acknowledge k pos toggle (storeToggle i toggle s)) :=
    (storeToggle_hallKept ..).trans (acknowledge_hallKept ..)
  unfold acceptEvent
  dsimp only
  repeat' split
  · exact acknowledge_hallKept ..
  · exact (noted _).trans (modTrunk_hallKept ..)
  · exact .refl s
  · exact (noted _).trans (seatEvent_seatFrame ..).hallKept

theorem uplinkEvent_hallKept (k : TrunkId) (e : UplinkEvent) (s : State) : HallKept s (uplinkEvent k s e) := by
  unfold uplinkEvent
  split
  · exact acceptEvent_hallKept ..
  · exact .refl s

theorem takeUplink_hallKept (k : TrunkId) (frame : UplinkFrame) (s : State) : HallKept s (takeUplink k frame s) := by
  unfold takeUplink
  dsimp only
  repeat' split
  · exact (takeFrame_hallKept ..).trans (.foldl (fun s e => uplinkEvent_hallKept k e s) _ _)
  · exact takeFrame_hallKept ..
  · exact .refl s

theorem takeMissing_hallKept (k : TrunkId) (s : State) : HallKept s (takeMissing k s) := by
  unfold takeMissing
  split
  · exact takeFrame_hallKept ..
  · exact .refl s

theorem endWarming_hallKept (k : TrunkId) (s : State) : HallKept s (endWarming k s) := by
  unfold endWarming
  dsimp only
  repeat' split
  · exact (modTrunk_hallKept ..).trans (trunkNotice_hallKept ..)
  · exact .refl s
  · exact .refl s

theorem loseLink_hallKept (k : TrunkId) (reason : FloorReason) (change : Trunk → Trunk) (s : State) :
    HallKept s (loseLink k reason change s) :=
  (((modTrunk_hallKept k _ s).trans (takeSeatsOffline_seatFrame ..).hallKept).trans (trunkNotice_hallKept ..)).trans
    (endHandling_floorFrame ..).hallKept

theorem expireHold_hallKept (k : TrunkId) (s : State) : HallKept s (expireHold k s) := by
  unfold expireHold
  repeat' split
  · exact loseLink_hallKept ..
  · exact .refl s
  · exact .refl s

theorem trunkOn_hallKept (k : TrunkId) (s : State) : HallKept s (trunkOn k s) := by
  unfold trunkOn
  split
  · exact (modTrunk_hallKept ..).trans (trunkNotice_hallKept ..)
  · exact .refl s

theorem trunkOff_hallKept (k : TrunkId) (s : State) : HallKept s (trunkOff k s) := by
  unfold trunkOff
  dsimp only
  repeat' split
  · exact .refl s
  · exact (modTrunk_hallKept ..).trans (trunkNotice_hallKept ..)
  · exact loseLink_hallKept ..
  · exact (modTrunk_hallKept ..).trans (trunkNotice_hallKept ..)

/-! ### Timed events of the floor and the mix engine -/

theorem endSpeech_hallKept (i : SeatId) (s : State) : HallKept s (endSpeech i s) := by
  unfold endSpeech
  dsimp only
  split
  · exact ((removeSpeaker_floorFrame ..).trans (endHandling_floorFrame ..)).hallKept
  · exact .refl s

theorem releaseEndOf_floorFrame (a : Segment) (i : SeatId) (s : State) : FloorFrame s (releaseEndOf a i s) := by
  unfold releaseEndOf
  split
  · exact (endRelease_floorFrame ..).trans (freeChannel_floorFrame ..)
  · exact .refl s

theorem becomeSilent_hallKept (a : Segment) (s : State) : HallKept s (becomeSilent a s) := by
  unfold becomeSilent
  dsimp only
  split
  · exact (modMix_hallKept ..).trans (reportReady_hallKept ..)
  · exact .refl s

/-! ### Ports -/

@[simp] theorem PortRec.sent_attached (r : PortRec) : r.sent.attached = r.attached := by
  cases h : r.transmitter <;> simp [PortRec.sent, h]

@[simp] theorem PortRec.startBit_attached (b : BitSamples) (r : PortRec) : (r.startBit b).attached = r.attached := by
  unfold PortRec.startBit
  repeat' split
  all_goals rfl

@[simp] theorem PortRec.character_attached (samples : Tab 9 BitSamples) (r : PortRec) :
    (r.character samples).attached = r.attached := by
  cases h : r.receiver <;> simp [PortRec.character, h]

@[simp] theorem PortRec.lineHigh_attached (r : PortRec) : r.lineHigh.attached = r.attached := by
  cases h : r.receiver <;> simp [PortRec.lineHigh, h]

@[simp] theorem PortRec.breakEnds_attached (r : PortRec) : r.breakEnds.attached = r.attached := by
  cases h : r.receiver <;> simp [PortRec.breakEnds, h]

/-! ### Command rules -/

/-- An answer that leaves the hall as it stands in `s`. -/
def AnswerKeeps (s : State) (a : Answer) : Prop :=
  HallKept s a.state

theorem refuse_keeps (code : ReplyCode) (s : State) : AnswerKeeps s (refuse code s) :=
  HallKept.refl s

theorem leadCommand_keeps {p : Port} {rule : Segment → State → Answer} {s : State}
    (h : AnswerKeeps s (rule (roomOf s p) s)) : AnswerKeeps s (leadCommand p rule s) := by
  unfold leadCommand
  repeat' split
  · exact refuse_keeps ..
  · exact refuse_keeps ..
  · exact h

theorem trunkCommand_keeps {p : Port} {trunk : Byte} {rule : TrunkId → State → Answer} {s : State}
    (h : ∀ k, AnswerKeeps s (rule k s)) : AnswerKeeps s (trunkCommand p trunk rule s) := by
  unfold trunkCommand
  repeat' split
  · exact refuse_keeps ..
  · exact h _
  · exact refuse_keeps ..

theorem ownBooth_keeps {a : Segment} {b : BoothId} {rule : State → Answer} {s : State} (h : AnswerKeeps s (rule s)) :
    AnswerKeeps s (ownBooth a b rule s) := by
  unfold ownBooth
  repeat' split
  · exact refuse_keeps ..
  · exact refuse_keeps ..
  · exact h

theorem grantAnswer_keeps {a : Segment} {s : State} {r : GrantResult} (h : GrantFrame s r) :
    AnswerKeeps s (grantAnswer a s r) := by
  cases r with
  | refused code => exact refuse_keeps ..
  | granted i t => exact FloorFrame.hallKept h

theorem ruleSetHall_keeps (settle start hold : Half) (s : State) : AnswerKeeps s (ruleSetHall settle start hold s) := by
  have stored (h : HallSettings) : HallKept s (s.setHallSettings h) := .of_eq rfl rfl rfl rfl
  exact (stored _).trans (notify_hallKept ..)

theorem ruleReadWall_keeps (wall : Byte) (s : State) : AnswerKeeps s (ruleReadWall wall s) := by
  unfold ruleReadWall
  split <;> exact HallKept.refl s

theorem ruleReadRoom_keeps (p : Port) (room : Byte) (s : State) : AnswerKeeps s (ruleReadRoom p room s) := by
  unfold ruleReadRoom
  repeat' split
  · exact refuse_keeps ..
  · exact refuse_keeps ..
  · exact modMix_hallKept ..

theorem applyProfile_hallKept (a : Segment) (profile : Profile) (s : State) : HallKept s (applyProfile a profile s) := by
  have stored : HallKept s (s.setProfileOf a profile) := .of_eq rfl rfl rfl rfl
  unfold applyProfile
  dsimp only
  split
  · split
    · exact stored
    · exact stored.trans (removeRequests_floorFrame ..).hallKept
  · exact stored.trans (autoAdvance_floorFrame ..).hallKept
  · exact stored

theorem ruleSetProfile_keeps (p : Port) (mode cap reqs : Byte) (speech low gain : Half) (s : State) :
    AnswerKeeps s (ruleSetProfile p mode cap reqs speech low gain s) := by
  unfold ruleSetProfile
  dsimp only
  repeat' split
  · exact refuse_keeps ..
  · exact refuse_keeps ..
  · exact refuse_keeps ..
  · exact applyProfile_hallKept ..

theorem ruleReadProfile_keeps (p : Port) (segment : Byte) (s : State) : AnswerKeeps s (ruleReadProfile p segment s) := by
  unfold ruleReadProfile
  split <;> exact HallKept.refl s

theorem ruleTrunkPower_keeps (p : Port) (trunk switch : Byte) (s : State) :
    AnswerKeeps s (ruleTrunkPower p trunk switch s) := by
  unfold ruleTrunkPower
  split
  · exact refuse_keeps ..
  · refine trunkCommand_keeps fun k => ?_
    dsimp only [AnswerKeeps]
    split
    · exact trunkOn_hallKept ..
    · exact trunkOff_hallKept ..

theorem ruleTrunkRestart_keeps (p : Port) (trunk : Byte) (s : State) : AnswerKeeps s (ruleTrunkRestart p trunk s) := by
  refine trunkCommand_keeps fun k => ?_
  split
  · exact (modTrunk_hallKept ..).trans (trunkNotice_hallKept ..)
  · exact modTrunk_hallKept ..
  · exact HallKept.refl s
  · exact refuse_keeps ..

theorem ruleTrunkTest_keeps (p : Port) (trunk : Byte) (s : State) : AnswerKeeps s (ruleTrunkTest p trunk s) := by
  refine trunkCommand_keeps fun k => ?_
  split
  · exact modTrunk_hallKept ..
  · exact refuse_keeps ..

theorem ruleSnapshot_keeps (p : Port) (trunk : Byte) (s : State) : AnswerKeeps s (ruleSnapshot p trunk s) :=
  trunkCommand_keeps fun _ => modTrunk_hallKept ..

theorem ruleReadTrunk_keeps (trunk : Byte) (s : State) : AnswerKeeps s (ruleReadTrunk trunk s) := by
  unfold ruleReadTrunk
  split <;> exact HallKept.refl s

theorem ruleSetSeat_keeps (p : Port) (seat enabled chair : Byte) (s : State) :
    AnswerKeeps s (ruleSetSeat p seat enabled chair s) := by
  unfold ruleSetSeat
  split
  · dsimp only
    repeat' split
    · exact refuse_keeps ..
    · exact refuse_keeps ..
    · exact refuse_keeps ..
    · exact (modSeat_seatFrame ..).hallKept
  · exact refuse_keeps ..

theorem ruleReadSeat_keeps (seat : Byte) (s : State) : AnswerKeeps s (ruleReadSeat seat s) := by
  unfold ruleReadSeat
  split <;> exact HallKept.refl s

theorem ruleGrantNext_keeps (p : Port) (replace : Byte) (s : State) : AnswerKeeps s (ruleGrantNext p replace s) := by
  unfold ruleGrantNext
  split
  · exact refuse_keeps ..
  · exact leadCommand_keeps (grantAnswer_keeps (grantHead_frame ..))

theorem ruleGrant_keeps (p : Port) (seat replace : Byte) (s : State) : AnswerKeeps s (ruleGrant p seat replace s) := by
  unfold ruleGrant
  split
  · exact ruleGrantNext_keeps ..
  · split
    · exact leadCommand_keeps (grantAnswer_keeps (grantNamed_frame ..))
    · exact refuse_keeps ..

theorem ruleClose_keeps (p : Port) (seat : Byte) (s : State) : AnswerKeeps s (ruleClose p seat s) := by
  unfold ruleClose
  split
  · exact refuse_keeps ..
  · refine leadCommand_keeps ?_
    split
    · exact ((removeSpeaker_floorFrame ..).trans (endHandling_floorFrame ..)).hallKept
    · exact refuse_keeps ..

theorem ruleDeny_keeps (p : Port) (seat : Byte) (s : State) : AnswerKeeps s (ruleDeny p seat s) := by
  unfold ruleDeny
  split
  · exact refuse_keeps ..
  · refine leadCommand_keeps ?_
    split
    · exact (removeRequest_floorFrame ..).hallKept
    · exact refuse_keeps ..

theorem ruleEnqueue_keeps (p : Port) (seat : Byte) (s : State) : AnswerKeeps s (ruleEnqueue p seat s) := by
  unfold ruleEnqueue
  split
  · exact refuse_keeps ..
  · refine leadCommand_keeps ?_
    repeat' split
    · exact refuse_keeps ..
    · exact refuse_keeps ..
    · exact refuse_keeps ..
    · exact refuse_keeps ..
    · exact refuse_keeps ..
    · exact ((enqueueSeat_floorFrame ..).trans (autoAdvance_floorFrame ..)).hallKept

theorem clearSpeakers_floorFrame (a : Segment) (s : State) : FloorFrame s (clearSpeakers a s) :=
  .foldl (fun _ _ => removeSpeaker_floorFrame ..) _ _

theorem ruleClear_keeps (p : Port) (selector : Byte) (s : State) : AnswerKeeps s (ruleClear p selector s) := by
  unfold ruleClear
  split
  · exact refuse_keeps ..
  · next speakers requests _ =>
    refine leadCommand_keeps ?_
    extract_lets s1 s2
    have cleared : FloorFrame s s1 := by
      unfold s1
      split
      · exact clearSpeakers_floorFrame ..
      · exact .refl s
    have emptied : FloorFrame s1 s2 := by
      unfold s2
      split
      · exact removeRequests_floorFrame ..
      · exact .refl s1
    exact ((cleared.trans emptied).trans (endHandling_floorFrame ..)).hallKept

theorem cancelPriority_floorFrame (a : Segment) (seats : List SeatId) (s : State) :
    FloorFrame s (cancelPriority a seats s) :=
  (FloorFrame.foldl (fun _ _ => leaveHold_floorFrame ..) seats s).trans (endHandling_floorFrame ..)

theorem rulePriorityCancel_keeps (p : Port) (seat : Byte) (s : State) :
    AnswerKeeps s (rulePriorityCancel p seat s) := by
  unfold rulePriorityCancel
  split
  · exact refuse_keeps ..
  · refine leadCommand_keeps ?_
    split
    · exact refuse_keeps ..
    · exact (cancelPriority_floorFrame ..).hallKept

theorem ruleReadFloor_keeps (p : Port) (room selector start count : Byte) (s : State) :
    AnswerKeeps s (ruleReadFloor p room selector start count s) := by
  unfold ruleReadFloor
  repeat' split
  all_goals exact HallKept.refl s

theorem modBooth_hallKept (b : BoothId) (f : Booth → Booth) (s : State) : HallKept s (s.modBooth b f) :=
  .of_eq rfl rfl rfl rfl

theorem ruleAssignBooth_keeps (p : Port) (booth language slot : Byte) (s : State) :
    AnswerKeeps s (ruleAssignBooth p booth language slot s) := by
  unfold ruleAssignBooth
  repeat' split
  · exact refuse_keeps ..
  · exact refuse_keeps ..
  · refine leadCommand_keeps ?_
    split
    · exact refuse_keeps ..
    · exact (modBooth_hallKept ..).trans (runAllocator_boothFrame ..).hallKept

theorem releaseBoothOf_hallKept (a : Segment) (b : BoothId) (s : State) : HallKept s (releaseBoothOf a b s) := by
  unfold releaseBoothOf
  extract_lets s1 s2 s3 s4
  have released : HallKept s s1 := modBooth_hallKept ..
  have reverted : BoothFrame s1 s2 := revertRelays_boothFrame ..
  have freed : BoothFrame s2 s3 := .foldl (fun s k => releaseTapIf_boothFrame _ k s) _ _
  have noted : BoothFrame s3 s4 := notify_boothFrame ..
  exact released.trans (((reverted.trans freed).trans noted).trans (runAllocator_boothFrame ..)).hallKept

theorem ruleReleaseBooth_keeps (p : Port) (booth : Byte) (s : State) : AnswerKeeps s (ruleReleaseBooth p booth s) := by
  unfold ruleReleaseBooth
  split
  · exact refuse_keeps ..
  · next b _ =>
    refine leadCommand_keeps (ownBooth_keeps ?_)
    dsimp only [AnswerKeeps]
    exact releaseBoothOf_hallKept (roomOf s p) b s

theorem ruleSetRelay_keeps (p : Port) (booth source : Byte) (s : State) :
    AnswerKeeps s (ruleSetRelay p booth source s) := by
  unfold ruleSetRelay
  split
  · refine leadCommand_keeps (ownBooth_keeps ?_)
    split
    · exact refuse_keeps ..
    · dsimp only [AnswerKeeps]
      split
      · exact .refl s
      · exact (modBooth_hallKept ..).trans (notify_hallKept ..)
  · exact refuse_keeps ..

theorem ruleReadBooth_keeps (booth : Byte) (s : State) : AnswerKeeps s (ruleReadBooth booth s) := by
  unfold ruleReadBooth
  split <;> exact HallKept.refl s

theorem ruleSetPaGain_keeps (p : Port) (segment : Byte) (gain : Half) (s : State) :
    AnswerKeeps s (ruleSetPaGain p segment gain s) := by
  unfold ruleSetPaGain
  repeat' split
  · exact refuse_keeps ..
  · exact refuse_keeps ..
  · exact HallKept.of_eq rfl rfl rfl rfl

theorem ruleJoinTap_keeps (p : Port) (tap kind number : Byte) (s : State) :
    AnswerKeeps s (ruleJoinTap p tap kind number s) := by
  unfold ruleJoinTap
  dsimp only
  repeat' split
  · exact refuse_keeps ..
  · exact refuse_keeps ..
  · exact refuse_keeps ..
  · exact (setTapOf_boothFrame ..).hallKept
  · exact refuse_keeps ..

theorem ruleLeaveTap_keeps (p : Port) (tap : Byte) (s : State) : AnswerKeeps s (ruleLeaveTap p tap s) := by
  have freed (k : TapId) : HallKept s (s.setTapOf k none) := (setTapOf_boothFrame ..).hallKept
  unfold ruleLeaveTap
  dsimp only
  repeat' split
  · exact refuse_keeps ..
  · exact refuse_keeps ..
  · exact refuse_keeps ..
  · exact refuse_keeps ..
  · exact freed _
  · exact (freed _).trans (notify_hallKept ..)

theorem ruleReadTap_keeps (tap : Byte) (s : State) : AnswerKeeps s (ruleReadTap tap s) := by
  unfold ruleReadTap
  split <;> exact HallKept.refl s

end Sys2Proof.Machine
end

section
/-! The frame event: which parts of the state its stages write, and what it leaves alone (R138, R142, R198). -/

namespace Sys2Proof.Machine
open Sys2Proof.Safety

/-- The hall after the clock has advanced, the walls and the booth inputs are sampled: what the frame computation starts
from (R3, R116, R138). -/
def sampled (levels : WallMap) (inputs : Tab 8 (Option Sys2Proof.BoothFrame)) (s : State) : State :=
  takeTallies inputs (sampleWalls levels (advanceClock s))

/-! ### The frame computation -/

/-- What the frame computation may write: speakers of the floors, mixes, trunks, ports and the outputs. -/
structure FrameFrame (s t : State) : Prop where
  rest : t =
    { s with
      ports := t.ports
      trunks := t.trunks
      mixes := t.mixes
      floors := t.floors
      signals := t.signals
      listen := t.listen
      paOut := t.paOut
      tapOut := t.tapOut
      downlinks := t.downlinks }
  ports : samePorts s t
  floors : ∀ a, (t.floors.get a).queue = (s.floors.get a).queue ∧ (t.floors.get a).holders = (s.floors.get a).holders

theorem FrameFrame.refl (s : State) : FrameFrame s s :=
  ⟨rfl, fun _ => rfl, fun _ => ⟨rfl, rfl⟩⟩

theorem FrameFrame.trans {s t u : State} (h : FrameFrame s t) (h' : FrameFrame t u) : FrameFrame s u where
  rest := by rw [h'.rest, h.rest]
  ports := samePorts_trans h.ports h'.ports
  floors a := ⟨(h'.floors a).1.trans (h.floors a).1, (h'.floors a).2.trans (h.floors a).2⟩

theorem FrameFrame.foldl {α : Type} {f : State → α → State} (h : ∀ s x, FrameFrame s (f s x)) (l : List α) (s : State) :
    FrameFrame s (l.foldl f s) := by
  induction l generalizing s with
  | nil => exact .refl s
  | cons x l ih => exact (h s x).trans (ih _)

theorem FrameFrame.hallKept {s t : State} (h : FrameFrame s t) : HallKept s t :=
  ⟨by rw [h.rest], by rw [h.rest], by rw [h.rest], h.ports.attached⟩

theorem clipNotice_frameFrame (a : Segment) (before s : State) : FrameFrame s (clipNotice a before s) := by
  unfold clipNotice
  split
  · exact ⟨rfl, (notify_floorFrame ..).ports, fun _ => ⟨rfl, rfl⟩⟩
  · exact .refl s

theorem computeRooms_frameFrame (inputs : Tab 8 (Option Sys2Proof.BoothFrame)) (s : State) :
    FrameFrame s (computeRooms inputs s) := by
  unfold computeRooms
  extract_lets frames s1
  have computed : FrameFrame s s1 :=
    ⟨rfl, fun _ => rfl, fun a => by simp only [s1, Tab.get_ofFn]; split <;> exact ⟨rfl, rfl⟩⟩
  exact computed.trans (.foldl (fun t a => clipNotice_frameFrame a s t) _ _)

theorem formOutputs_frameFrame (inputs : Tab 8 (Option Sys2Proof.BoothFrame)) (s : State) :
    FrameFrame s (formOutputs inputs s) :=
  ⟨rfl, fun _ => rfl, fun _ => ⟨rfl, rfl⟩⟩

theorem releaseEndOf_frameFrame (a : Segment) (i : SeatId) (s : State) : FrameFrame s (releaseEndOf a i s) := by
  unfold releaseEndOf
  split
  · exact ⟨rfl, fun _ => rfl, fun _ => ⟨rfl, rfl⟩⟩
  · exact .refl s

theorem endReleases_frameFrame (a : Segment) (s : State) : FrameFrame s (endReleases a s) :=
  .foldl (fun s i => releaseEndOf_frameFrame a i s) _ s

theorem sendDownlinks_frameFrame (s : State) : FrameFrame s (sendDownlinks s) :=
  ⟨rfl, fun _ => rfl, fun _ => ⟨rfl, rfl⟩⟩

/-- After the samples are taken a frame event is the frame computation (R142). -/
theorem frameStep_frameFrame (levels : WallMap) (inputs : Tab 8 (Option Sys2Proof.BoothFrame)) (s : State) :
    FrameFrame (sampled levels inputs s) (frameStep levels inputs s) :=
  (((computeRooms_frameFrame inputs _).trans (formOutputs_frameFrame inputs _)).trans
    (.foldl (fun s a => endReleases_frameFrame a s) _ _)).trans (sendDownlinks_frameFrame _)

/-! ### Which edges are taken (R198) -/

theorem takeEdge_ignored {micros : Nat} {levels : WallMap} {inputs : Tab 8 (Option Sys2Proof.BoothFrame)} {s : State}
    (hseen : s.edgeSeen = true) (hearly : micros < 900) : takeEdge micros levels inputs s = s := by
  simp [takeEdge, hseen, Config.edgeGap, hearly]

theorem takeEdge_taken {micros : Nat} {levels : WallMap} {inputs : Tab 8 (Option Sys2Proof.BoothFrame)} {s : State}
    (h : s.edgeSeen = false ∨ 900 ≤ micros) : takeEdge micros levels inputs s = frameStep levels inputs s := by
  refine if_neg ?_
  rw [Bool.and_eq_true, decide_eq_true_eq, Config.edgeGap]
  rcases h with h | h
  · simp [h]
  · omega

/-! ### A taken frame event, field by field -/

theorem frameStep_rest (levels : WallMap) (inputs : Tab 8 (Option Sys2Proof.BoothFrame)) (s : State) :
    frameStep levels inputs s =
      { sampled levels inputs s with
        ports := (frameStep levels inputs s).ports
        trunks := (frameStep levels inputs s).trunks
        mixes := (frameStep levels inputs s).mixes
        floors := (frameStep levels inputs s).floors
        signals := (frameStep levels inputs s).signals
        listen := (frameStep levels inputs s).listen
        paOut := (frameStep levels inputs s).paOut
        tapOut := (frameStep levels inputs s).tapOut
        downlinks := (frameStep levels inputs s).downlinks } :=
  (frameStep_frameFrame levels inputs s).rest

theorem frameStep_walls (levels : WallMap) (inputs : Tab 8 (Option Sys2Proof.BoothFrame)) (s : State) (w : WallId) :
    (frameStep levels inputs s).walls.get w = sampleWall (s.clock + 1) (levels.get w) (s.walls.get w) := by
  rw [(frameStep_frameFrame levels inputs s).hallKept.walls]
  exact Tab.get_ofFn ..

theorem frameStep_booths (levels : WallMap) (inputs : Tab 8 (Option Sys2Proof.BoothFrame)) (s : State) (b : BoothId) :
    (frameStep levels inputs s).booths.get b = { s.booths.get b with live := boothTally inputs b } := by
  rw [frameStep_rest]
  exact Tab.get_ofFn ..

theorem frameStep_queue (levels : WallMap) (inputs : Tab 8 (Option Sys2Proof.BoothFrame)) (s : State) (a : Segment) :
    ((frameStep levels inputs s).floors.get a).queue = (s.floors.get a).queue := by
  rw [((frameStep_frameFrame levels inputs s).floors a).1]
  simp [sampled, takeTallies, sampleWalls, advanceClock]

theorem frameStep_holders (levels : WallMap) (inputs : Tab 8 (Option Sys2Proof.BoothFrame)) (s : State) (a : Segment) :
    ((frameStep levels inputs s).floors.get a).holders =
      sortBy (holderBefore (s.clock + 1)) (s.floors.get a).holders := by
  rw [((frameStep_frameFrame levels inputs s).floors a).2]
  simp [sampled, takeTallies, sampleWalls, advanceClock]

/-- Settles O31: the samples are taken first, and `FrameFrame` says what the frame computation leaves alone. -/
theorem frameEventTaken : Obligations.FrameEventTaken := by
  intro micros levels inputs s hheld
  have hexec : exec (.frameEvent micros levels inputs) s = finish (takeEdge micros levels inputs s) := carryOut_eq hheld _
  constructor
  · intro hseen hearly
    rw [hexec, takeEdge_ignored hseen hearly, finish_eq_conclude]
  · intro h
    have hrest := frameStep_rest levels inputs s
    have hwalls := frameStep_walls levels inputs s
    have hbooths := frameStep_booths levels inputs s
    have hqueue := frameStep_queue levels inputs s
    have hholders := frameStep_holders levels inputs s
    rw [takeEdge_taken h] at hexec
    generalize frameStep levels inputs s = u at *
    refine ⟨_, hexec, ?_, ?_, ?_, hwalls, hbooths, fun a => ⟨hqueue a, hholders a⟩, ?_⟩
    · exact congrArg State.clock hrest
    · exact congrArg State.edgeSeen hrest
    · exact congrArg State.settleAtFrame hrest
    · rw [hrest]
      rfl

end Sys2Proof.Machine
end

section
/-! The notices of the partition controller, the start of a repartition, and a change of a wall record, each as the state
it leaves with the notices it sends (R6, R18, R25 to R27). -/

namespace Sys2Proof.Machine
open Sys2Proof.Safety

/-! ### Notices and the rest of the state -/

/-- Where the notices of an event go depends on the clock and the ports alone. -/
theorem sendAll_ports_congr {s t : State} (sent : List Sent) (hc : t.clock = s.clock) (hp : t.ports = s.ports) :
    (sendAll sent t).ports = (sendAll sent s).ports :=
  Tab.ext_get fun q => by rw [sendAll_port, sendAll_port, hc, hp]

/-- Notices sent before a change of the rest of the state may be sent after it. -/
theorem eq_sendAll_of_frame {s t u : State} (sent : List Sent) (hc : t.clock = s.clock) (hp : t.ports = s.ports)
    (hu : u = { t with ports := (sendAll sent s).ports }) : u = sendAll sent t := by
  rw [sendAll_frame sent t, sendAll_ports_congr sent hc hp]
  exact hu

theorem sendAll_single (n : Sent) (s : State) : sendAll [n] s = notify n.1 n.2 s := rfl

@[simp] theorem sendAll_walls (sent : List Sent) (s : State) : (sendAll sent s).walls = s.walls := by
  rw [sendAll_frame]

@[simp] theorem sendAll_rooms (sent : List Sent) (s : State) : (sendAll sent s).rooms = s.rooms := by
  rw [sendAll_frame]

@[simp] theorem sendAll_repartition (sent : List Sent) (s : State) : (sendAll sent s).repartition = s.repartition := by
  rw [sendAll_frame]

@[simp] theorem sendAll_mixes (sent : List Sent) (s : State) : (sendAll sent s).mixes = s.mixes := by
  rw [sendAll_frame]

@[simp] theorem sendAll_trunks (sent : List Sent) (s : State) : (sendAll sent s).trunks = s.trunks := by
  rw [sendAll_frame]

@[simp] theorem sendAll_clock (sent : List Sent) (s : State) : (sendAll sent s).clock = s.clock := by
  rw [sendAll_frame]

/-! ### WALL and ROOM notices -/

theorem sendWall_eq (w : WallId) (s : State) : sendWall w s = sendAll [wallSent w (s.walls.get w)] s := rfl

theorem sendWalls_eq (ws : List WallId) (s : State) :
    sendWalls ws s = sendAll (ws.map fun w => wallSent w (s.walls.get w)) s := by
  induction ws generalizing s with
  | nil => rfl
  | cons w ws ih => exact ih (sendWall w s)

/-- The ROOM notice of the room with anchor `a`, where it is a room (R18). -/
def roomSent (s : State) (a : Segment) : List Sent :=
  match s.rooms.get a with
  | some r => [(r.members, .room a r.members r.lead r.status)]
  | none => []

theorem sendRoom_eq (a : Segment) (s : State) : sendRoom a s = sendAll (roomSent s a) s := by
  cases hr : s.rooms.get a with
  | none => simp [sendRoom, roomSent, hr]
  | some r => simp [sendRoom, roomSent, hr, sendAll_single]

theorem roomSent_sendAll (sent : List Sent) (s : State) : roomSent (sendAll sent s) = roomSent s := by
  funext a
  rw [roomSent, sendAll_rooms, roomSent]

theorem foldl_sendRoom (l : List Segment) (s : State) :
    l.foldl (fun s a => sendRoom a s) s = sendAll (l.flatMap (roomSent s)) s := by
  induction l generalizing s with
  | nil => rfl
  | cons a l ih =>
    rw [List.foldl_cons, ih, sendRoom_eq, List.flatMap_cons, sendAll_append, roomSent_sendAll]

/-! ### Affected rooms -/

theorem affectedRooms_nodup (s : State) (target : WallMap) : (affectedRooms s target).Nodup :=
  (List.nodup_finRange 6).filter _

theorem isSome_of_mem_affectedRooms {s : State} {target : WallMap} {a : Segment} (h : a ∈ affectedRooms s target) :
    (s.rooms.get a).isSome = true := by
  have := (List.mem_filter.mp h).2
  split at this
  · next hr => simp [hr]
  · simp at this

/-- Which rooms a target map changes depends on the members of the rooms alone. -/
theorem affectedRooms_congr {s t : State} (h : ∀ a, (t.rooms.get a).map Room.members = (s.rooms.get a).map Room.members)
    (target : WallMap) : affectedRooms t target = affectedRooms s target := by
  refine List.filter_congr fun a _ => ?_
  have := h a
  split <;> split <;> simp_all

/-! ### The start of a drain (R27) -/

theorem foldl_markDraining (l : List Segment) (s : State) :
    l.foldl (fun s a => markDraining a s) s =
      s.setRooms (Tab.ofFn fun a =>
        if l.contains a then (s.rooms.get a).map fun r => { r with status := .draining } else s.rooms.get a) := by
  induction l generalizing s with
  | nil =>
    refine congrArg s.setRooms (Tab.ext_get (t := s.rooms) fun a => ?_)
    simp
  | cons b l ih =>
    rw [List.foldl_cons, ih]
    unfold markDraining
    split
    · next r hr =>
      refine congrArg s.setRooms (Tab.ext_get fun a => ?_)
      by_cases hab : b = a
      · subst hab; simp [hr]
      · have hba : ¬a = b := fun h => hab h.symm
        simp [Tab.get_set_ne _ _ hab, hba]
    · next hr =>
      refine congrArg s.setRooms (Tab.ext_get fun a => ?_)
      by_cases hab : a = b
      · subst hab; simp [hr]
      · simp [hab]

/-- Whether the mix engine reports a room ready at once on a drain request: it rises from fade 0 (R158). -/
def isEarly (m : MixRoom) : Bool :=
  m.phase == .rising && m.fade == 0

/-- A drain request for one affected room that is not reported ready yet (R158). -/
theorem drainMix_eq {a : Segment} {s : State} {rp : Repartition} (hrp : s.repartition = some rp)
    (ha : a ∈ rp.affected) (hr : a ∉ rp.ready) :
    drainMix a s =
      { s with
        mixes := s.mixes.modify a fun m => { m with phase := drainedPhase m }
        repartition := some { rp with ready := rp.ready ++ if isEarly (s.mixes.get a) then [a] else [] } } := by
  have same (h : drainedPhase (s.mixes.get a) = (s.mixes.get a).phase) :
      s.mixes.modify a (fun m => { m with phase := drainedPhase m }) = s.mixes := by
    conv_rhs => rw [← Tab.set_get_self s.mixes a]
    exact congrArg (s.mixes.set a) (by dsimp only; rw [h])
  have moved {phase : FadePhase} (h : drainedPhase (s.mixes.get a) = phase) :
      s.mixes.modify a (fun m => { m with phase := drainedPhase m }) =
        s.mixes.modify a fun m => { m with phase := phase } :=
    congrArg (s.mixes.set a) (by dsimp only; rw [h])
  have kept (h : isEarly (s.mixes.get a) = false) :
      some { rp with ready := rp.ready ++ if isEarly (s.mixes.get a) then [a] else [] } = s.repartition := by
    rw [hrp, h]; simp
  unfold drainMix
  dsimp only
  split
  · next hp => rw [moved (phase := .falling) (by simp [drainedPhase, hp]), kept (by simp [isEarly, hp])]; rfl
  · next hp =>
    split
    · next hf =>
      rw [moved (phase := .silent) (by simp [drainedPhase, hp, hf])]
      simp [reportReady, hrp, ha, hr, isEarly, hp, hf, State.modMix, State.setRepartition]
    · next hf => rw [moved (phase := .falling) (by simp [drainedPhase, hp, hf]), kept (by simp [isEarly, hf])]; rfl
  · next hp => rw [same (by simp [drainedPhase, hp]), kept (by simp [isEarly, hp])]
  · next hp => rw [same (by simp [drainedPhase, hp]), kept (by simp [isEarly, hp])]

theorem foldl_drainMix {l : List Segment} {s : State} {rp : Repartition} (hl : l.Nodup) (hrp : s.repartition = some rp)
    (ha : ∀ a ∈ l, a ∈ rp.affected) (hr : ∀ a ∈ l, a ∉ rp.ready) :
    l.foldl (fun s a => drainMix a s) s =
      { s with
        mixes :=
          Tab.ofFn fun a =>
            if l.contains a then { s.mixes.get a with phase := drainedPhase (s.mixes.get a) } else s.mixes.get a
        repartition := some { rp with ready := rp.ready ++ l.filter fun a => isEarly (s.mixes.get a) } } := by
  induction l generalizing s rp with
  | nil =>
    have hm : (Tab.ofFn fun a => s.mixes.get a) = s.mixes := Tab.ext_get fun a => by simp
    simp [hm, ← hrp]
  | cons b l ih =>
    obtain ⟨hb, hl⟩ := List.nodup_cons.mp hl
    rw [List.foldl_cons, drainMix_eq hrp (ha b (by simp)) (hr b (by simp)),
      ih (rp := { rp with ready := rp.ready ++ if isEarly (s.mixes.get b) then [b] else [] }) hl rfl
        (fun a h => ha a (by simp [h])) (fun a h => ?_)]
    · have hne : ∀ a ∈ l, b ≠ a := fun a h e => hb (e ▸ h)
      have hm : ∀ a ∈ l, (s.mixes.modify b fun m => { m with phase := drainedPhase m }).get a = s.mixes.get a :=
        fun a h => Tab.get_modify_ne _ _ (hne a h)
      have hfilter := List.filter_congr (q := fun a => isEarly (s.mixes.get a)) fun a h => congrArg isEarly (hm a h)
      congr 1
      · rw [hfilter, List.append_assoc, List.filter_cons]
        split <;> simp
      · refine Tab.ext_get fun a => ?_
        by_cases hab : b = a
        · subst hab; simp [hb]
        · have hba : ¬a = b := fun h => hab h.symm
          simp [Tab.get_modify_ne _ _ hab, hba]
    · have := hr a (by simp [h])
      have hab : a ≠ b := fun e => hb (e ▸ h)
      split <;> simp [this, hab]

theorem foldl_drainTrunk (l : List Segment) (s : State) :
    l.foldl (fun s k => drainTrunk k s) s =
      { s with
        trunks :=
          Tab.ofFn fun k => { s.trunks.get k with holding := (s.trunks.get k).holding || l.contains k } } := by
  induction l generalizing s with
  | nil =>
    have ht : (Tab.ofFn fun k => s.trunks.get k) = s.trunks := Tab.ext_get fun k => by simp
    simp [ht]
  | cons j l ih =>
    rw [List.foldl_cons, ih]
    refine congrArg (fun trunks => { s with trunks := trunks }) (Tab.ext_get fun k => ?_)
    by_cases hjk : j = k
    · subst hjk; simp [drainTrunk]
    · have hkj : ¬k = j := fun h => hjk h.symm
      simp [drainTrunk, Tab.get_modify_ne _ _ hjk, hkj]

/-- The state in which the rooms with the anchors `affected` begin to drain, where the mix engine has not made those of
`uncreated` yet (R27, R56, R158). -/
def drainBegunBut (uncreated : List Segment) (s : State) (affected : List Segment) : State :=
  let made := affected.filter fun a => !uncreated.contains a
  { s with
    repartition :=
      some { target := effectiveMap s, affected := affected, ready := made.filter fun a => isEarly (s.mixes.get a) }
    rooms :=
      Tab.ofFn fun a =>
        if affected.contains a then (s.rooms.get a).map fun r => { r with status := .draining } else s.rooms.get a
    mixes :=
      Tab.ofFn fun a =>
        if made.contains a then { s.mixes.get a with phase := drainedPhase (s.mixes.get a) } else s.mixes.get a
    trunks :=
      Tab.ofFn fun k =>
        { s.trunks.get k with
          holding := (s.trunks.get k).holding || affected.any fun a => (membersOf s a).contains k } }

theorem drainBegunBut_nil (s : State) (affected : List Segment) : drainBegunBut [] s affected = drainBegun s affected := by
  simp only [drainBegunBut, drainBegun, List.contains_nil, Bool.not_false, List.filter_true]
  rfl

/-- The ROOM notices of the rooms that begin to drain (R27). -/
def drainSent (s : State) (affected : List Segment) : List Sent :=
  affected.map fun a => (membersOf s a, .room a (membersOf s a) (leadOf s a) .draining)

theorem beginDrain_eq {uncreated affected : List Segment} {s : State} (hn : affected.Nodup)
    (hr : ∀ a ∈ affected, (s.rooms.get a).isSome = true) :
    beginDrain uncreated affected s = sendAll (drainSent s affected) (drainBegunBut uncreated s affected) := by
  unfold beginDrain
  extract_lets s1 s2 s3 s4
  have hs2 : s2 = s1.setRooms (drainBegunBut uncreated s affected).rooms := foldl_markDraining affected s1
  have hrooms : s2.rooms = (drainBegunBut uncreated s affected).rooms := by rw [hs2]; rfl
  have hsent : affected.flatMap (roomSent s2) = drainSent s affected := by
    rw [drainSent, List.map_eq_flatMap]
    refine List.flatMap_congr fun a ha => ?_
    obtain ⟨r, hra⟩ := Option.isSome_iff_exists.mp (hr a ha)
    simp [roomSent, hrooms, drainBegunBut, ha, hra, membersOf, leadOf]
  have hs3 : s3 = sendAll (drainSent s affected) s2 := by rw [← hsent]; exact foldl_sendRoom affected s2
  have hs3m : s3.mixes = s.mixes := by rw [hs3, sendAll_mixes, hs2]; rfl
  have hs4 : s4 = _ := foldl_drainMix (hn.filter _) (s := s3) (rp := ⟨effectiveMap s, affected, []⟩)
    (by rw [hs3, sendAll_repartition, hs2]; rfl) (fun a ha => (List.mem_filter.mp ha).1) (fun a _ => List.not_mem_nil)
  have hmem : ∀ a ∈ affected, membersOf s4 a = membersOf s a := fun a ha => by
    have : s4.rooms = s2.rooms := by rw [hs4]; exact hs3 ▸ sendAll_rooms _ _
    obtain ⟨r, hra⟩ := Option.isSome_iff_exists.mp (hr a ha)
    simp [membersOf, this, hrooms, drainBegunBut, ha, hra]
  rw [foldl_drainTrunk]
  refine eq_sendAll_of_frame (s := s2) _ (by rw [hs2]; rfl) (by rw [hs2]; rfl) ?_
  have hany : ∀ k, (affected.flatMap fun a => membersOf s4 a).contains k =
      affected.any fun a => (membersOf s a).contains k := fun k => by
    rw [List.flatMap_congr hmem, Bool.eq_iff_iff, List.contains_iff_mem, List.mem_flatMap, List.any_eq_true]
    simp
  simp only [hany]
  rw [hs4, hs3m]
  rw [hs3, sendAll_frame, hs2]
  rfl

theorem drainSent_sendAll (sent : List Sent) (s : State) (affected : List Segment) :
    drainSent (sendAll sent s) affected = drainSent s affected := by
  rw [sendAll_frame]
  rfl

theorem drainBegunBut_sendAll (uncreated : List Segment) (sent : List Sent) (s : State) (affected : List Segment) :
    drainBegunBut uncreated (sendAll sent s) affected = sendAll sent (drainBegunBut uncreated s affected) := by
  refine eq_sendAll_of_frame (s := s) sent rfl rfl ?_
  rw [sendAll_frame]
  rfl

end Sys2Proof.Machine
end

section
/-! Wall records: the end of a debounce, consent records and SET_WALL (R4 to R12). -/

namespace Sys2Proof.Machine
open Sys2Proof.Safety

/-! ### A changed wall record (R5, R6, R25) -/

theorem modify_set_self {n : Nat} {α : Type} (t : Tab n α) (i : Fin n) (a : α) (f : α → α) :
    (t.set i a).modify i f = t.set i (f a) :=
  Tab.ext_get fun j => by by_cases h : i = j <;> simp [Tab.get_modify, Tab.get_set, h]

/-- The state with another record for one wall. -/
def State.putWall (s : State) (w : WallId) (r : Wall) : State :=
  { s with walls := s.walls.set w r }

@[simp] theorem putWall_self (s : State) (w : WallId) (r : Wall) : (s.putWall w r).walls.get w = r :=
  Tab.get_set_self ..

theorem putWall_ne (s : State) {w x : WallId} (r : Wall) (h : w ≠ x) : (s.putWall w r).walls.get x = s.walls.get x :=
  Tab.get_set_ne _ _ h

theorem modWall_eq_putWall (s : State) (w : WallId) (f : Wall → Wall) :
    s.modWall w f = s.putWall w (f (s.walls.get w)) := rfl

theorem modWall_putWall (s : State) (w : WallId) (r : Wall) (f : Wall → Wall) :
    (s.putWall w r).modWall w f = s.putWall w (f r) :=
  congrArg s.setWalls (modify_set_self ..)

/-- The start test finds nothing to do (R25). -/
def NothingToStart (s : State) : Prop :=
  s.repartition.isSome = true ∨ effectiveMap s = committedMap s

theorem startPlan_nothing {s : State} (h : NothingToStart s) : startPlan s = .nothing := by
  rw [startPlan, if_pos]
  rwa [Bool.or_eq_true, beq_iff_eq]

theorem startPlan_loop {s : State} (h : ¬NothingToStart s) (ha : affectedRooms s (effectiveMap s) = []) :
    startPlan s = .loop := by
  rw [startPlan, if_neg, ha]
  rwa [Bool.or_eq_true, beq_iff_eq]

theorem startPlan_drain {s : State} (h : ¬NothingToStart s) (ha : affectedRooms s (effectiveMap s) ≠ []) :
    startPlan s = .drain (affectedRooms s (effectiveMap s)) := by
  rw [startPlan, if_neg]
  · split <;> simp_all
  · rwa [Bool.or_eq_true, beq_iff_eq]

theorem wallChanged_kept {s : State} {w : WallId} {r : Wall}
    (h : r.effective = (s.walls.get w).effective ∨ NothingToStart (s.putWall w r)) :
    wallChanged s w r = (s.putWall w r, [wallSent w r]) :=
  if_pos h

theorem wallChanged_loop {s : State} {w : WallId} {r : Wall} (h : r.effective ≠ (s.walls.get w).effective)
    (hn : ¬NothingToStart (s.putWall w r)) (ha : affectedRooms (s.putWall w r) (effectiveMap (s.putWall w r)) = []) :
    wallChanged s w r =
      (commitLoop (s.putWall w r),
        (allWalls.filter fun x =>
          x == w || ((s.putWall w r).walls.get x).committed != ((s.putWall w r).walls.get x).effective).map fun x =>
            wallSent x ((commitLoop (s.putWall w r)).walls.get x)) :=
  (if_neg (not_or.mpr ⟨h, hn⟩)).trans (if_pos ha)

theorem wallChanged_drain {s : State} {w : WallId} {r : Wall} (h : r.effective ≠ (s.walls.get w).effective)
    (hn : ¬NothingToStart (s.putWall w r)) (ha : affectedRooms (s.putWall w r) (effectiveMap (s.putWall w r)) ≠ []) :
    wallChanged s w r =
      let affected := affectedRooms (s.putWall w r) (effectiveMap (s.putWall w r))
      (drainBegun (s.putWall w r) affected, wallSent w r :: drainSent (s.putWall w r) affected) :=
  (if_neg (not_or.mpr ⟨h, hn⟩)).trans (if_neg ha)

theorem committedChanged_commitLoop (s : State) (x : WallId) :
    (committedChanged s.walls (commitLoop s).walls).contains x =
      ((s.walls.get x).committed != (s.walls.get x).effective) := by
  rw [Bool.eq_iff_iff]
  simp [committedChanged, allWalls, commitLoop]

/-- A wall record with the effective state that follows from its mode and its sensed state (R5). -/
def Wall.settled (r : Wall) : Wall :=
  { r with effective := effectiveFor r.mode r.sensed }

/-- What follows a new record for a wall, whose effective state is still the old one (R5, R6, R25 to R27). -/
theorem settleWall_modWall (w : WallId) (s : State) {f : Wall → Wall} (h : ∀ r, (f r).effective = r.effective) :
    settleWall w (s.modWall w f) =
      sendAll (wallChanged s w (f (s.walls.get w)).settled).2 (wallChanged s w (f (s.walls.get w)).settled).1 := by
  rw [modWall_eq_putWall]
  have before := h (s.walls.get w)
  generalize f (s.walls.get w) = r at before ⊢
  unfold settleWall Wall.settled
  dsimp only
  rw [modWall_putWall]
  generalize { r with effective := effectiveFor r.mode r.sensed } = r'
  rw [putWall_self, putWall_self, before]
  by_cases he : r'.effective = (s.walls.get w).effective
  · rw [if_pos he, wallChanged_kept (.inl he), sendWall_eq, putWall_self]
  · rw [if_neg he]
    by_cases hn : NothingToStart (s.putWall w r')
    · rw [startPlan_nothing hn, wallChanged_kept (.inr hn)]
      dsimp only
      rw [sendWall_eq, putWall_self]
    · by_cases ha : affectedRooms (s.putWall w r') (effectiveMap (s.putWall w r')) = []
      · rw [startPlan_loop hn ha, wallChanged_loop he hn ha]
        dsimp only
        rw [sendWalls_eq]
        simp only [committedChanged_commitLoop]
      · rw [startPlan_drain hn ha, wallChanged_drain he hn ha]
        dsimp only
        rw [sendWall_eq, putWall_self, beginDrain_eq (affectedRooms_nodup ..) fun a => ?_]
        · rw [drainSent_sendAll, drainBegunBut_sendAll, ← sendAll_append, drainBegunBut_nil]
          rfl
        · exact isSome_of_mem_affectedRooms

/-! ### What a changed wall record leaves alone -/

/-- Which ports hold what does not bear on a changed wall record. -/
theorem wallChanged_sendAll (sent : List Sent) (s : State) (w : WallId) (r : Wall) :
    wallChanged (sendAll sent s) w r = (sendAll sent (wallChanged s w r).1, (wallChanged s w r).2) := by
  have put : (sendAll sent s).putWall w r = sendAll sent (s.putWall w r) :=
    eq_sendAll_of_frame (s := s) sent rfl rfl (by rw [sendAll_frame]; rfl)
  have loop : commitLoop (sendAll sent (s.putWall w r)) = sendAll sent (commitLoop (s.putWall w r)) :=
    eq_sendAll_of_frame (s := s.putWall w r) sent rfl rfl (by rw [sendAll_frame]; rfl)
  have same : (sendAll sent (s.putWall w r)).walls = (s.putWall w r).walls := sendAll_walls ..
  have rooms : affectedRooms (sendAll sent (s.putWall w r)) = affectedRooms (s.putWall w r) := by
    funext target
    exact affectedRooms_congr (fun a => by rw [sendAll_rooms]) target
  have effective : effectiveMap (sendAll sent (s.putWall w r)) = effectiveMap (s.putWall w r) := by
    rw [effectiveMap, same]; rfl
  have nothing : NothingToStart (sendAll sent (s.putWall w r)) ↔ NothingToStart (s.putWall w r) := by
    rw [NothingToStart, sendAll_repartition, effectiveMap, committedMap, same]; rfl
  by_cases hk : r.effective = (s.walls.get w).effective ∨ NothingToStart (s.putWall w r)
  · rw [wallChanged_kept hk, wallChanged_kept (by rwa [put, nothing, sendAll_walls]), put]
  · obtain ⟨he, hn⟩ := not_or.mp hk
    have he' : r.effective ≠ ((sendAll sent s).walls.get w).effective := by rwa [sendAll_walls]
    have hn' : ¬NothingToStart ((sendAll sent s).putWall w r) := by rwa [put, nothing]
    by_cases ha : affectedRooms (s.putWall w r) (effectiveMap (s.putWall w r)) = []
    · rw [wallChanged_loop he hn ha, wallChanged_loop he' hn' (by rwa [put, rooms, effective]), put, loop, same,
        sendAll_walls]
    · rw [wallChanged_drain he hn ha, wallChanged_drain he' hn' (by rwa [put, rooms, effective]), put, rooms, effective]
      dsimp only
      rw [drainSent_sendAll, ← drainBegunBut_nil, drainBegunBut_sendAll, drainBegunBut_nil]

/-- A record written before does not bear on a changed wall record, if it kept the effective state. -/
theorem wallChanged_putWall {s : State} {w : WallId} {r₀ r : Wall} (h : r₀.effective = (s.walls.get w).effective) :
    wallChanged (s.putWall w r₀) w r = wallChanged s w r := by
  have put : (s.putWall w r₀).walls.set w r = s.walls.set w r :=
    Tab.ext_get fun x => by by_cases hx : w = x <;> simp [State.putWall, Tab.get_set, hx]
  unfold wallChanged
  rw [put, putWall_self, h]
  rfl

/-- The record of the changed wall is the new one, but for a committed state that the loop case may set. -/
theorem wallChanged_wall (s : State) (w : WallId) (r : Wall) :
    ((wallChanged s w r).1.walls.get w).mode = r.mode ∧ ((wallChanged s w r).1.walls.get w).consent = r.consent := by
  unfold wallChanged
  dsimp only
  split
  · simp
  · split <;> simp [drainBegun]

/-! ### The end of a debounce (R4) -/

theorem debounceDue_iff {s : State} {w : WallId} :
    debounceDue s w = true ↔
      ∃ c, (s.walls.get w).changeTime = some c ∧ (s.settleAtFrame : Int) ≤ (s.clock - c).toInt := by
  unfold debounceDue
  split <;> simp_all

/-- Settles O40, by what follows a new record for a wall. -/
theorem debounceEnds : Obligations.DebounceEnds := by
  intro w s hheld
  dsimp only
  rw [← debounceDue_iff, show exec (.debounceEnd w) s = finish (endDebounce w s) from carryOut_eq hheld _]
  constructor
  · intro hdue
    rw [endDebounce, if_pos hdue, settleWall_modWall, finish, startTransmitters_sendAll]
    · rfl
    · exact fun _ => rfl
  · intro hdue
    rw [endDebounce, if_neg hdue, finish_eq_conclude]

/-! ### Consent records (R8, R12) -/

/-- Settles O41. -/
theorem consentExpires : Obligations.ConsentExpires := by
  intro w s hheld
  dsimp only
  rw [show exec (.consentExpiry w) s = finish (expireConsent w s) from carryOut_eq hheld _]
  constructor
  · intro c hc hreached
    have expired : expireConsent w s =
        sendAll [([c.requester], .consent w .expired c.requester c.expiry)]
          (s.putWall w { s.walls.get w with consent := none }) := by
      simp only [expireConsent, hc, reached, hreached, decide_true, if_true]
      rfl
    rw [expired, finish, startTransmitters_sendAll]
    rfl
  · intro hnot
    have none_due : expireConsent w s = s := by
      unfold expireConsent
      split
      · next c hc => exact if_neg (by rw [reached, decide_eq_true_eq, not_le]; exact hnot c hc)
      · rfl
    rw [none_due, finish_eq_conclude]

/-- The CONSENT notices of a record that is cancelled, if there is one (R8, R13). -/
def cancelSent (w : WallId) (r : Wall) : List Sent :=
  match r.consent with
  | some c => [(sidesOf w, .consent w .cancelled c.requester c.expiry)]
  | none => []

theorem cancelConsent_eq (w : WallId) (s : State) :
    cancelConsent w s =
      sendAll (cancelSent w (s.walls.get w)) (s.putWall w { s.walls.get w with consent := none }) := by
  cases hc : (s.walls.get w).consent with
  | some c => simp only [cancelConsent, cancelSent, hc]; rfl
  | none =>
    have same : { s.walls.get w with consent := none } = s.walls.get w := by rw [← hc]
    simp only [cancelConsent, cancelSent, hc, same, State.putWall, Tab.set_get_self]
    rfl

theorem cancelConsent_wall (w : WallId) (s : State) :
    (cancelConsent w s).walls.get w = { s.walls.get w with consent := none } := by
  rw [cancelConsent_eq, sendAll_walls, putWall_self]

theorem wallChanged_cancelConsent (s : State) (w : WallId) (r : Wall) :
    wallChanged (cancelConsent w s) w r =
      (sendAll (cancelSent w (s.walls.get w)) (wallChanged s w r).1, (wallChanged s w r).2) := by
  rw [cancelConsent_eq, wallChanged_sendAll, wallChanged_putWall]
  rfl

/-! ### SET_WALL (R7 to R11) -/

theorem wallModeArg_cases {mode : Byte} (h : mode.toNat ≤ 2) : ∃ m, wallModeArg mode = some m := by
  have : mode = 0 ∨ mode = 1 ∨ mode = 2 := by bv_omega
  rcases this with rfl | rfl | rfl
  exacts [⟨_, rfl⟩, ⟨_, rfl⟩, ⟨_, rfl⟩]

theorem wallModeArg_none {mode : Byte} (h : 2 < mode.toNat) : wallModeArg mode = none := by
  have h0 : mode ≠ 0 := by bv_omega
  have h1 : mode ≠ 1 := by bv_omega
  have h2 : mode ≠ 2 := by bv_omega
  rw [wallModeArg, if_neg h0, if_neg h1, if_neg h2]

theorem ruleSetWall_bad {p : Port} {wall mode : Byte} {s : State}
    (h : wall.toNat = 0 ∨ 7 < wall.toNat ∨ 2 < mode.toNat) : ruleSetWall p wall mode s = refuse .badArgument s := by
  unfold ruleSetWall
  rcases or_assoc.mpr h with h | h
  · rw [idArg_none h]
  · rw [wallModeArg_none h]
    cases idArg 7 wall <;> rfl

/-- SET_WALL for FORCED_OPEN from an adjacent port (R9). -/
theorem ruleSetWall_forcedOpen {p : Port} {wall code : Byte} {w : WallId} {s : State} (hw : wall.toNat = w.val + 1)
    (hm : wallModeArg code = some .forcedOpen) (ha : adjacentTo w p = true) :
    ruleSetWall p wall code s = forceOpen w p s := by
  simp [ruleSetWall, idArg_of_toNat hw, hm, ha]

/-- SET_WALL for SENSED or FORCED_CLOSED from an adjacent port (R8). -/
theorem ruleSetWall_mode {p : Port} {wall code : Byte} {w : WallId} {mode : WallMode} {s : State}
    (hw : wall.toNat = w.val + 1) (hm : wallModeArg code = some mode) (hne : mode ≠ .forcedOpen)
    (ha : adjacentTo w p = true) : ruleSetWall p wall code s = setWallMode w mode s := by
  cases mode with
  | forcedOpen => exact absurd rfl hne
  | sensed => simp [ruleSetWall, idArg_of_toNat hw, hm, ha]
  | forcedClosed => simp [ruleSetWall, idArg_of_toNat hw, hm, ha]

theorem requestConsent_eq (w : WallId) (p : Port) (s : State) :
    requestConsent w p s =
      { code := .pending
        results := wallModeCode (s.walls.get w).mode :: clockBytes (s.clock + 10000)
        state :=
          sendAll [([otherSide w p], .consent w .pending p (s.clock + 10000))]
            (s.putWall w { s.walls.get w with consent := some { requester := p, expiry := s.clock + 10000 } }) } := by
  have results (c : Clock) : setWallResults (sendAll [([otherSide w p], .consent w .pending p c)]
      (s.putWall w { s.walls.get w with consent := some { requester := p, expiry := c } })) w =
        wallModeCode (s.walls.get w).mode :: clockBytes c := by
    simp [setWallResults, clockOrZero]
  exact congrArg (fun l => Answer.mk .pending l _) (results _)

/-- Settles O42, by the cases of R9 and R10. -/
theorem setWallRequests : Obligations.SetWallRequests := by
  intro p tag wall mode s ⟨hheld, hplace, hatt⟩
  have exec_eq (mode : Byte) : exec (.setWall p tag wall mode) s = finish (serveSetWall p tag wall mode s) :=
    carryOut_eq hheld _
  have refused {mode : Byte} {code : ReplyCode} (h : ruleSetWall p wall mode s = refuse code s) :
      exec (.setWall p tag wall mode) s = .next (answered s p tag code []) :=
    (exec_eq mode).trans (finish_serve_same hplace (.inr hatt) h)
  refine ⟨fun h => refused (ruleSetWall_bad h), fun w hw => ?_⟩
  dsimp only
  refine ⟨fun ha hm => ?_, fun ha => ?_⟩
  · obtain ⟨m, hm⟩ := wallModeArg_cases hm
    refine refused ?_
    simp [ruleSetWall, idArg_of_toNat hw, hm, ha]
  · have rule : ruleSetWall p wall 1 s = forceOpen w p s := ruleSetWall_forcedOpen hw rfl ha
    have requested (h : forceOpen w p s = requestConsent w p s) :
        exec (.setWall p tag wall 1) s = _ :=
      (exec_eq 1).trans (finish_serve hplace (.inr hatt) (rule.trans (h.trans (requestConsent_eq w p s))))
    refine ⟨fun hc hm => ?_, fun hc hm hp => ?_, fun hc hm hp => ?_, fun c hc hp => ?_⟩
    · refine (exec_eq 1).trans (finish_serve_same hplace (.inr hatt) (rule.trans ?_))
      simp only [forceOpen, hc, hm, if_true]
      simp [setWallResults, hc, hm, wallModeCode, clockOrZero, clockBytes]
    · refine refused (rule.trans ?_)
      simp [forceOpen, hc, hm, isAttached, hp]
    · exact requested (by simp [forceOpen, hc, hm, isAttached, hp])
    · exact requested (by simp [forceOpen, hc, hp])

/-- The results of a SET_WALL that leaves no consent record. -/
theorem setWallResults_wallChanged (sent : List Sent) (s : State) (w : WallId) {r : Wall} (h : r.consent = none) :
    setWallResults (sendAll sent (wallChanged s w r).1) w = [wallModeCode r.mode, 0, 0, 0, 0] := by
  obtain ⟨hm, hc⟩ := wallChanged_wall s w r
  simp [setWallResults, sendAll_walls, hm, hc, h, clockOrZero, clockBytes]

/-- The record of a wall whose mode is set: no consent record, and the effective state that follows (R5, R8, R11). -/
def modeSet (mode : WallMode) (r : Wall) : Wall :=
  { r with mode := mode, consent := none, effective := effectiveFor mode r.sensed }

/-- SENSED or FORCED_CLOSED on a wall that has the mode cancels a consent record (R8). -/
theorem setWallMode_same {w : WallId} {mode : WallMode} {s : State} (h : (s.walls.get w).mode = mode) :
    setWallMode w mode s =
      { code := .done
        results := [wallModeCode mode, 0, 0, 0, 0]
        state := sendAll (cancelSent w (s.walls.get w)) (s.putWall w { s.walls.get w with consent := none }) } := by
  have mode_eq : ((sendAll (cancelSent w (s.walls.get w))
      (s.putWall w { s.walls.get w with consent := none })).walls.get w).mode = mode := by
    rw [sendAll_walls, putWall_self, h]
  simp only [setWallMode, cancelConsent_eq, mode_eq, if_true]
  refine congrArg (fun l => Answer.mk .done l _) ?_
  simp [setWallResults, h, clockOrZero, clockBytes]

/-- A new mode, SENSED or FORCED_CLOSED, cancels a consent record and settles the wall (R5, R6, R8). -/
theorem setWallMode_new {w : WallId} {mode : WallMode} {s : State} (h : (s.walls.get w).mode ≠ mode) :
    setWallMode w mode s =
      let x := wallChanged s w (modeSet mode (s.walls.get w))
      { code := .done
        results := [wallModeCode mode, 0, 0, 0, 0]
        state := sendAll (cancelSent w (s.walls.get w) ++ x.2) x.1 } := by
  have mode_eq : ((cancelConsent w s).walls.get w).mode = (s.walls.get w).mode := by rw [cancelConsent_wall]
  have settled : settleWall w ((cancelConsent w s).modWall w fun r => { r with mode := mode }) =
      sendAll (cancelSent w (s.walls.get w) ++ (wallChanged s w (modeSet mode (s.walls.get w))).2)
        (wallChanged s w (modeSet mode (s.walls.get w))).1 := by
    rw [settleWall_modWall w _ ?_, wallChanged_cancelConsent, cancelConsent_wall, sendAll_append]
    · rfl
    · exact fun _ => rfl
  simp only [setWallMode, mode_eq, if_neg h, settled]
  exact congrArg (fun l => Answer.mk .done l _) (setWallResults_wallChanged _ s w rfl)

/-- Settles O43. -/
theorem setWallModes : Obligations.SetWallModes := by
  intro p tag wall w s ⟨hheld, hplace, hatt⟩ hw ha
  have exec_eq (mode : Byte) : exec (.setWall p tag wall mode) s = finish (serveSetWall p tag wall mode s) :=
    carryOut_eq hheld _
  dsimp only
  refine ⟨fun mode code hmode => ?_, fun c hc hp => ?_⟩
  · obtain ⟨hcode, hne, hbyte⟩ : wallModeArg code = some mode ∧ mode ≠ .forcedOpen ∧ wallModeCode mode = code := by
      rcases hmode with ⟨rfl, rfl⟩ | ⟨rfl, rfl⟩
      exacts [⟨rfl, nofun, rfl⟩, ⟨rfl, nofun, rfl⟩]
    have rule := ruleSetWall_mode (s := s) hw hcode hne ha
    subst hbyte
    exact ⟨fun h => (exec_eq _).trans (finish_serve hplace (.inr hatt) (rule.trans (setWallMode_same h))),
      fun h => (exec_eq _).trans (finish_serve hplace (.inr hatt) (rule.trans (setWallMode_new h)))⟩
  · have settled : settleWall w (s.modWall w fun r => { r with mode := .forcedOpen, consent := none }) = _ :=
      settleWall_modWall w s fun _ => rfl
    have rule : ruleSetWall p wall 1 s =
        let x := wallChanged s w (modeSet .forcedOpen (s.walls.get w))
        { code := .done, results := [1, 0, 0, 0, 0], state := sendAll x.2 x.1 } := by
      rw [ruleSetWall_forcedOpen hw rfl ha, forceOpen]
      simp only [hc, hp, if_false, settled]
      exact congrArg (fun l => Answer.mk .done l _) (setWallResults_wallChanged _ s w rfl)
    exact (exec_eq 1).trans (finish_serve hplace (.inr hatt) rule)

end Sys2Proof.Machine
end

section
/-! Lead ports, ATTACH, DETACH and port reset (R13, R17, R18, R177, R180, R181). -/

namespace Sys2Proof.Machine
open Sys2Proof.Safety

/-! ### The room of a segment and its lead -/

/-- Where the rooms have the same members, every segment has the same room. -/
theorem roomOf_congr {s t : State} (h : ∀ a, membersOf t a = membersOf s a) : roomOf t = roomOf s := by
  funext g
  simp only [roomOf, h]

theorem membersOf_of_rooms {s t : State} (h : t.rooms = s.rooms) : membersOf t = membersOf s := by
  funext a
  rw [membersOf, h, membersOf]

theorem roomOf_of_rooms {s t : State} (h : t.rooms = s.rooms) : roomOf t = roomOf s :=
  roomOf_congr fun a => congrFun (membersOf_of_rooms h) a

theorem leadOf_of_rooms {s t : State} (h : t.rooms = s.rooms) : leadOf t = leadOf s := by
  funext a
  rw [leadOf, h, leadOf]

theorem electLead_congr {s t : State} (h : ∀ p, (t.ports.get p).attached = (s.ports.get p).attached)
    (members : List Segment) : electLead t members = electLead s members := by
  simp only [electLead, isAttached, h]

/-- The room table with the lead of the room with anchor `a` elected anew (R17). -/
def leadElected (s : State) (a : Segment) : State :=
  { s with rooms := s.rooms.modify a fun x => x.map fun r => { r with lead := electLead s r.members } }

/-- The ROOM notice of an election that changes the lead (R18). -/
def leadSent (s : State) (a : Segment) : List Sent :=
  match s.rooms.get a with
  | some r =>
    if electLead s r.members = r.lead then [] else [(r.members, .room a r.members (electLead s r.members) r.status)]
  | none => []

theorem recomputeLead_eq (a : Segment) (s : State) :
    recomputeLead a s = sendAll (leadSent s a) (leadElected s a) := by
  have put {x : Option Room} (h : x = (s.rooms.get a).map fun r => { r with lead := electLead s r.members }) :
      s.setRooms (s.rooms.set a x) = leadElected s a :=
    congrArg (fun x => s.setRooms (s.rooms.set a x)) h
  have kept (h : s.rooms.get a = (s.rooms.get a).map fun r => { r with lead := electLead s r.members }) :
      leadElected s a = s := by
    rw [← put h, Tab.set_get_self]
    rfl
  cases hr : s.rooms.get a with
  | none => simp [recomputeLead, leadSent, hr, kept]
  | some r =>
    by_cases hl : electLead s r.members = r.lead
    · simp [recomputeLead, leadSent, hr, hl, kept]
    · simp only [recomputeLead, leadSent, hr, if_neg hl]
      rw [put (by rw [hr]; rfl), sendRoom_eq, roomSent]
      simp [leadElected, hr]

theorem leadSent_of_room {s : State} {a : Segment} {r : Room} (h : s.rooms.get a = some r) :
    leadSent s a =
      if electLead s r.members = r.lead then [] else [(r.members, .room a r.members (electLead s r.members) r.status)] := by
  rw [leadSent, h]

theorem leadSent_congr {s t : State} (hr : t.rooms = s.rooms)
    (ha : ∀ p, (t.ports.get p).attached = (s.ports.get p).attached) (a : Segment) : leadSent t a = leadSent s a := by
  simp only [leadSent, hr, electLead_congr ha]

theorem leadElected_sendAll (sent : List Sent) (s : State) (a : Segment) :
    leadElected (sendAll sent s) a = sendAll sent (leadElected s a) := by
  refine eq_sendAll_of_frame (s := s) sent rfl rfl ?_
  unfold leadElected
  simp only [electLead_congr (sendAll_hallKept sent s).attached, sendAll_rooms]
  rw [sendAll_frame]

theorem leadElected_of_room {s : State} {a : Segment} {r : Room} (h : s.rooms.get a = some r) :
    leadElected s a = s.setRooms (s.rooms.set a (some { r with lead := electLead s r.members })) := by
  rw [leadElected, Tab.modify, h]
  rfl

theorem leadElected_members (s : State) (a b : Segment) : membersOf (leadElected s a) b = membersOf s b := by
  by_cases h : a = b
  · subst h; cases hr : s.rooms.get a <;> simp [membersOf, leadElected, hr]
  · simp [membersOf, leadElected, Tab.get_modify_ne _ _ h]

/-- The lead after an election. -/
theorem leadOf_leadElected {s : State} {a : Segment} {r : Room} (h : s.rooms.get a = some r) :
    leadOf (leadElected s a) a = electLead s r.members := by
  simp [leadOf, leadElected, h]

/-! ### ATTACH (R180) -/

/-- The state in which port `p` is ATTACHED. -/
def portAttached (p : Port) (s : State) : State :=
  s.modPort p fun r => { r with attached := true }

theorem electLead_portAttached (p : Port) (s : State) (members : List Segment) :
    electLead (portAttached p s) members = members.find? fun g => g == p || (s.ports.get g).attached := by
  refine congrFun (congrArg List.find? (funext fun g => ?_)) members
  by_cases h : p = g
  · subst h; simp [isAttached, portAttached]
  · have h' : ¬g = p := fun e => h e.symm
    simp [isAttached, portAttached, Tab.get_modify_ne _ _ h, h']

theorem ruleAttach_attached {p : Port} {s : State} (h : isAttached s p = true) :
    ruleAttach p s =
      { code := .done, results := [num (roomOf s p), numOrZero (leadOf s (roomOf s p))], state := s } := by
  simp [ruleAttach, h]

theorem ruleAttach_detached {p : Port} {s : State} {r : Room} (h : isAttached s p = false)
    (hr : s.rooms.get (roomOf s p) = some r) :
    ruleAttach p s =
      { code := .done
        results := [num (roomOf s p), numOrZero (electLead (portAttached p s) r.members)]
        state := sendAll (leadSent (portAttached p s) (roomOf s p)) (leadElected (portAttached p s) (roomOf s p)) } := by
  have state_eq : recomputeLead (roomOf s p) (portAttached p s) = _ := recomputeLead_eq ..
  have rooms_eq := sendAll_rooms (leadSent (portAttached p s) (roomOf s p)) (leadElected (portAttached p s) (roomOf s p))
  have room_eq : roomOf (recomputeLead (roomOf s p) (portAttached p s)) p = roomOf s p := by
    rw [state_eq, roomOf_of_rooms rooms_eq, roomOf_congr fun b => leadElected_members ..]
    exact congrFun (roomOf_of_rooms rfl) p
  have lead_eq : leadOf (recomputeLead (roomOf s p) (portAttached p s)) (roomOf s p) =
      electLead (portAttached p s) r.members := by
    rw [state_eq, leadOf_of_rooms rooms_eq, leadOf_leadElected (s := portAttached p s) hr]
  unfold ruleAttach
  simp only [h, Bool.false_eq_true, if_false]
  rw [← portAttached, room_eq, lead_eq, state_eq]

/-- Settles O27. -/
theorem attachTakesEffect : Obligations.AttachTakesEffect := by
  intro p tag s r hheld hplace hr
  dsimp only
  rw [show exec (.attach p tag) s = finish (serve p tag true (ruleAttach p) s) from carryOut_eq hheld _]
  refine ⟨fun h => ?_, fun h => ?_⟩
  · have lead : leadOf s (roomOf s p) = r.lead := by simp [leadOf, hr]
    exact finish_serve_same hplace (.inl rfl) ((ruleAttach_attached h).trans (by rw [lead]))
  · rw [finish_serve hplace (.inl rfl) (ruleAttach_detached h hr), ← electLead_portAttached]
    have hr' : (portAttached p s).rooms.get (roomOf s p) = some r := hr
    rw [leadSent_of_room hr', leadElected_of_room hr']
    rfl

/-! ### DETACH and port reset (R13, R177, R181) -/

/-- The records of the walls of `l` after their consents are cancelled. -/
def consentsCleared (l : List WallId) (s : State) : State :=
  s.setWalls (Tab.ofFn fun w =>
    { s.walls.get w with consent := if l.contains w then none else (s.walls.get w).consent })

theorem consentsCleared_nil (s : State) : consentsCleared [] s = s :=
  congrArg s.setWalls (Tab.ext_get fun w => by simp)

theorem consentsCleared_sendAll (l : List WallId) (sent : List Sent) (s : State) :
    consentsCleared l (sendAll sent s) = sendAll sent (consentsCleared l s) :=
  eq_sendAll_of_frame (s := s) sent rfl rfl (by rw [sendAll_frame]; rfl)

theorem consentsCleared_putWall (l : List WallId) (v : WallId) (s : State) :
    consentsCleared l (s.putWall v { s.walls.get v with consent := none }) = consentsCleared (v :: l) s := by
  refine congrArg s.setWalls (Tab.ext_get fun w => ?_)
  by_cases h : v = w
  · subst h; simp
  · have h' : ¬w = v := fun e => h e.symm
    simp [putWall_ne _ _ h, h']

theorem foldl_cancelConsent {l : List WallId} (hl : l.Nodup) (s : State) :
    l.foldl (fun s w => cancelConsent w s) s =
      sendAll (l.flatMap fun w => cancelSent w (s.walls.get w)) (consentsCleared l s) := by
  induction l generalizing s with
  | nil => rw [consentsCleared_nil]; rfl
  | cons v l ih =>
    obtain ⟨hv, hl⟩ := List.nodup_cons.mp hl
    have other : ∀ w ∈ l, (cancelConsent v s).walls.get w = s.walls.get w := fun w hw => by
      rw [cancelConsent_eq, sendAll_walls, putWall_ne]
      exact fun e => hv (e ▸ hw)
    have sent : (l.flatMap fun w => cancelSent w ((cancelConsent v s).walls.get w)) =
        l.flatMap fun w => cancelSent w (s.walls.get w) :=
      List.flatMap_congr fun w hw => by rw [other w hw]
    rw [List.foldl_cons, ih hl, sent, cancelConsent_eq, consentsCleared_sendAll, consentsCleared_putWall,
      List.flatMap_cons, sendAll_append]

/-- The walls of a port, in ascending order. -/
def wallsOf (p : Port) : List WallId :=
  allWalls.filter fun w => adjacentTo w p

theorem wallsOf_nodup (p : Port) : (wallsOf p).Nodup :=
  (List.nodup_finRange 7).filter _

/-- What the partition controller does when a port has left (R13, R177, R181): the consent records of its walls are
cancelled, and its room elects a lead. -/
theorem portLeft_eq (p : Port) (s : State) :
    portLeft p s =
      sendAll (((wallsOf p).flatMap fun w => cancelSent w (s.walls.get w)) ++ leadSent s (roomOf s p))
        (leadElected (consentsCleared (wallsOf p) s) (roomOf s p)) := by
  have kept := sendAll_hallKept ((wallsOf p).flatMap fun w => cancelSent w (s.walls.get w)) (consentsCleared (wallsOf p) s)
  unfold portLeft
  dsimp only
  rw [← wallsOf, foldl_cancelConsent (wallsOf_nodup p), recomputeLead_eq, roomOf_of_rooms kept.rooms,
    leadSent_congr kept.rooms kept.attached, leadElected_sendAll, sendAll_append]
  rfl

/-- The lead that a room elects without port `p` (R17). -/
def leadWithout (p : Port) (s : State) (r : Room) : Option Port :=
  r.members.find? fun g => g != p && (s.ports.get g).attached

theorem electLead_detached {p : Port} {s : State} {f : PortRec → PortRec} (h : ∀ r, (f r).attached = false) (r : Room) :
    electLead (s.modPort p f) r.members = leadWithout p s r := by
  refine congrFun (congrArg List.find? (funext fun g => ?_)) r.members
  by_cases hg : p = g
  · subst hg; simp [isAttached, h]
  · have h' : (g != p) = true := bne_iff_ne.mpr fun e => hg e.symm
    simp [isAttached, Tab.get_modify_ne _ _ hg, h']

/-- The state after port `p` has left with the record `r` (R13, R17). -/
def portGone (p : Port) (r : PortRec) (s : State) : State :=
  { s with
    ports := s.ports.set p r
    walls :=
      Tab.ofFn fun w => { s.walls.get w with consent := if adjacentTo w p then none else (s.walls.get w).consent }
    rooms := s.rooms.modify (roomOf s p) fun x => x.map fun r => { r with lead := leadWithout p s r } }

/-- The notices of a port that leaves: CONSENT(cancelled) in ascending wall number, then the ROOM notice of a new lead. -/
def goneSent (p : Port) (s : State) : List Sent :=
  ((wallsOf p).filterMap fun w =>
      (s.walls.get w).consent.map fun c => (sidesOf w, .consent w .cancelled c.requester c.expiry)) ++
    match s.rooms.get (roomOf s p) with
    | some r =>
      if leadWithout p s r = r.lead then []
      else [(r.members, .room (roomOf s p) r.members (leadWithout p s r) r.status)]
    | none => []

theorem flatMap_cancelSent (l : List WallId) (s : State) :
    (l.flatMap fun w => cancelSent w (s.walls.get w)) =
      l.filterMap fun w =>
        (s.walls.get w).consent.map fun c => (sidesOf w, .consent w .cancelled c.requester c.expiry) := by
  rw [List.filterMap_eq_flatMap_toList]
  refine List.flatMap_congr fun w _ => ?_
  cases h : (s.walls.get w).consent <;> simp [cancelSent, h]

theorem portLeft_modPort {p : Port} {f : PortRec → PortRec} (h : ∀ r, (f r).attached = false) (s : State) :
    portLeft p (s.modPort p f) = sendAll (goneSent p s) (portGone p (f (s.ports.get p)) s) := by
  have sent : ((wallsOf p).flatMap fun w => cancelSent w ((s.modPort p f).walls.get w)) ++
      leadSent (s.modPort p f) (roomOf (s.modPort p f) p) = goneSent p s := by
    rw [flatMap_cancelSent, roomOf_of_rooms (State.modPort_rooms ..)]
    simp only [goneSent, leadSent, electLead_detached h]
    rfl
  have contains (w : WallId) : (wallsOf p).contains w = adjacentTo w p := by
    rw [Bool.eq_iff_iff]
    simp [wallsOf, allWalls]
  have elected (r : Room) : electLead (consentsCleared (wallsOf p) (s.modPort p f)) r.members = leadWithout p s r :=
    electLead_detached h r
  rw [portLeft_eq, sent, roomOf_of_rooms (State.modPort_rooms ..)]
  simp only [leadElected, elected]
  simp only [consentsCleared, contains]
  rfl

/-- Settles O28. -/
theorem portLeaves : Obligations.PortLeaves := by
  intro p tag s
  dsimp only
  refine ⟨fun ⟨hheld, hplace, hatt⟩ => ?_, fun hheld hatt => ?_, fun hheld hatt => ?_⟩
  · have rule : ruleDetach p s =
        { code := .done, results := []
          state := sendAll (goneSent p s) (portGone p { s.ports.get p with attached := false } s) } :=
      congrArg (Answer.mk .done []) (portLeft_modPort (fun _ => rfl) s)
    rw [show exec (.detach p tag) s = finish (serve p tag false (ruleDetach p) s) from carryOut_eq hheld _]
    exact finish_serve hplace (.inr hatt) rule
  · have effect : leaveByReset p s = sendAll (goneSent p s) (portGone p .atReset s) := by
      rw [leaveByReset, isAttached, hatt]
      exact portLeft_modPort (fun _ => rfl) s
    rw [show exec (.portReset p) s = finish (leaveByReset p s) from carryOut_eq hheld _, effect, finish,
      startTransmitters_sendAll]
    rfl
  · have effect : leaveByReset p s = { s with ports := s.ports.set p .atReset } := if_neg (by simp [isAttached, hatt])
    rw [show exec (.portReset p) s = finish (leaveByReset p s) from carryOut_eq hheld _, effect, finish_eq_conclude]

end Sys2Proof.Machine
end

section
/-! Power-on reset, ready reports, and the reads of the partition controller (R2, R14, R16, R21, R28, R139, R197). -/

namespace Sys2Proof.Machine
open Sys2Proof.Safety

/-! ### Power-on reset (R197) -/

/-- Settles O3: each block at the value its chapter gives, which the state after power-on reset holds as it stands. -/
theorem powerOnResetValues : Obligations.PowerOnResetValues := by
  refine ⟨fun s => ⟨holdReset s, rfl, rfl, ?_⟩, fun c s hheld hc => exec_held hc hheld, fun levels s => ?_⟩
  · simp [holdReset]
  · refine ⟨_, rfl, ?_⟩
    simp [State.powerOn, Wall.atReset, Profile.atReset, HallSettings.atReset, Trunk.atReset, Counters.zero, Seat.atReset,
      Floor.empty, Booth.atReset, MixRoom.atReset, PortRec.atReset, Config.poolSize, Config.unity]

/-- With every wall closed a room is one segment. -/
theorem component_of_closed {m : WallMap} (h : ∀ w, m.get w = .closed) (g : Segment) : component m g = [g] := by
  have alone (x y : Segment) : joined m x y = false := by simp [joined, h]
  have mem (x : Segment) : x ∈ component m g ↔ x = g := by
    rw [mem_component_iff]
    refine ⟨fun hr => ?_, fun hx => hx ▸ .refl⟩
    induction hr with
    | refl => rfl
    | tail _ hj _ => rw [alone] at hj; contradiction
  have single : ∀ g : Segment, (allSegments.filter fun x => x == g) = [g] := by decide
  rw [component_eq_filter, ← single g]
  exact List.filter_congr fun x _ => by rw [Bool.eq_iff_iff, List.contains_iff_mem, mem, beq_iff_eq]

theorem roomsOk_powerOn (levels : WallMap) : roomsOk (State.powerOn levels) := by
  have comp : ∀ g, component (committedMap (State.powerOn levels)) g = [g] :=
    component_of_closed fun w => by simp [committedMap, State.powerOn, Wall.atReset]
  refine ⟨fun a => ?_, fun a => ?_⟩
  · have anchor : anchorIn (committedMap (State.powerOn levels)) a = a := by rw [anchorIn, comp]; rfl
    rw [if_pos anchor, comp]
    simp [State.powerOn]
  · simp [isDraining, State.powerOn]

theorem leadsOk_powerOn (levels : WallMap) : leadsOk (State.powerOn levels) := by
  intro a r hr
  obtain rfl : _ = r := Option.some.inj ((Tab.get_ofFn _ a).symm.trans hr)
  simp [State.powerOn, PortRec.atReset]

theorem wallsOk_powerOn (levels : WallMap) : wallsOk (State.powerOn levels) := by
  intro w
  cases h : levels.get w <;> simp [wallOk, State.powerOn, Wall.atReset, effectiveFor, h]

theorem soundingSeats_powerOn (levels : WallMap) : soundingSeats (State.powerOn levels) = [] := by
  simp [soundingSeats, State.powerOn, MixRoom.atReset, Floor.empty]

theorem trunksOk_powerOn (levels : WallMap) : trunksOk (State.powerOn levels) := by
  intro k
  simp [trunkOk, State.powerOn, Trunk.atReset]

theorem channelsExact_powerOn (levels : WallMap) : channelsExact (State.powerOn levels) := by
  intro i
  rw [soundingSeats_powerOn]
  simp [State.powerOn, Trunk.atReset]

theorem entriesOk_powerOn (levels : WallMap) : entriesOk (State.powerOn levels) := by
  simp [entriesOk, entrySeats, State.powerOn, Floor.empty]

theorem relaysOk_powerOn (levels : WallMap) : relaysOk (State.powerOn levels) := by
  intro b
  simp [relayDepth, depthWithin, State.powerOn, Booth.atReset]

theorem portsOk_powerOn (levels : WallMap) : portsOk (State.powerOn levels) := by
  intro p
  simp [portOk, State.powerOn, PortRec.atReset, Config.noticeCap]

/-- Settles O4: each condition read off the power-on values. -/
theorem powerOnIsSafe : Obligations.PowerOnIsSafe := by
  intro levels
  refine ⟨⟨roomsOk_powerOn levels, leadsOk_powerOn levels, wallsOk_powerOn levels, trunksOk_powerOn levels, ?_, ?_, ?_, ?_,
    entriesOk_powerOn levels, relaysOk_powerOn levels, portsOk_powerOn levels, ?_, ?_, ?_, ?_,
    channelsExact_powerOn levels, ?_⟩, ?_, ?_⟩
  · simp [channelsOk, State.powerOn, Trunk.atReset]
  · simp [floorsBounded, State.powerOn, Floor.empty, MixRoom.atReset]
  · simp [mixInRange, State.powerOn, Floor.empty, MixRoom.atReset]
  · simp [priorityOk, State.powerOn, Floor.empty]
  · simp [listsOrdered, State.powerOn, Floor.empty]
  · simp [releasesAtHome, State.powerOn, MixRoom.atReset]
  · simp [intakesAtHome, State.powerOn, Trunk.atReset]
  · simp [transmittersOk, State.powerOn, PortRec.atReset]
  · simp [holdersOk, State.powerOn, Floor.empty]
  · rw [releasesOrdered, soundingSeats_powerOn]
    simp [State.powerOn, MixRoom.atReset, List.flatMap]
  · simp [queuesOrdered, State.powerOn, Floor.empty, List.flatMap]

/-! ### Ready reports (R28, R158) -/

theorem reportReady_eq (a : Segment) (s : State) :
    reportReady a s =
      s.setRepartition (s.repartition.map fun rp =>
        if a ∈ rp.affected ∧ a ∉ rp.ready then { rp with ready := rp.ready ++ [a] } else rp) := by
  have kept {r : Option Repartition} (h : s.repartition = r) : s = s.setRepartition r := h ▸ rfl
  unfold reportReady
  split
  · next rp hrp =>
    have test : (rp.affected.contains a && !rp.ready.contains a) = true ↔ a ∈ rp.affected ∧ a ∉ rp.ready := by simp
    by_cases h : a ∈ rp.affected ∧ a ∉ rp.ready
    · simp only [hrp, Option.map_some, test, h]; rfl
    · simp only [hrp, Option.map_some, test, h, if_false]; exact kept hrp
  · next hrp => rw [hrp]; exact kept hrp

/-- Settles O39. -/
theorem readyReportTaken : Obligations.ReadyReportTaken := by
  intro a s hheld
  dsimp only
  rw [show exec (.readyReport a) s = finish (becomeSilent a s) from carryOut_eq hheld _]
  constructor
  · rintro ⟨hroom, hphase, hfade⟩
    have silent : becomeSilent a s = reportReady a (s.modMix a fun m => { m with phase := .silent }) := by
      simp [becomeSilent, hroom, hphase, hfade]
    rw [silent, reportReady_eq, finish_eq_conclude]
    rfl
  · intro hnot
    have same : becomeSilent a s = s := if_neg (by simpa [and_assoc] using hnot)
    rw [same, finish_eq_conclude]

/-! ### Reads (R14, R16, R21, R22, R139) -/

theorem roomArg_own {own : Segment} : roomArg own 0 = some own := rfl

theorem roomArg_of_toNat {own g : Segment} {b : Byte} (h : b.toNat = g.val + 1) : roomArg own b = some g := by
  have : b ≠ 0 := by bv_omega
  rw [roomArg, if_neg this, idArg_of_toNat h]

theorem roomArg_eq {own g : Segment} {b : Byte} (h : (b = 0 ∧ g = own) ∨ b.toNat = g.val + 1) :
    roomArg own b = some g := by
  rcases h with ⟨rfl, rfl⟩ | h
  exacts [roomArg_own, roomArg_of_toNat h]

theorem roomArg_none {own : Segment} {b : Byte} (h : 6 < b.toNat) : roomArg own b = none := by
  have : b ≠ 0 := by bv_omega
  rw [roomArg, if_neg this, idArg_none (.inr h)]

/-- Settles O29. -/
theorem hallReads : Obligations.HallReads := by
  intro p tag s hheld hplace
  have answers {c : Instr} {rule : State → Answer} {code : ReplyCode} {results : List Byte}
      (hc : exec c s = carryOut (serve p tag true rule) s)
      (hr : rule s = { code := code, results := results, state := s }) :
      exec c s = .next (answered s p tag code results) :=
    (hc.trans (carryOut_eq hheld _)).trans (finish_serve_same hplace (.inl rfl) hr)
  refine ⟨answers rfl rfl, answers rfl rfl, fun b w hb => answers rfl ?_, fun b hb => answers rfl ?_,
    fun b g hb => answers rfl ?_, fun b hb => ⟨answers rfl ?_, answers rfl ?_⟩,
    fun b a hb => ⟨fun hr => answers rfl ?_, fun r hr => ?_⟩⟩
  · rw [ruleReadWall, idArg_of_toNat hb]
  · rw [ruleReadWall, idArg_none hb]; rfl
  · rw [ruleReadProfile, roomArg_eq hb]
  · rw [ruleReadProfile, roomArg_none hb]; rfl
  · rw [ruleReadRoom, roomArg_none hb]; rfl
  · simp only [ruleReadRoom, roomArg_eq hb, hr]; rfl
  · have rule : ruleReadRoom p b s =
        { code := .done
          results := roomBytes a r (s.mixes.get a).clip
          state := sendAll [] (s.modMix a fun m => { m with clip := false }) } := by
      simp only [ruleReadRoom, roomArg_eq hb, hr]; rfl
    exact (carryOut_eq hheld _).trans (finish_serve hplace (.inl rfl) rule)

end Sys2Proof.Machine
end

section
/-! The events that move the hall, and what a condition on the hall must survive to be kept by every step. -/

namespace Sys2Proof.Machine
open Sys2Proof.Safety

/-! ### Commands and events that leave the hall alone -/

/-- The events that may change a wall record, the room table, the plan of the repartition or which ports are ATTACHED. -/
def movesHall : Instr → Bool
  | .powerOnReset _ | .frameEvent _ _ _ | .debounceEnd _ | .consentExpiry _ | .commit _ | .messageArrival _
  | .portReset _ | .attach _ _ | .detach _ _ | .setWall _ _ _ _ => true
  | _ => false

theorem serve_hallKept {p : Port} {tag : Byte} {read : Bool} {rule : State → Answer} {s : State}
    (h : AnswerKeeps s (rule s)) : HallKept s (serve p tag read rule s) :=
  serve_related (fun _ => notify_hallKept ..) (fun _ _ hr => hr.trans (pushReply_hallKept ..)) (.refl s) fun _ => h

theorem runCommand_hallKept {c : Instr} (hc : movesHall c = false) (s : State) : HallKept s (runCommand c s) := by
  cases c with
  | powerOnReset | frameEvent | debounceEnd | consentExpiry | commit | messageArrival | portReset | attach | detach
  | setWall => cases hc
  | setHall => exact serve_hallKept (ruleSetHall_keeps ..)
  | readHall | readClock => exact serve_hallKept (HallKept.refl s)
  | readWall => exact serve_hallKept (ruleReadWall_keeps ..)
  | readRoom => exact serve_hallKept (ruleReadRoom_keeps ..)
  | setProfile => exact serve_hallKept (ruleSetProfile_keeps ..)
  | readProfile => exact serve_hallKept (ruleReadProfile_keeps ..)
  | trunkPower => exact serve_hallKept (ruleTrunkPower_keeps ..)
  | trunkRestart => exact serve_hallKept (ruleTrunkRestart_keeps ..)
  | trunkTest => exact serve_hallKept (ruleTrunkTest_keeps ..)
  | snapshot => exact serve_hallKept (ruleSnapshot_keeps ..)
  | readTrunk => exact serve_hallKept (ruleReadTrunk_keeps ..)
  | setSeat => exact serve_hallKept (ruleSetSeat_keeps ..)
  | readSeat => exact serve_hallKept (ruleReadSeat_keeps ..)
  | grant => exact serve_hallKept (ruleGrant_keeps ..)
  | grantNext => exact serve_hallKept (ruleGrantNext_keeps ..)
  | close => exact serve_hallKept (ruleClose_keeps ..)
  | deny => exact serve_hallKept (ruleDeny_keeps ..)
  | enqueue => exact serve_hallKept (ruleEnqueue_keeps ..)
  | clear => exact serve_hallKept (ruleClear_keeps ..)
  | priorityCancel => exact serve_hallKept (rulePriorityCancel_keeps ..)
  | readFloor => exact serve_hallKept (ruleReadFloor_keeps ..)
  | assignBooth => exact serve_hallKept (ruleAssignBooth_keeps ..)
  | releaseBooth => exact serve_hallKept (ruleReleaseBooth_keeps ..)
  | setRelay => exact serve_hallKept (ruleSetRelay_keeps ..)
  | readBooth => exact serve_hallKept (ruleReadBooth_keeps ..)
  | setPaGain => exact serve_hallKept (ruleSetPaGain_keeps ..)
  | joinTap => exact serve_hallKept (ruleJoinTap_keeps ..)
  | leaveTap => exact serve_hallKept (ruleLeaveTap_keeps ..)
  | readTap => exact serve_hallKept (ruleReadTap_keeps ..)
  | _ => exact .refl s

theorem effectOf_hallKept {c : Instr} (hc : movesHall c = false) (s : State) : HallKept s (effectOf c s) := by
  cases c with
  | powerOnReset | frameEvent | debounceEnd | consentExpiry | commit | messageArrival | portReset | attach | detach
  | setWall => cases hc
  | warmingExpiry k => exact endWarming_hallKept k s
  | holdExpiry k => exact expireHold_hallKept k s
  | deadlineExpiry i => exact endSpeech_hallKept i s
  | releaseEnd i => exact (releaseEndOf_floorFrame ..).hallKept
  | readyReport a => exact becomeSilent_hallKept a s
  | uplinkFrame k frame => exact takeUplink_hallKept k frame s
  | missingFrame k => exact takeMissing_hallKept k s
  | messageSent p => exact modPort_hallKept p PortRec.sent_attached s
  | startBit p b => exact modPort_hallKept p (PortRec.startBit_attached b) s
  | characterComplete p samples => exact modPort_hallKept p (PortRec.character_attached samples) s
  | lineHighInLowWait p => exact modPort_hallKept p PortRec.lineHigh_attached s
  | breakWaitEnd p => exact modPort_hallKept p PortRec.breakEnds_attached s
  | _ => exact runCommand_hallKept hc s

/-! ### Conditions on the hall -/

/-- A condition that looks at the hall alone, holds after power-on reset, and is kept by what moves the hall. -/
structure HallCondition (P : State → Prop) : Prop where
  congr : ∀ {s t}, HallKept s t → P s → P t
  powerOn : ∀ levels, P (State.powerOn levels)
  sampled : ∀ levels s, P s → P (sampleWalls levels s)
  debounce : ∀ w s, P s → P (endDebounce w s)
  expire : ∀ w s, P s → P (expireConsent w s)
  commit : ∀ order s, P s → P (takeCommit order s)
  reset : ∀ p s, P s → P (leaveByReset p s)
  attach : ∀ p s, P s → P (ruleAttach p s).state
  detach : ∀ p s, P s → P (ruleDetach p s).state
  setWall : ∀ p wall mode s, isAttached s p = true → P s → P (ruleSetWall p wall mode s).state

section
variable {P : State → Prop} (h : HallCondition P)
include h

theorem HallCondition.serve {p : Port} {tag : Byte} {read : Bool} {rule : State → Answer} {s : State} (hs : P s)
    (taken : read = true ∨ isAttached s p = true → P (rule s).state) : P (serve p tag read rule s) :=
  serve_related (R := fun _ t => P t) (fun _ => h.congr (notify_hallKept ..) hs)
    (fun _ _ ht => h.congr (pushReply_hallKept ..) ht) hs taken

theorem HallCondition.runCommand (c : Instr) {s : State} (hs : P s) : P (runCommand c s) := by
  cases hc : movesHall c with
  | false => exact h.congr (runCommand_hallKept hc s) hs
  | true =>
    cases c with
    | attach p tag => exact h.serve hs fun _ => h.attach p s hs
    | detach p tag => exact h.serve hs fun _ => h.detach p s hs
    | setWall p tag wall mode => exact h.serve hs fun ha => h.setWall p wall mode s (ha.resolve_left nofun) hs
    | powerOnReset | frameEvent | debounceEnd | consentExpiry | commit | messageArrival | portReset => exact hs
    | _ => cases hc

/-- The judgement of a message clears the buffer, and then notes a fault or carries out a command (R176). -/
theorem HallCondition.endMessage (p : Port) {s : State} (hs : P s) : P (endMessage p s) := by
  have cleared : P (s.modPort p PortRec.clearMessage) :=
    h.congr (modPort_hallKept p (f := PortRec.clearMessage) (fun _ => rfl) s) hs
  unfold Machine.endMessage judgeMessage takeCommand
  dsimp only
  repeat' split
  · exact h.congr (notify_hallKept ..) cleared
  · exact h.runCommand _ cleared
  · exact h.serve cleared fun _ => cleared
  · exact hs

theorem HallCondition.takeEdge (micros : Nat) (levels : WallMap) (inputs : Tab 8 (Option Sys2Proof.BoothFrame)) {s : State}
    (hs : P s) : P (takeEdge micros levels inputs s) := by
  have clock : P (advanceClock s) := h.congr (s := s) (.of_eq rfl rfl rfl rfl) hs
  have walls : P (Machine.sampled levels inputs s) :=
    h.congr (s := sampleWalls levels (advanceClock s)) (.of_eq rfl rfl rfl rfl) (h.sampled levels _ clock)
  unfold Machine.takeEdge
  split
  · exact hs
  · exact h.congr (frameStep_frameFrame levels inputs s).hallKept walls

theorem HallCondition.kept : Kept P where
  pending s l hs := h.congr (s := s) (.of_eq rfl rfl rfl rfl) hs
  hold s hs := h.congr (s := s) ⟨rfl, rfl, rfl, fun p => by simp [holdReset]⟩ hs
  powerOn := h.powerOn
  start s hs := h.congr (startTransmitters_hallKept s) hs
  effect c s hs := by
    cases hc : movesHall c with
    | false => exact h.congr (effectOf_hallKept hc s) hs
    | true =>
      cases c with
      | powerOnReset => exact hs
      | frameEvent micros levels inputs => exact h.takeEdge micros levels inputs hs
      | debounceEnd w => exact h.debounce w s hs
      | consentExpiry w => exact h.expire w s hs
      | commit order => exact h.commit order s hs
      | messageArrival p => exact h.endMessage p hs
      | portReset p => exact h.reset p s hs
      | attach p tag => exact h.runCommand (.attach p tag) hs
      | detach p tag => exact h.runCommand (.detach p tag) hs
      | setWall p tag wall mode => exact h.runCommand (.setWall p tag wall mode) hs
      | _ => cases hc

end

end Sys2Proof.Machine
end

section
/-! How the hall moves: the records that a wall may be given, the start test, and the commit, each with what a condition
must survive to be kept by it (R3 to R13, R25 to R31). -/

namespace Sys2Proof.Machine
open Sys2Proof.Safety

/-! ### The start test (R25 to R27, R30) -/

/-- The notices of the loop case: the walls whose committed states change (R26). -/
def loopSent (s : State) : List Sent :=
  (committedChanged s.walls (commitLoop s).walls).map fun w => wallSent w ((commitLoop s).walls.get w)

theorem startTest_nothing {s : State} (h : NothingToStart s) (uncreated : List Segment) : startTest uncreated s = s := by
  rw [startTest, startPlan_nothing h]

theorem startTest_loop {s : State} (h : ¬NothingToStart s) (ha : affectedRooms s (effectiveMap s) = [])
    (uncreated : List Segment) : startTest uncreated s = sendAll (loopSent s) (commitLoop s) := by
  rw [startTest, startPlan_loop h ha]
  exact sendWalls_eq ..

theorem startTest_drain {s : State} (h : ¬NothingToStart s) (ha : affectedRooms s (effectiveMap s) ≠ [])
    (uncreated : List Segment) :
    startTest uncreated s =
      sendAll (drainSent s (affectedRooms s (effectiveMap s)))
        (drainBegunBut uncreated s (affectedRooms s (effectiveMap s))) := by
  rw [startTest, startPlan_drain h ha]
  exact beginDrain_eq (affectedRooms_nodup ..) fun a => isSome_of_mem_affectedRooms

/-- A condition on the hall that the loop case and the start of a drain keep. -/
structure StartCondition (P : State → Prop) : Prop where
  congr : ∀ {s t}, HallKept s t → P s → P t
  loop : ∀ s, ¬NothingToStart s → affectedRooms s (effectiveMap s) = [] → P s → P (commitLoop s)
  drain : ∀ uncreated s, ¬NothingToStart s → P s → P (drainBegunBut uncreated s (affectedRooms s (effectiveMap s)))

section
variable {P : State → Prop} (h : StartCondition P)
include h

theorem StartCondition.sendAll (sent : List Sent) {s : State} (hs : P s) : P (sendAll sent s) :=
  h.congr (sendAll_hallKept sent s) hs

theorem StartCondition.startTest (uncreated : List Segment) {s : State} (hs : P s) : P (startTest uncreated s) := by
  by_cases hn : NothingToStart s
  · rwa [startTest_nothing hn]
  · by_cases ha : affectedRooms s (effectiveMap s) = []
    · rw [startTest_loop hn ha]
      exact h.sendAll _ (h.loop s hn ha hs)
    · rw [startTest_drain hn ha]
      exact h.sendAll _ (h.drain uncreated s hn hs)

theorem StartCondition.wallChanged {s : State} {w : WallId} {r : Wall} (hs : P (s.putWall w r)) :
    P (wallChanged s w r).1 := by
  by_cases hk : r.effective = (s.walls.get w).effective ∨ NothingToStart (s.putWall w r)
  · rwa [wallChanged_kept hk]
  · obtain ⟨he, hn⟩ := not_or.mp hk
    by_cases ha : affectedRooms (s.putWall w r) (effectiveMap (s.putWall w r)) = []
    · rw [wallChanged_loop he hn ha]
      exact h.loop _ hn ha hs
    · rw [wallChanged_drain he hn ha]
      dsimp only
      rw [← drainBegunBut_nil]
      exact h.drain [] _ hn hs

end

/-! ### The records a wall may be given -/

/-- The records that the end of a debounce and a SET_WALL or an expiry give to wall `w` (R4, R8, R9, R11, R12). -/
inductive WallWritten (s : State) (w : WallId) : Wall → Prop
  /-- The end of a debounce (R4). -/
  | debounced : WallWritten s w { s.walls.get w with sensed := (s.walls.get w).raw, changeTime := none }.settled
  /-- A consent record is cancelled or expires (R8, R12). -/
  | cleared : WallWritten s w { s.walls.get w with consent := none }
  /-- The mode is set, and no consent record is left (R8, R11). -/
  | modeSet (mode : WallMode) : WallWritten s w (modeSet mode (s.walls.get w))
  /-- An adjacent port asks for FORCED_OPEN, for the first time or again (R9, R10). -/
  | requested (p : Port) (expiry : Clock) (adjacent : adjacentTo w p = true) (attached : isAttached s p = true)
      (peer : ((s.walls.get w).mode ≠ .forcedOpen ∧ isAttached s (otherSide w p) = true) ∨
        (s.walls.get w).consent.isSome = true) :
      WallWritten s w { s.walls.get w with consent := some { requester := p, expiry := expiry } }

theorem WallWritten.committed {s : State} {w : WallId} {r : Wall} (h : WallWritten s w r) :
    r.committed = (s.walls.get w).committed := by
  cases h <;> rfl

/-- What an event that acts on one wall leaves: the state as it is, a wall with a new record, or what a change of the wall's
effective state starts. -/
def WallMoved (s t : State) : Prop :=
  t = s ∨ ∃ w r sent, WallWritten s w r ∧ (t = sendAll sent (s.putWall w r) ∨ t = sendAll sent (wallChanged s w r).1)

theorem endDebounce_moves (w : WallId) (s : State) : WallMoved s (endDebounce w s) := by
  unfold endDebounce
  split
  · exact .inr ⟨w, _, _, .debounced, .inr (settleWall_modWall w s fun _ => rfl)⟩
  · exact .inl rfl

theorem expireConsent_moves (w : WallId) (s : State) : WallMoved s (expireConsent w s) := by
  unfold expireConsent
  repeat' split
  · next c _ _ => exact .inr ⟨w, _, [([c.requester], .consent w .expired c.requester c.expiry)], .cleared, .inl rfl⟩
  · exact .inl rfl
  · exact .inl rfl

theorem setWallMode_moves (w : WallId) (mode : WallMode) (s : State) : WallMoved s (setWallMode w mode s).state := by
  by_cases h : (s.walls.get w).mode = mode
  · exact .inr ⟨w, _, _, .cleared, .inl (congrArg Answer.state (setWallMode_same h))⟩
  · exact .inr ⟨w, _, _, .modeSet mode, .inr (congrArg Answer.state (setWallMode_new h))⟩

theorem forceOpen_moves {w : WallId} {p : Port} {s : State} (ha : adjacentTo w p = true) (hp : isAttached s p = true) :
    WallMoved s (forceOpen w p s).state := by
  have asks (peer) : WallMoved s (requestConsent w p s).state :=
    .inr ⟨w, _, _, .requested p _ ha hp peer, .inl (congrArg Answer.state (requestConsent_eq w p s))⟩
  unfold forceOpen
  dsimp only
  split
  · split
    · exact .inl rfl
    · next hm =>
      split
      · exact .inl rfl
      · next hpeer => exact asks (.inl ⟨hm, by simpa using hpeer⟩)
  · next c hc =>
    split
    · exact asks (.inr (by simp [hc]))
    · exact .inr ⟨w, _, _, .modeSet .forcedOpen, .inr (settleWall_modWall w s fun _ => rfl)⟩

theorem ruleSetWall_moves {p : Port} {s : State} (hp : isAttached s p = true) (wall mode : Byte) :
    WallMoved s (ruleSetWall p wall mode s).state := by
  unfold ruleSetWall
  split
  · next w m _ _ =>
    split
    · exact .inl rfl
    · next ha =>
      cases m with
      | sensed => exact setWallMode_moves ..
      | forcedClosed => exact setWallMode_moves ..
      | forcedOpen => exact forceOpen_moves (by simpa using ha) hp
  · exact .inl rfl

theorem StartCondition.wallMoved {P : State → Prop} (h : StartCondition P)
    (put : ∀ s w r, WallWritten s w r → P s → P (s.putWall w r)) {s t : State} (hm : WallMoved s t) (hs : P s) : P t := by
  rcases hm with rfl | ⟨w, r, sent, hw, rfl | rfl⟩
  · exact hs
  · exact h.sendAll sent (put s w r hw hs)
  · exact h.sendAll sent (h.wallChanged (put s w r hw hs))

/-! ### The commit (R28 to R30) -/

/-- Committed states and room table as the partition controller's share of a commit rebuilds them (R29). -/
def partitioned (rp : Repartition) (s : State) : State :=
  ((s.setWalls (Tab.ofFn fun w => { s.walls.get w with committed := rp.target.get w })).setRooms
    (rebuiltRooms s rp)).setRepartition none

/-- The WALL and ROOM notices of a commit are sent after the committed states stand, in the loop case too (R29, R30). -/
theorem commitPartition_eq (rp : Repartition) (s : State) :
    ∃ sent, commitPartition rp s =
      sendAll sent (if startPlan (partitioned rp s) = .loop then commitLoop (partitioned rp s) else partitioned rp s) := by
  unfold commitPartition
  dsimp only
  rw [← partitioned, foldl_sendRoom, sendWalls_eq, ← sendAll_append]
  exact ⟨_, rfl⟩

theorem loop_of_startPlan {s : State} (h : startPlan s = .loop) :
    ¬NothingToStart s ∧ affectedRooms s (effectiveMap s) = [] := by
  by_cases hn : NothingToStart s
  · rw [startPlan_nothing hn] at h; cases h
  · by_cases ha : affectedRooms s (effectiveMap s) = []
    · exact ⟨hn, ha⟩
    · rw [startPlan_drain hn ha] at h; cases h

theorem capRelease_hallKept (a : Segment) (s : State) : HallKept s (capRelease a s) :=
  (capRelease_floorFrame a s).hallKept

theorem commitMix_hallKept (affected news : List Segment) (s : State) : HallKept s (commitMix affected news s) := by
  have made (mixes : Tab 6 MixRoom) : HallKept s (s.setMixes mixes) := .of_eq rfl rfl rfl rfl
  exact ((made _).trans (.foldl (fun s a => capRelease_hallKept a s) _ _)).trans
    (.foldl (fun s a => reportReady_hallKept a s) _ _)

theorem commitTrunk_hallKept (sets : Sets) (segments : List Segment) (k : TrunkId) (s : State) :
    HallKept s (commitTrunk sets segments k s) := by
  unfold commitTrunk
  split
  · exact (modTrunk_hallKept ..).trans (.foldl (fun s e => (seatEvent_seatFrame ..).hallKept) _ _)
  · exact .refl s

theorem StartCondition.commitShare {P : State → Prop} (h : StartCondition P) (sets : Sets) (old : State)
    (affected news : List Segment) (c : CommitShare) {s : State} (hs : P s) : P (commitShare sets old affected news s c) := by
  cases c with
  | mix => exact h.congr (commitMix_hallKept ..) hs
  | floor => exact h.congr (commitFloors_floorFrame ..).hallKept hs
  | booths => exact h.congr (commitBooths_boothFrame ..).hallKept hs
  | taps => exact h.congr (commitTaps_boothFrame s).hallKept hs
  | trunk k => exact h.congr (commitTrunk_hallKept ..) hs
  | startTest => exact h.startTest _ hs

theorem StartCondition.takeShares {P : State → Prop} (h : StartCondition P) (old : State) (affected news : List Segment)
    (order : List CommitShare) (sets : Sets) {s : State} (hs : P s) : P (takeShares old affected news sets s order) := by
  induction order generalizing sets s with
  | nil => exact hs
  | cons c order ih => exact ih _ (h.commitShare sets old affected news c hs)

theorem StartCondition.takeCommit {P : State → Prop} (h : StartCondition P)
    (partitioned : ∀ rp s, s.repartition = some rp → P s → P (partitioned rp s)) (order : List CommitShare) {s : State}
    (hs : P s) : P (takeCommit order s) := by
  unfold Machine.takeCommit
  split
  · next rp hrp =>
    split
    · refine h.takeShares _ _ _ _ _ ?_
      obtain ⟨sent, heq⟩ := commitPartition_eq rp s
      rw [heq]
      refine h.sendAll sent ?_
      split
      · next hl =>
        obtain ⟨hn, ha⟩ := loop_of_startPlan hl
        exact h.loop _ hn ha (partitioned rp s hrp hs)
      · exact partitioned rp s hrp hs
    · exact hs
  · exact hs

/-- What a condition must survive beside the start test, to be kept by every step. -/
structure MoveCondition (P : State → Prop) : Prop extends StartCondition P where
  powerOn : ∀ levels, P (State.powerOn levels)
  sampled : ∀ levels s, P s → P (sampleWalls levels s)
  put : ∀ s w r, WallWritten s w r → P s → P (s.putWall w r)
  partitioned : ∀ rp s, s.repartition = some rp → P s → P (partitioned rp s)
  joins : ∀ p s, P s → P (leadElected (portAttached p s) (roomOf s p))
  gone : ∀ p r s, r.attached = false → P s → P (portGone p r s)

theorem MoveCondition.hall {P : State → Prop} (h : MoveCondition P) : HallCondition P where
  congr := h.congr
  powerOn := h.powerOn
  sampled := h.sampled
  debounce w s := h.wallMoved h.put (endDebounce_moves w s)
  expire w s := h.wallMoved h.put (expireConsent_moves w s)
  commit order _ := h.takeCommit h.partitioned order
  setWall _ wall mode _ hp := h.wallMoved h.put (ruleSetWall_moves hp wall mode)
  reset p s hs := by
    unfold leaveByReset
    dsimp only
    split
    · rw [portLeft_modPort fun _ => rfl]
      exact h.sendAll _ (h.gone p _ s rfl hs)
    · next hp =>
      have kept (q : Port) : ((s.modPort p resetPort).ports.get q).attached = (s.ports.get q).attached := by
        by_cases hq : p = q
        · subst hq
          rw [State.modPort_ports, Tab.get_modify_self]
          exact (Bool.not_eq_true _ |>.mp hp).symm
        · simp [Tab.get_modify_ne _ _ hq]
      exact h.congr (s := s) ⟨rfl, rfl, rfl, kept⟩ hs
  attach p s hs := by
    unfold ruleAttach
    dsimp only
    split
    · exact hs
    · rw [recomputeLead_eq]
      exact h.sendAll _ (h.joins p s hs)
  detach p s hs := by
    unfold ruleDetach
    rw [portLeft_modPort fun _ => rfl]
    exact h.sendAll _ (h.gone p _ s rfl hs)

end Sys2Proof.Machine
end

section
/-! The room table follows the committed wall states, leads follow the attached ports, and wall records stay in order
(R3, R5, R9, R13, R15, R17, R25, R27). -/

namespace Sys2Proof.Machine
open Sys2Proof.Safety

/-! ### The room table of the committed wall states (R15) -/

section
variable {s : State} (h : roomsFollowWalls s)
include h

theorem isSome_room_iff {a : Segment} : (s.rooms.get a).isSome = true ↔ anchorIn (committedMap s) a = a := by
  have := congrArg Option.isSome (h a)
  rw [Option.isSome_map] at this
  rw [this]
  split <;> simp_all

theorem members_of_room {a : Segment} {r : Room} (hr : s.rooms.get a = some r) :
    anchorIn (committedMap s) a = a ∧ r.members = component (committedMap s) a := by
  have ha : anchorIn (committedMap s) a = a := (isSome_room_iff h).mp (by simp [hr])
  have := h a
  rw [hr, if_pos ha] at this
  exact ⟨ha, Option.some.inj this⟩

theorem membersOf_anchor {a : Segment} (ha : anchorIn (committedMap s) a = a) :
    membersOf s a = component (committedMap s) a := by
  obtain ⟨r, hr⟩ := Option.isSome_iff_exists.mp ((isSome_room_iff h).mpr ha)
  rw [membersOf, hr]
  exact (members_of_room h hr).2

theorem mem_membersOf_iff {a g : Segment} : g ∈ membersOf s a ↔ anchorIn (committedMap s) g = a := by
  constructor
  · intro hg
    have hsome : (s.rooms.get a).isSome = true := by
      by_contra hn
      rw [membersOf, Option.not_isSome_iff_eq_none.mp hn] at hg
      cases hg
    have ha := (isSome_room_iff h).mp hsome
    rw [membersOf_anchor h ha] at hg
    rw [anchorIn_congr (component_eq_of_mem hg), ha]
  · rintro rfl
    rw [membersOf_anchor h (anchorIn_anchorIn ..), component_anchorIn]
    exact self_mem_component _ g

/-- The room of a segment is that of its anchor (R16). -/
theorem roomOf_eq_anchorIn (g : Segment) : roomOf s g = anchorIn (committedMap s) g := by
  have hg : g ∈ membersOf s (anchorIn (committedMap s) g) := (mem_membersOf_iff h).mpr rfl
  unfold roomOf
  cases hf : allSegments.find? fun a => (membersOf s a).contains g with
  | none =>
    have := List.find?_eq_none.mp hf (anchorIn (committedMap s) g) (List.mem_finRange _)
    exact absurd (List.contains_iff_mem.mpr hg) this
  | some a =>
    have := List.find?_some hf
    exact ((mem_membersOf_iff h).mp (List.contains_iff_mem.mp this)).symm

/-- The rooms that a target map changes are those that are not its components (R25). -/
theorem mem_affectedRooms_iff {m : WallMap} {a : Segment} :
    a ∈ affectedRooms s m ↔
      anchorIn (committedMap s) a = a ∧ component m a ≠ component (committedMap s) a := by
  have some_room (b : Segment) : component m b = component (committedMap s) a → component m a = component m b := fun hb =>
    component_eq_of_mem (hb ▸ self_mem_component _ a)
  cases hr : s.rooms.get a with
  | none =>
    have ha : anchorIn (committedMap s) a ≠ a := fun e => by simpa [hr] using (isSome_room_iff h).mpr e
    simp [affectedRooms, allSegments, hr, ha]
  | some r =>
    obtain ⟨ha, hm⟩ := members_of_room h hr
    have : a ∈ affectedRooms s m ↔ ∀ b ∈ anchorsOf m, component m b ≠ component (committedMap s) a := by
      simp [affectedRooms, allSegments, hr, hm]
    rw [this]
    refine ⟨fun hall => ⟨ha, fun e => ?_⟩, fun ⟨_, hne⟩ b _ e => hne ((some_room b e).trans e)⟩
    exact hall _ (mem_anchorsOf.mpr (anchorIn_anchorIn m a)) ((component_anchorIn m a).trans e)

/-- The new rooms of a target map are its components that are no current room (R25). -/
theorem mem_newRooms_iff {m : WallMap} {a : Segment} :
    a ∈ newRooms s m ↔ anchorIn m a = a ∧ component (committedMap s) a ≠ component m a := by
  have current : (∃ b r, s.rooms.get b = some r ∧ r.members = component m a) ↔
      component (committedMap s) a = component m a := by
    constructor
    · rintro ⟨b, r, hr, hm⟩
      have hb := (members_of_room h hr).2
      rw [← hm, hb]
      exact component_eq_of_mem (hb ▸ hm ▸ self_mem_component m a)
    · intro e
      have ha := anchorIn_anchorIn (committedMap s) a
      obtain ⟨r, hr⟩ := Option.isSome_iff_exists.mp ((isSome_room_iff h).mpr ha)
      exact ⟨_, r, hr, by rw [(members_of_room h hr).2, component_anchorIn, e]⟩
  have : a ∈ newRooms s m ↔
      anchorIn m a = a ∧ ¬∃ b r, s.rooms.get b = some r ∧ r.members = component m a := by
    rw [newRooms, List.mem_filter, mem_anchorsOf, Bool.not_eq_true', ← Bool.not_eq_true, List.any_eq_true]
    refine and_congr_right fun _ => not_congr (exists_congr fun b => ?_)
    cases s.rooms.get b <;> simp [allSegments]
  rw [this, current]

/-- Where a map changes no room, it has the same rooms. -/
theorem component_eq_of_unaffected {m : WallMap} (hm : affectedRooms s m = []) (g : Segment) :
    component m g = component (committedMap s) g := by
  have hc := component_anchorIn (committedMap s) g
  have same : component m (anchorIn (committedMap s) g) = component (committedMap s) g := by
    by_contra hne
    have : anchorIn (committedMap s) g ∈ affectedRooms s m :=
      (mem_affectedRooms_iff h).mpr ⟨anchorIn_anchorIn .., fun e => hne (e.trans hc)⟩
    rw [hm] at this
    cases this
  rw [← same]
  exact component_eq_of_mem (same ▸ self_mem_component _ g)

end

/-! ### Rooms stay the components of the committed wall states -/

theorem roomsFollowWalls_congr {s t : State} (hc : committedMap t = committedMap s)
    (hr : ∀ a, (t.rooms.get a).map Room.members = (s.rooms.get a).map Room.members) (h : roomsFollowWalls s) :
    roomsFollowWalls t := fun a => by rw [hr a, hc, h a]

theorem isDraining_of_rooms {s t : State} (h : t.rooms = s.rooms) : isDraining t = isDraining s := by
  funext a
  rw [isDraining, h, isDraining]

theorem affectedRooms_of_rooms {s t : State} (h : t.rooms = s.rooms) : affectedRooms t = affectedRooms s := by
  funext m
  exact affectedRooms_congr (fun a => by rw [h]) m

/-- Whether the drain matches depends on the room table and the plan of the repartition alone. -/
theorem drainMatches_congr {s t : State} (hr : t.rooms = s.rooms)
    (hp : t.repartition.map (fun rp => (rp.target, rp.affected)) = s.repartition.map fun rp => (rp.target, rp.affected))
    (h : drainMatches s) : drainMatches t := by
  unfold drainMatches at h ⊢
  rw [isDraining_of_rooms hr, affectedRooms_of_rooms hr]
  cases hs : s.repartition with
  | none =>
    rw [hs] at h hp
    rw [Option.map_eq_none_iff.mp hp]
    exact h
  | some rp =>
    rw [hs] at h hp
    obtain ⟨rp', hrp', he⟩ := Option.map_eq_some_iff.mp hp
    obtain ⟨htarget, haffected⟩ := Prod.ext_iff.mp he
    rw [hrp']
    dsimp only at htarget haffected ⊢
    rw [htarget, haffected]
    exact h

theorem HallKept.roomsOk {s t : State} (hk : HallKept s t) (h : roomsOk s) : roomsOk t := by
  have committed : committedMap t = committedMap s := by rw [committedMap, hk.walls, committedMap]
  exact ⟨roomsFollowWalls_congr committed (fun a => by rw [hk.rooms]) h.1, drainMatches_congr hk.rooms hk.plan h.2⟩

/-- With no repartition no room drains. -/
theorem steady_of_roomsOk {s : State} (h : roomsOk s) (hn : s.repartition = none) (a : Segment) : isDraining s a = false := by
  have := h.2
  rw [drainMatches, hn] at this
  exact this a

theorem repartition_none_of_not_nothing {s : State} (h : ¬NothingToStart s) : s.repartition = none := by
  by_contra hne
  exact h (.inl (Option.isSome_iff_ne_none.mpr hne))

theorem roomsOk_commitLoop {s : State} (ha : affectedRooms s (effectiveMap s) = [])
    (h : roomsOk s) : roomsOk (commitLoop s) := by
  have committed : committedMap (commitLoop s) = effectiveMap s :=
    Tab.ext_get fun w => by simp [committedMap, commitLoop, effectiveMap]
  have same := component_eq_of_unaffected h.1 ha
  refine ⟨fun a => ?_, ?_⟩
  · rw [committed, same a, anchorIn_congr (same a)]
    exact h.1 a
  · exact drainMatches_congr (s := s) rfl rfl h.2

theorem drainBegunBut_members (uncreated : List Segment) (s : State) (affected : List Segment) (a : Segment) :
    ((drainBegunBut uncreated s affected).rooms.get a).map (fun r => (r.members, r.lead)) =
      (s.rooms.get a).map fun r => (r.members, r.lead) := by
  simp only [drainBegunBut, Tab.get_ofFn]
  split <;> cases s.rooms.get a <;> simp

theorem membersOf_drainBegunBut (uncreated : List Segment) (s : State) (affected : List Segment) (a : Segment) :
    ((drainBegunBut uncreated s affected).rooms.get a).map Room.members = (s.rooms.get a).map Room.members := by
  have := congrArg (Option.map Prod.fst) (drainBegunBut_members uncreated s affected a)
  simpa [Function.comp_def] using this

theorem isDraining_drainBegunBut {s : State} (hs : ∀ a, isDraining s a = false) {affected : List Segment}
    (ha : ∀ a ∈ affected, (s.rooms.get a).isSome = true) (uncreated : List Segment) (a : Segment) :
    isDraining (drainBegunBut uncreated s affected) a = affected.contains a := by
  have hsa := hs a
  rw [isDraining] at hsa
  simp only [isDraining, drainBegunBut, Tab.get_ofFn]
  by_cases hm : a ∈ affected
  · obtain ⟨r, hr⟩ := Option.isSome_iff_exists.mp (ha a hm)
    simp [hm, hr]
  · simpa [hm] using hsa

theorem roomsOk_drain (uncreated : List Segment) {s : State} (hn : ¬NothingToStart s) (h : roomsOk s) :
    roomsOk (drainBegunBut uncreated s (affectedRooms s (effectiveMap s))) := by
  have members := membersOf_drainBegunBut uncreated s (affectedRooms s (effectiveMap s))
  refine ⟨roomsFollowWalls_congr (s := s) rfl members h.1, (affectedRooms_congr members _).symm, ?_⟩
  exact isDraining_drainBegunBut (steady_of_roomsOk h (repartition_none_of_not_nothing hn))
    (fun a => isSome_of_mem_affectedRooms) uncreated

theorem rooms_start : StartCondition roomsOk where
  congr := HallKept.roomsOk
  loop _ _ := roomsOk_commitLoop
  drain _ _ := roomsOk_drain _

/-! ### The commit's new room table (R29) -/

theorem committedMap_partitioned (rp : Repartition) (s : State) : committedMap (partitioned rp s) = rp.target :=
  Tab.ext_get fun w => by simp [committedMap, partitioned]

theorem effectiveMap_partitioned (rp : Repartition) (s : State) : effectiveMap (partitioned rp s) = effectiveMap s :=
  Tab.ext_get fun w => by simp [effectiveMap, partitioned]

/-- What a repartition in progress holds (R25, R27). -/
theorem affected_of_roomsOk {s : State} {rp : Repartition} (h : roomsOk s) (hrp : s.repartition = some rp) :
    rp.affected = affectedRooms s rp.target ∧ ∀ a, isDraining s a = rp.affected.contains a := by
  have := h.2
  rwa [drainMatches, hrp] at this

theorem rebuiltRooms_new {s : State} {rp : Repartition} {a : Segment} (h : a ∈ newRooms s rp.target) :
    (rebuiltRooms s rp).get a =
      some { members := component rp.target a, lead := electLead s (component rp.target a), status := .steady } := by
  simp [rebuiltRooms, h]

theorem rebuiltRooms_gone {s : State} {rp : Repartition} {a : Segment} (h : a ∉ newRooms s rp.target)
    (ha : a ∈ rp.affected) : (rebuiltRooms s rp).get a = none := by
  simp [rebuiltRooms, h, ha]

theorem rebuiltRooms_kept {s : State} {rp : Repartition} {a : Segment} (h : a ∉ newRooms s rp.target)
    (ha : a ∉ rp.affected) : (rebuiltRooms s rp).get a = s.rooms.get a := by
  simp [rebuiltRooms, h, ha]

theorem roomsOk_partitioned {rp : Repartition} {s : State} (hrp : s.repartition = some rp) (h : roomsOk s) :
    roomsOk (partitioned rp s) := by
  obtain ⟨haffected, hdraining⟩ := affected_of_roomsOk h hrp
  have hnew := fun a => mem_newRooms_iff h.1 (m := rp.target) (a := a)
  have haff := fun a => haffected ▸ mem_affectedRooms_iff h.1 (m := rp.target) (a := a)
  refine ⟨fun a => ?_, fun a => ?_⟩
  · rw [committedMap_partitioned]
    change ((rebuiltRooms s rp).get a).map Room.members = _
    by_cases ha : a ∈ newRooms s rp.target
    · rw [rebuiltRooms_new ha, if_pos ((hnew a).mp ha).1]
      rfl
    · by_cases hb : a ∈ rp.affected
      · obtain ⟨hc, hne⟩ := (haff a).mp hb
        rw [rebuiltRooms_gone ha hb, if_neg fun e => ha ((hnew a).mpr ⟨e, fun e' => hne e'.symm⟩)]
        rfl
      · rw [rebuiltRooms_kept ha hb, h.1 a]
        by_cases hc : component rp.target a = component (committedMap s) a
        · rw [anchorIn_congr hc, hc]
        · rw [if_neg fun e => hb ((haff a).mpr ⟨e, hc⟩), if_neg fun e => ha ((hnew a).mpr ⟨e, fun e' => hc e'.symm⟩)]
  · change (match (rebuiltRooms s rp).get a with | some r => r.status == .draining | none => false) = false
    by_cases ha : a ∈ newRooms s rp.target
    · rw [rebuiltRooms_new ha]; rfl
    · by_cases hb : a ∈ rp.affected
      · rw [rebuiltRooms_gone ha hb]
      · rw [rebuiltRooms_kept ha hb]
        exact (hdraining a).trans (by simpa using hb)

/-! ### Leads -/

theorem HallKept.leadsOk {s t : State} (hk : HallKept s t) (h : leadsOk s) : leadsOk t := by
  intro a r hr
  rw [hk.rooms] at hr
  simp only [hk.attached]
  exact h a r hr

theorem drainBegunBut_leads (uncreated : List Segment) {s : State} (affected : List Segment) (h : leadsOk s) :
    leadsOk (drainBegunBut uncreated s affected) := by
  intro a r hr
  have := drainBegunBut_members uncreated s affected a
  rw [hr] at this
  obtain ⟨r', hr', he⟩ := Option.map_eq_some_iff.mp this.symm
  obtain ⟨hm, hl⟩ := Prod.ext_iff.mp he
  exact (hl.symm.trans (h a r' hr')).trans (congrArg (List.find? _) hm)

theorem leadsOk_partitioned (rp : Repartition) {s : State} (h : leadsOk s) : leadsOk (partitioned rp s) := by
  intro a r hr
  change (rebuiltRooms s rp).get a = some r at hr
  by_cases ha : a ∈ newRooms s rp.target
  · rw [rebuiltRooms_new ha] at hr
    cases hr
    rfl
  · by_cases hb : a ∈ rp.affected
    · rw [rebuiltRooms_gone ha hb] at hr; cases hr
    · rw [rebuiltRooms_kept ha hb] at hr
      exact h a r hr

/-- A segment's port bears on the lead of the segment's own room alone. -/
theorem not_mem_members {s : State} (h : roomsFollowWalls s) {p b : Segment} {r : Room} (hb : s.rooms.get b = some r)
    (hne : roomOf s p ≠ b) : p ∉ r.members := by
  intro hp
  have : p ∈ membersOf s b := by rw [membersOf, hb]; exact hp
  exact hne ((roomOf_eq_anchorIn h p).trans ((mem_membersOf_iff h).mp this))

/-- After an election in the room of port `p`, where no other port has changed, every lead is in order (R17). -/
theorem leadsOk_of_elected {s t : State} {p : Port} {lead : Room → Option Port} (hrooms : roomsFollowWalls s)
    (ht : t.rooms = s.rooms.modify (roomOf s p) fun x => x.map fun r => { r with lead := lead r })
    (hlead : ∀ r, lead r = r.members.find? fun g => (t.ports.get g).attached)
    (hp : ∀ q, q ≠ p → (t.ports.get q).attached = (s.ports.get q).attached) (h : leadsOk s) : leadsOk t := by
  intro b r hr
  rw [ht, Tab.get_modify] at hr
  split at hr
  · obtain ⟨r', _, rfl⟩ := Option.map_eq_some_iff.mp hr
    exact hlead r'
  · next hne =>
    rw [h b r hr]
    refine List.find?_congr fun g hg => ?_
    rw [hp g fun e => not_mem_members hrooms hr hne (e ▸ hg)]

end Sys2Proof.Machine
end

section
/-! The conditions on rooms, leads and walls are kept by every step (R3, R5, R9, R13, R15, R17). -/

namespace Sys2Proof.Machine
open Sys2Proof.Safety

/-! ### Rooms and leads -/

theorem roomsOk_of_hall {s t : State} (hw : committedMap t = committedMap s)
    (hr : ∀ a, (t.rooms.get a).map (fun r => (r.members, r.status)) = (s.rooms.get a).map fun r => (r.members, r.status))
    (hp : t.repartition = s.repartition) (h : roomsOk s) : roomsOk t := by
  have members (a : Segment) : (t.rooms.get a).map Room.members = (s.rooms.get a).map Room.members := by
    simpa [Function.comp_def] using congrArg (Option.map Prod.fst) (hr a)
  have draining : isDraining t = isDraining s := by
    funext a
    have := hr a
    rw [isDraining, isDraining]
    cases hs : s.rooms.get a <;> cases ht : t.rooms.get a <;> simp_all
  refine ⟨roomsFollowWalls_congr hw members h.1, ?_⟩
  have := h.2
  rw [drainMatches, hp, draining]
  rw [drainMatches] at this
  cases hrp : s.repartition with
  | none => rwa [hrp] at this
  | some rp =>
    rw [hrp] at this
    dsimp only
    rwa [affectedRooms_congr members]

theorem roomsOk_put {s : State} {w : WallId} {r : Wall} (hr : r.committed = (s.walls.get w).committed) (h : roomsOk s) :
    roomsOk (s.putWall w r) := by
  refine roomsOk_of_hall (s := s) (Tab.ext_get fun x => ?_) (fun _ => rfl) rfl h
  by_cases hx : w = x
  · subst hx; simpa [committedMap] using hr
  · simp [committedMap, putWall_ne _ _ hx]

theorem committedMap_of_get {s t : State} (h : ∀ w, (t.walls.get w).committed = (s.walls.get w).committed) :
    committedMap t = committedMap s :=
  Tab.ext_get fun w => by simp [committedMap, h]

theorem rooms_move : MoveCondition roomsOk where
  toStartCondition := rooms_start
  powerOn := roomsOk_powerOn
  sampled levels s h := by
    refine roomsOk_of_hall (s := s) (committedMap_of_get fun w => ?_) (fun _ => rfl) rfl h
    simp only [sampleWalls, State.setWalls_walls, Tab.get_ofFn, sampleWall]
    split <;> rfl
  put _ _ _ hw := roomsOk_put hw.committed
  partitioned _ _ hrp := roomsOk_partitioned hrp
  joins p s h := by
    refine roomsOk_of_hall (s := s) rfl (fun a => ?_) rfl h
    simp only [leadElected, portAttached, State.modPort_rooms, Tab.get_modify]
    split <;> simp [Function.comp_def]
  gone p r s _ h := by
    refine roomsOk_of_hall (s := s) (committedMap_of_get fun w => by simp [portGone]) (fun a => ?_) rfl h
    simp only [portGone, Tab.get_modify]
    split <;> simp [Function.comp_def]

/-- Settles O5: every event keeps the room table and the plan of a repartition in order. -/
theorem stepKeepsRooms : Obligations.StepKeepsRooms :=
  fun _ _ h => rooms_move.hall.kept.step h

/-- The rooms are in order, and so are their leads. -/
def leadRoomsOk (s : State) : Prop :=
  roomsOk s ∧ leadsOk s

theorem leadsOk_of_rooms {s t : State} (hr : t.rooms = s.rooms) (hp : t.ports = s.ports) (h : leadsOk s) : leadsOk t := by
  intro a r ha
  rw [hr] at ha
  rw [hp]
  exact h a r ha

theorem leads_move : MoveCondition leadRoomsOk where
  congr hk h := ⟨hk.roomsOk h.1, hk.leadsOk h.2⟩
  loop s hn ha h := ⟨rooms_move.loop s hn ha h.1, leadsOk_of_rooms (s := s) rfl rfl h.2⟩
  drain uncreated s hn h := ⟨rooms_move.drain uncreated s hn h.1, drainBegunBut_leads uncreated _ h.2⟩
  powerOn levels := ⟨roomsOk_powerOn levels, leadsOk_powerOn levels⟩
  sampled levels s h := ⟨rooms_move.sampled levels s h.1, leadsOk_of_rooms (s := s) rfl rfl h.2⟩
  put s w r hw h := ⟨rooms_move.put s w r hw h.1, leadsOk_of_rooms (s := s) rfl rfl h.2⟩
  partitioned rp s hrp h := ⟨rooms_move.partitioned rp s hrp h.1, leadsOk_partitioned rp h.2⟩
  joins p s h := by
    refine ⟨rooms_move.joins p s h.1, leadsOk_of_elected (p := p) h.1.1 rfl (fun r => rfl) (fun q hq => ?_) h.2⟩
    simp [leadElected, portAttached, Tab.get_modify_ne _ _ hq.symm]
  gone p r s hr h := by
    refine ⟨rooms_move.gone p r s hr h.1, leadsOk_of_elected (p := p) h.1.1 rfl (fun r' => ?_) (fun q hq => ?_) h.2⟩
    · refine List.find?_congr fun g _ => ?_
      by_cases hg : p = g
      · subst hg; simp [portGone, hr]
      · have hg' : (g != p) = true := bne_iff_ne.mpr fun e => hg e.symm
        simp [portGone, Tab.get_set_ne _ _ hg, hg']
    · simp [portGone, Tab.get_set_ne _ _ hq.symm]

/-- Settles O6: with the rooms, every event keeps their leads in order. -/
theorem stepKeepsLeads : Obligations.StepKeepsLeads :=
  fun _ _ hr hl ht => (leads_move.hall.kept.step ⟨hr, hl⟩ ht).2

/-! ### Wall records -/

/-- A wall record is in order, given which ports are ATTACHED (R3, R5, R9, R13). -/
def recordOk (attached : Port → Bool) (w : WallId) (r : Wall) : Prop :=
  r.effective = effectiveFor r.mode r.sensed ∧
    (r.changeTime.isSome = true ↔ r.raw ≠ r.sensed) ∧
    ∀ c, r.consent = some c → adjacentTo w c.requester = true ∧ r.mode ≠ .forcedOpen ∧
      ∀ g, adjacentTo w g = true → attached g = true

theorem wallsOk_iff {s : State} : wallsOk s ↔ ∀ w, recordOk (isAttached s) w (s.walls.get w) :=
  .rfl

/-- A wall record stays in order where the ports of its consent record stay ATTACHED. -/
theorem recordOk.mono {attached attached' : Port → Bool} {w : WallId} {r : Wall} (h : recordOk attached w r)
    (ha : ∀ g, adjacentTo w g = true → attached g = true → attached' g = true) : recordOk attached' w r := by
  obtain ⟨he, hd, hc⟩ := h
  refine ⟨he, hd, fun c hr => ?_⟩
  obtain ⟨hadj, hm, hatt⟩ := hc c hr
  exact ⟨hadj, hm, fun g hg => ha g hg (hatt g hg)⟩

/-- Without its consent record a wall record is in order whichever ports are ATTACHED. -/
theorem recordOk.cleared {attached attached' : Port → Bool} {w : WallId} {r : Wall} (h : recordOk attached w r) :
    recordOk attached' w { r with consent := none } :=
  ⟨h.1, h.2.1, nofun⟩

theorem recordOk.committed {attached : Port → Bool} {w : WallId} {r : Wall} (h : recordOk attached w r) (c : WallState) :
    recordOk attached w { r with committed := c } :=
  h

theorem recordOk.sampled {attached : Port → Bool} {w : WallId} {r : Wall} (h : recordOk attached w r) (now : Clock)
    (level : WallState) : recordOk attached w (sampleWall now level r) := by
  unfold sampleWall
  split
  · exact h
  · refine ⟨h.1, ?_, h.2.2⟩
    dsimp only
    split <;> simp [*]

theorem adjacentTo_peer {w : WallId} {p g : Segment} (hp : adjacentTo w p = true) (hg : adjacentTo w g = true) :
    g = p ∨ g = otherSide w p := by
  rw [adjacentTo_iff] at hp hg
  unfold otherSide
  split
  · next h => exact hg.imp (fun e => e.trans h) id
  · next h => exact hg.symm.imp (fun e => e.trans (hp.resolve_left fun e' => h e'.symm).symm) id

/-- Every record that a wall is given is in order. -/
theorem WallWritten.recordOk {s : State} {w : WallId} {r : Wall} (hw : WallWritten s w r)
    (h : recordOk (isAttached s) w (s.walls.get w)) : recordOk (isAttached s) w r := by
  obtain ⟨he, hd, hc⟩ := h
  cases hw with
  | debounced => exact ⟨rfl, by simp [Wall.settled], hc⟩
  | cleared => exact ⟨he, hd, nofun⟩
  | modeSet mode => exact ⟨rfl, hd, nofun⟩
  | requested p expiry adjacent attached peer =>
    have both : (s.walls.get w).mode ≠ .forcedOpen ∧ ∀ g, adjacentTo w g = true → isAttached s g = true := by
      rcases peer with ⟨hm, hpeer⟩ | hsome
      · refine ⟨hm, fun g hg => ?_⟩
        rcases adjacentTo_peer adjacent hg with rfl | rfl
        exacts [attached, hpeer]
      · obtain ⟨c, hcs⟩ := Option.isSome_iff_exists.mp hsome
        exact (hc c hcs).2
    refine ⟨he, hd, fun c hcs => ?_⟩
    obtain rfl := Option.some.inj hcs
    exact ⟨adjacent, both⟩

theorem walls_move : MoveCondition wallsOk where
  congr {s t} hk h w := by
    have := h w
    rw [wallOk] at this ⊢
    simpa only [hk.walls, hk.attached] using this
  loop s _ _ h w := by
    have committed := recordOk.committed (h w) (s.walls.get w).effective
    simpa [wallOk, recordOk, commitLoop, isAttached] using committed
  drain _ _ _ h := h
  powerOn := wallsOk_powerOn
  sampled levels s h w := by
    have sampled := recordOk.sampled (h w) s.clock (levels.get w)
    simpa [wallOk, recordOk, sampleWalls, isAttached] using sampled
  put s w r hw h x := by
    by_cases hx : w = x
    · subst hx
      change recordOk (isAttached s) w ((s.putWall w r).walls.get w)
      rw [putWall_self]
      exact hw.recordOk (h w)
    · have := h x
      rwa [wallOk, putWall_ne s r hx]
  partitioned rp s _ h w := by
    have committed := recordOk.committed (h w) (rp.target.get w)
    simpa [wallOk, recordOk, partitioned, isAttached] using committed
  joins p s h w := by
    refine recordOk.mono (attached' := isAttached (portAttached p s)) (h w) fun g _ hg => ?_
    by_cases hpg : p = g
    · subst hpg; simp [portAttached, isAttached]
    · simpa [portAttached, isAttached, Tab.get_modify_ne _ _ hpg] using hg
  gone p r s _ h w := by
    suffices recordOk (isAttached (portGone p r s)) w
        { s.walls.get w with consent := if adjacentTo w p then none else (s.walls.get w).consent } by
      simpa [wallOk, recordOk, portGone, isAttached] using this
    by_cases hp : adjacentTo w p = true
    · rw [if_pos hp]
      exact recordOk.cleared (h w)
    · rw [if_neg hp]
      refine recordOk.mono (h w) fun g hg hatt => ?_
      have hpg : p ≠ g := fun e => hp (e ▸ hg)
      simpa [portGone, isAttached, Tab.get_set_ne _ _ hpg] using hatt

/-- Settles O7: every event keeps wall records in order. -/
theorem stepKeepsWalls : Obligations.StepKeepsWalls :=
  fun _ _ h => walls_move.hall.kept.step h

end Sys2Proof.Machine
end

section
/-! Grants, the removal of requests and auto-advance, each as the state it leaves with the notices it sends (R75, R77,
R79), and the commands that store settings (R20, R22, R90). -/

namespace Sys2Proof.Machine
open Sys2Proof.Safety

/-! ### Tables -/

theorem Tab.mem_items {n : Nat} {α : Type} {t : Tab n α} {x : α} : x ∈ t.items ↔ ∃ i, t.get i = x := by
  rw [List.mem_iff_get]
  constructor
  · rintro ⟨i, rfl⟩
    exact ⟨i.cast t.length_eq, rfl⟩
  · rintro ⟨i, rfl⟩
    exact ⟨_, rfl⟩

theorem Tab.modify_of_fixed {n : Nat} {α : Type} {t : Tab n α} {i : Fin n} {f : α → α} (h : f (t.get i) = t.get i) :
    t.modify i f = t := by
  rw [Tab.modify, h, Tab.set_get_self]

/-! ### Grants (R50, R75, R146) -/

theorem claimChannel_eq (i : SeatId) (s : State) :
    claimChannel i s = s.modTrunk (segmentOf i) fun r => { r with channels := claimed r.channels i } := by
  refine congrArg (s.modTrunk (segmentOf i)) (funext fun r => ?_)
  have free : lowestFree r.channels = (List.finRange 16).find? fun c => (r.channels.get c).isNone :=
    congrFun (congrArg List.find? (funext fun c => by cases r.channels.get c <;> rfl)) _
  cases hc : channelIn r.channels i with
  | some c =>
    have held : some i ∈ r.channels.items := Tab.mem_items.mpr ⟨c, by simpa using List.find?_some hc⟩
    simp [claimed, held]
  | none =>
    have held : some i ∉ r.channels.items := fun h => by
      obtain ⟨c, hci⟩ := Tab.mem_items.mp h
      exact List.find?_eq_none.mp hc c (List.mem_finRange c) (by simp [hci])
    simp only [claimed, free, List.contains_iff_mem, held, if_false]
    cases (List.finRange 16).find? fun c => (r.channels.get c).isNone <;> rfl

theorem takeRequest_eq (a : Segment) (i : SeatId) (s : State) :
    takeRequest a i s =
      (s.modFloor a fun f => { f with queue := f.queue.eraseP fun q => q.seat == i }).setPoolFree
        (s.poolFree + if ((s.floors.get a).queue.any fun q => q.seat == i) then 1 else 0) := by
  unfold takeRequest hasRequest floorOf
  by_cases h : ((s.floors.get a).queue.any fun q => q.seat == i) = true
  · rw [if_pos h, if_pos h]
  · rw [if_neg h, if_neg h]
    have kept : (s.floors.get a).queue.eraseP (fun q => q.seat == i) = (s.floors.get a).queue :=
      List.eraseP_of_forall_not fun q hq hqi => h (List.any_eq_true.mpr ⟨q, hq, hqi⟩)
    have same : s.floors.modify a (fun f => { f with queue := f.queue.eraseP fun q => q.seat == i }) = s.floors :=
      Tab.modify_of_fixed (by rw [kept])
    unfold State.modFloor
    rw [same]
    rfl

/-- A grant, with the rooms as they are (R75). -/
theorem grantSeat_eq (a : Segment) (i : SeatId) (reason : FloorReason) (byPriority : Bool) (s : State) :
    grantSeat .current a i reason byPriority s =
      sendAll [floorSent s a i .granted reason] (afterGrant s a i byPriority) := by
  have entry : newSpeaker s a i byPriority =
      { seat := i, grantTime := s.clock, state := .opened, chairAtGrant := (s.seats.get i).chair
        byPriority := byPriority
        deadline :=
          if (s.seats.get i).chair = true ∨ (s.profiles.get a).speechLimit = 0 then none
          else some (s.clock + BitVec.ofNat 32 (1000 * (s.profiles.get a).speechLimit))
        remaining := none, level := 0, gain := 0 } := by
    simp [newSpeaker, profileOf]
  have floors : (s.floors.modify a fun f => { f with queue := f.queue.eraseP fun q => q.seat == i }).modify a
      (fun f => { f with speakers := insertBy (speakerBefore s.clock) (newSpeaker s a i byPriority) f.speakers }) =
        (afterGrant s a i byPriority).floors := by
    rw [entry]
    exact Tab.ext_get fun b => by
      by_cases h : a = b
      · subst h; simp [afterGrant]
      · simp [afterGrant, Tab.get_modify_ne _ _ h, Tab.get_set_ne _ _ h]
  have state : claimChannel i (endRelease a i ((takeRequest a i s).modFloor a fun f =>
      { f with speakers := insertBy (speakerBefore s.clock) (newSpeaker s a i byPriority) f.speakers })) =
        afterGrant s a i byPriority := by
    rw [claimChannel_eq, takeRequest_eq]
    calc _ = { afterGrant s a i byPriority with
            floors := (s.floors.modify a fun f => { f with queue := f.queue.eraseP fun q => q.seat == i }).modify a
              fun f => { f with speakers := insertBy (speakerBefore s.clock) (newSpeaker s a i byPriority) f.speakers } } :=
          rfl
      _ = _ := by rw [floors]
  exact congrArg (floorNotice a i .granted reason) state

theorem afterGrant_sendAll (sent : List Sent) (s : State) (a : Segment) (i : SeatId) (byPriority : Bool) :
    afterGrant (sendAll sent s) a i byPriority = sendAll sent (afterGrant s a i byPriority) :=
  eq_sendAll_of_frame (s := s) sent rfl rfl (by rw [sendAll_frame]; rfl)

theorem floorSent_sendAll (sent : List Sent) (s : State) : floorSent (sendAll sent s) = floorSent s := by
  rw [sendAll_frame]; rfl

/-! ### Auto-advance (R79) -/

section
variable {s : State} {a : Segment} {q : Request} {rest : List Request} (hq : (s.floors.get a).queue = q :: rest)
include hq

theorem queue_afterGrant_head (byPriority : Bool) :
    ((afterGrant s a q.seat byPriority).floors.get a).queue = rest := by
  simp [afterGrant, hq]

theorem heads_succ (n : Nat) : heads s a (n + 1) = q.seat :: heads (afterGrant s a q.seat false) a n := by
  simp [heads, hq, queue_afterGrant_head hq]

theorem afterHeads_succ (n : Nat) : afterHeads s a (n + 1) = afterHeads (afterGrant s a q.seat false) a n := by
  rw [afterHeads, heads_succ hq]
  rfl

theorem headsSent_succ (n : Nat) :
    headsSent s a (n + 1) =
      floorSent s a q.seat .granted .none :: headsSent (afterGrant s a q.seat false) a n := by
  rw [headsSent, heads_succ hq]
  rfl

end

/-- Auto-advance grants heads of the queue as long as the tests hold (R79). -/
theorem advance_eq (a : Segment) (fuel : Nat) (s : State) (sent : List Sent)
    (hfuel : (s.floors.get a).queue.length ≤ fuel) :
    ∃ n, advances s a (!isDraining s a) n ∧
      advance .current fuel a (sendAll sent s) = sendAll (sent ++ headsSent s a n) (afterHeads s a n) := by
  have stay {s : State} {sent : List Sent} {u : State} (h : ¬((!isDraining s a) = true ∧ mayGrant s a))
      (hu : u = sendAll sent s) : ∃ n, advances s a (!isDraining s a) n ∧
        u = sendAll (sent ++ headsSent s a n) (afterHeads s a n) :=
    ⟨0, by simpa [advances] using h, by simpa using hu⟩
  have test (s : State) (sent : List Sent) : mayAdvance (sendAll sent s) a = mayAdvance s a := by
    rw [sendAll_frame]; rfl
  have floor (s : State) (sent : List Sent) : floorOf (sendAll sent s) a = s.floors.get a := by
    rw [sendAll_frame]; rfl
  induction fuel generalizing s sent with
  | zero =>
    have empty : (s.floors.get a).queue = [] := List.length_eq_zero_iff.mp (Nat.le_zero.mp hfuel)
    exact stay (fun h => h.2.2.1 empty) rfl
  | succ fuel ih =>
    cases hq : (s.floors.get a).queue with
    | nil => exact stay (fun h => h.2.2.1 hq) (by rw [advance, floor, hq])
    | cons q rest =>
      have may := mayAdvance_iff (s := s) (a := a) (by simp [hq])
      by_cases hmay : mayAdvance s a = true
      · obtain ⟨n, ⟨hn, hbefore, hend⟩, hadv⟩ := ih (afterGrant s a q.seat false)
          (sent ++ [floorSent s a q.seat .granted .none])
          (by rw [queue_afterGrant_head hq]; simpa [hq] using hfuel)
        refine ⟨n + 1, ⟨?_, fun k hk => ?_, ?_⟩, ?_⟩
        · rw [queue_afterGrant_head hq] at hn
          simpa [hq] using hn
        · cases k with
          | zero => rw [afterHeads_zero]; exact may.mp hmay
          | succ k => rw [afterHeads_succ hq]; exact hbefore k (Nat.lt_of_succ_lt_succ hk)
        · rw [afterHeads_succ hq]; exact hend
        · rw [advance, floor, hq]
          simp only [test, hmay, if_true]
          rw [grantSeat_eq, afterGrant_sendAll, floorSent_sendAll, ← sendAll_append, hadv, headsSent_succ hq,
            afterHeads_succ hq, List.append_assoc, List.singleton_append]
      · refine stay (mt may.mpr hmay) ?_
        rw [advance, floor, hq]
        simp only [test, hmay, Bool.false_eq_true, if_false]

/-! ### The removal of requests (R77) -/

theorem removeRequest_eq {a : Segment} {i : SeatId} {s : State} (reason : FloorReason)
    (h : hasRequest (s.floors.get a) i = true) :
    removeRequest a i reason s =
      sendAll [floorSent s a i .dequeued reason] (afterDequeue s a i (marksRefusal reason)) := by
  have taken : takeRequest a i s =
      { s with
        floors := s.floors.modify a fun f => { f with queue := f.queue.eraseP fun q => q.seat == i }
        poolFree := s.poolFree + 1 } := by
    rw [takeRequest, floorOf, if_pos h]; rfl
  rw [removeRequest, floorOf, if_pos h, taken]
  cases hm : marksRefusal reason with
  | true => exact eq_sendAll_of_frame (s := s) _ rfl rfl rfl
  | false =>
    have same : (s.trunks.modify (segmentOf i) fun r => { r with refusals := r.refusals }) = s.trunks :=
      Tab.modify_of_fixed rfl
    refine eq_sendAll_of_frame (s := s) _ rfl rfl ?_
    simp only [afterDequeue, Bool.false_eq_true, if_false, same]
    rfl

theorem afterDequeue_sendAll (sent : List Sent) (s : State) (a : Segment) (i : SeatId) (mark : Bool) :
    afterDequeue (sendAll sent s) a i mark = sendAll sent (afterDequeue s a i mark) :=
  eq_sendAll_of_frame (s := s) sent rfl rfl (by rw [sendAll_frame]; rfl)

/-- A whole queue is removed in queue order: each request is the head when its turn comes. -/
theorem removeRequests_queue (a : Segment) (reason : FloorReason) (l : List Request) (s : State) (sent : List Sent)
    (hl : (s.floors.get a).queue = l) :
    removeRequests a (l.map Request.seat) reason (sendAll sent s) =
      sendAll (sent ++ l.map fun q => floorSent s a q.seat .dequeued reason)
        (l.foldl (fun t q => afterDequeue t a q.seat (marksRefusal reason)) s) := by
  induction l generalizing s sent with
  | nil => simp [removeRequests]
  | cons q rest ih =>
    have queued : hasRequest ((sendAll sent s).floors.get a) q.seat = true := by
      rw [sendAll_frame]; simp [hasRequest, hl]
    have left : ((afterDequeue s a q.seat (marksRefusal reason)).floors.get a).queue = rest := by
      simp [afterDequeue, hl]
    have first : removeRequest a q.seat reason (sendAll sent s) =
        sendAll (sent ++ [floorSent s a q.seat .dequeued reason]) (afterDequeue s a q.seat (marksRefusal reason)) := by
      rw [removeRequest_eq reason queued, afterDequeue_sendAll, floorSent_sendAll, sendAll_append]
    calc removeRequests a ((q :: rest).map Request.seat) reason (sendAll sent s)
        = removeRequests a (rest.map Request.seat) reason (removeRequest a q.seat reason (sendAll sent s)) := rfl
      _ = _ := by
        rw [first, ih _ _ left, List.append_assoc]
        rfl

/-! ### Settings and profiles (R20, R22, R90) -/

theorem clamp_zero (hi n : Nat) : clamp 0 hi n = min hi n := Nat.zero_max _

theorem storedProfile_eq (mode : FloorMode) (cap reqs : Byte) (speech low gain : Half) :
    storedProfile mode cap reqs speech low gain =
      { floorMode := mode
        maxOpen := max 1 (min 8 cap.toNat)
        requestCap := max 1 (min 96 reqs.toNat)
        speechLimit := min 3600 speech.toNat
        levelFloor := max 16 (min 4096 low.toNat)
        roomGain := min 4096 gain.toNat } := by
  simp only [storedProfile, clamp_zero]
  rfl

theorem adjustedIf_eq {changed : Bool} {p : Prop} [Decidable p] (h : changed = false ↔ p) :
    adjustedIf changed = if p then ReplyCode.done else .adjusted := by
  cases changed
  · rw [if_pos (h.mp rfl)]; rfl
  · rw [if_neg (mt h.mpr nofun)]; rfl

theorem floorModeArg_none {b : Byte} (h : 2 < b.toNat) : floorModeArg b = none := by
  have h0 : b ≠ 0 := fun hb => by simp [hb] at h
  have h1 : b ≠ 1 := fun hb => by simp [hb] at h
  have h2 : b ≠ 2 := fun hb => by simp [hb] at h
  rw [floorModeArg, if_neg h0, if_neg h1, if_neg h2]

theorem floorModeArg_isSome {b : Byte} (h : b.toNat ≤ 2) : ∃ m, floorModeArg b = some m := by
  have cases : b = 0 ∨ b = 1 ∨ b = 2 := by bv_omega
  rcases cases with rfl | rfl | rfl
  exacts [⟨_, rfl⟩, ⟨_, rfl⟩, ⟨_, rfl⟩]

theorem isLead_eq_false {s : State} {p : Port} (h : leadOf s (roomOf s p) ≠ some p) : isLead s p = false := by
  simpa [isLead] using h

section
variable {s : State} {p : Port}

theorem ruleSetProfile_notLead (h : leadOf s (roomOf s p) ≠ some p) (mode cap reqs : Byte) (speech low gain : Half) :
    ruleSetProfile p mode cap reqs speech low gain s = refuse .notLead s := by
  simp [ruleSetProfile, isLead_eq_false h]

variable (hlead : leadOf s (roomOf s p) = some p)
include hlead

theorem ruleSetProfile_badMode {mode : Byte} (h : 2 < mode.toNat) (cap reqs : Byte) (speech low gain : Half) :
    ruleSetProfile p mode cap reqs speech low gain s = refuse .badArgument s := by
  simp [ruleSetProfile, isLead, hlead, floorModeArg_none h]

theorem ruleSetProfile_busy {mode : Byte} (h : mode.toNat ≤ 2) (hd : isDraining s (roomOf s p) = true)
    (cap reqs : Byte) (speech low gain : Half) :
    ruleSetProfile p mode cap reqs speech low gain s = refuse .busyRepartition s := by
  obtain ⟨m, hm⟩ := floorModeArg_isSome h
  simp [ruleSetProfile, isLead, hlead, hm, hd]

theorem ruleSetProfile_stored {mode : Byte} {m : FloorMode} (h : floorModeArg mode = some m)
    (hd : isDraining s (roomOf s p) = false) (cap reqs : Byte) (speech low gain : Half) :
    ruleSetProfile p mode cap reqs speech low gain s =
      let x := storedProfile m cap reqs speech low gain
      { code :=
          if x.maxOpen = cap.toNat ∧ x.requestCap = reqs.toNat ∧ x.speechLimit = speech.toNat ∧
              x.levelFloor = low.toNat ∧ x.roomGain = gain.toNat then
            ReplyCode.done
          else .adjusted
        results := profileBytes x
        state := applyProfile (roomOf s p) x s } := by
  simp only [ruleSetProfile, isLead, hlead, h, hd, beq_self_eq_true, Bool.not_true, Bool.false_eq_true, if_false]
  exact congrArg (fun c => Answer.mk c _ _) (adjustedIf_eq (by simp [and_assoc]))

end

theorem ruleSetHall_eq (settle start hold : Half) (s : State) :
    ruleSetHall settle start hold s =
      let h : HallSettings :=
        { wallSettle := max 50 (min 2000 settle.toNat)
          trunkStart := max 100 (min 5000 start.toNat)
          trunkHold := max 50 (min 2000 hold.toNat) }
      { code :=
          if h.wallSettle = settle.toNat ∧ h.trunkStart = start.toNat ∧ h.trunkHold = hold.toNat then ReplyCode.done
          else .adjusted
        results := natHalf h.wallSettle ++ natHalf h.trunkStart ++ natHalf h.trunkHold
        state := sendAll [(allSegments, .hall h)] { s with hall := h } } := by
  have code (a b c x y z : Nat) : adjustedIf (a != x || b != y || c != z) =
      if a = x ∧ b = y ∧ c = z then ReplyCode.done else .adjusted :=
    adjustedIf_eq (by simp [and_assoc])
  simp only [ruleSetHall, code]
  rfl

/-- Settles O44: the checks in their order; then what each mode does to the floor. -/
theorem settingsStored : Obligations.SettingsStored := by
  constructor
  · rintro p tag settle start hold s ⟨hheld, hplace, hatt⟩
    rw [show exec (.setHall p tag settle start hold) s = finish (serveSetHall p tag settle start hold s) from
      carryOut_eq hheld _]
    exact finish_serve hplace (.inr hatt) (ruleSetHall_eq settle start hold s)
  intro p a tag mode cap reqs speech low gain s
  have exec_eq (mode : Byte) (hheld : s.held = false) : exec (.setProfile p tag mode cap reqs speech low gain) s =
      finish (serveSetProfile p tag mode cap reqs speech low gain s) := carryOut_eq hheld _
  have refused {code : ReplyCode} (hs : served s p)
      (h : ruleSetProfile p mode cap reqs speech low gain s = refuse code s) :
      exec (.setProfile p tag mode cap reqs speech low gain) s = .next (answered s p tag code []) :=
    (exec_eq mode hs.1).trans (finish_serve_same hs.2.1 (.inr hs.2.2) h)
  refine ⟨fun hs h => refused hs (ruleSetProfile_notLead h ..), fun hs hl h => refused hs (ruleSetProfile_badMode hl h ..),
    fun hs hl h hd => refused hs (ruleSetProfile_busy hl h hd ..), ?_⟩
  rintro ⟨⟨hheld, hplace, hatt⟩, rfl, hlead, hsteady⟩
  have rule {mode : Byte} {m : FloorMode} (h : floorModeArg mode = some m) :=
    ruleSetProfile_stored hlead h hsteady cap reqs speech low gain
  simp only [storedProfile_eq] at rule
  intro f stored x code results base
  have taken {mode : Byte} {m : FloorMode} {sent : List Sent} {t : State} (h : floorModeArg mode = some m)
      (ht : applyProfile (roomOf s p) (stored m) s = sendAll sent t) :
      exec (.setProfile p tag mode cap reqs speech low gain) s = .next (replied t sent p tag code (results m)) := by
    rw [exec_eq mode hheld]
    exact finish_serve hplace (.inr hatt) ((rule h).trans (by rw [ht]))
  refine ⟨taken (m := .chair) (sent := []) rfl rfl, fun hdirect => taken (m := .direct) (sent := []) rfl ?_,
    fun hdirect => taken (m := .direct) rfl ?_, ?_⟩
  · simp [applyProfile, profileOf, hdirect, stored]
    rfl
  · have hwas : ((profileOf s (roomOf s p)).floorMode == .direct) = false := by simpa [profileOf] using hdirect
    simp only [applyProfile, stored, hwas]
    exact removeRequests_queue (roomOf s p) .modeDirect f.queue (base .direct) [] rfl
  · obtain ⟨n, hn, hadv⟩ := advance_eq (roomOf s p) _ (base .autoQueue) [] le_rfl
    exact ⟨n, hn, taken (m := .autoQueue) rfl hadv⟩

end Sys2Proof.Machine
end

section
/-! The floor controller works inside its room: an operation on the floor of one room changes that floor, and the release
sets and trunks of the segments that the room's entries come from; and it sends none of the notices of the partition
controller (R70, R92, R159, R160). -/

namespace Sys2Proof.Machine
open Sys2Proof.Safety

/-! ### Notices of the other blocks -/

/-- From `s` to `t` the ports take notices alone, none of them a WALL or ROOM notice. -/
def Notes (s t : State) : Prop :=
  t.clock = s.clock ∧ ∃ sent : List Sent,
    (∀ n ∈ sent, isWallNotice n.2 = false ∧ isRoomNotice n.2 = false) ∧ t.ports = (sendAll sent s).ports

theorem Notes.of_same {s t : State} (hc : t.clock = s.clock) (hp : t.ports = s.ports) : Notes s t :=
  ⟨hc, [], by simp, hp⟩

theorem Notes.trans {s t u : State} (h : Notes s t) (h' : Notes t u) : Notes s u := by
  obtain ⟨hc, sent, hsent, hp⟩ := h
  obtain ⟨hc', sent', hsent', hp'⟩ := h'
  refine ⟨hc'.trans hc, sent ++ sent', fun n hn => ?_, ?_⟩
  · rcases List.mem_append.mp hn with hn | hn
    exacts [hsent n hn, hsent' n hn]
  · rw [hp', sendAll_append]
    exact sendAll_ports_congr sent' (by rw [sendAll_clock, hc]) hp

theorem Notes.notify (ports : List Port) {body : NoticeBody} (hw : isWallNotice body = false)
    (hr : isRoomNotice body = false) (s : State) : Notes s (notify ports body s) :=
  ⟨rfl, [(ports, body)], by simp [hw, hr], rfl⟩

/-! ### Entries at home -/

/-- The entries of a floor belong to seats of the segments `Z`. -/
def FloorWithin (Z : List Segment) (f : Floor) : Prop :=
  (∀ e ∈ f.speakers, segmentOf e.seat ∈ Z) ∧ ∀ q ∈ f.queue, segmentOf q.seat ∈ Z

/-- Release entries belong to seats of the segments `Z`. -/
def ReleaseWithin (Z : List Segment) (l : List Release) : Prop :=
  ∀ e ∈ l, segmentOf e.seat ∈ Z

theorem FloorWithin.of_subset {Z : List Segment} {f g : Floor} (hs : ∀ e ∈ g.speakers, e ∈ f.speakers)
    (hq : ∀ q ∈ g.queue, q ∈ f.queue) (h : FloorWithin Z f) : FloorWithin Z g :=
  ⟨fun e he => h.1 e (hs e he), fun q hm => h.2 q (hq q hm)⟩

/-- The room with anchor `a` lies in the segments `Z`, and so do the release sets that an operation on its floor acts on. -/
structure InZone (a : Segment) (Z : List Segment) (sets : Sets) (s : State) : Prop where
  anchor : a ∈ Z
  members : ∀ g ∈ membersOf s a, g ∈ Z
  releases : sets = .current → ReleaseWithin Z (s.mixes.get a).release
  origins : ∀ room, sets = .before room → ∀ g ∈ Z, room g ∈ Z

/-- And the entries of its floor belong to seats of `Z`. -/
structure AtHome (a : Segment) (Z : List Segment) (sets : Sets) (s : State) : Prop extends InZone a Z sets s where
  floor : FloorWithin Z (s.floors.get a)

/-- What an operation on the floor of the room with anchor `a` leaves alone, where the segments `Z` hold its entries. -/
structure Stays (a : Segment) (Z : List Segment) (sets : Sets) (s t : State) : Prop where
  rooms : t.rooms = s.rooms
  floors : ∀ b, b ≠ a → t.floors.get b = s.floors.get b
  mixes : ∀ b, b ∉ Z → t.mixes.get b = s.mixes.get b
  others : sets = .current → ∀ b, b ≠ a → t.mixes.get b = s.mixes.get b
  trunks : ∀ k, k ∉ Z → t.trunks.get k = s.trunks.get k
  notes : Notes s t

/-- An operation on the floor of the room with anchor `a` keeps its entries at home and leaves the rest alone. -/
structure FloorMove (a : Segment) (Z : List Segment) (sets : Sets) (s t : State) : Prop where
  run : AtHome a Z sets s → AtHome a Z sets t ∧ Stays a Z sets s t

section
variable {a : Segment} {Z : List Segment} {sets : Sets}

theorem Stays.refl (s : State) : Stays a Z sets s s :=
  ⟨rfl, fun _ _ => rfl, fun _ _ => rfl, fun _ _ _ => rfl, fun _ _ => rfl, .of_same rfl rfl⟩

theorem Stays.trans {s t u : State} (h : Stays a Z sets s t) (h' : Stays a Z sets t u) : Stays a Z sets s u where
  rooms := h'.rooms.trans h.rooms
  floors b hb := (h'.floors b hb).trans (h.floors b hb)
  mixes b hb := (h'.mixes b hb).trans (h.mixes b hb)
  others hs b hb := (h'.others hs b hb).trans (h.others hs b hb)
  trunks k hk := (h'.trunks k hk).trans (h.trunks k hk)
  notes := h.notes.trans h'.notes

theorem FloorMove.refl (s : State) : FloorMove a Z sets s s := ⟨fun h => ⟨h, .refl s⟩⟩

theorem FloorMove.trans {s t u : State} (h : FloorMove a Z sets s t) (h' : FloorMove a Z sets t u) :
    FloorMove a Z sets s u where
  run hs :=
    have ⟨ht, hst⟩ := h.run hs
    have ⟨hu, htu⟩ := h'.run ht
    ⟨hu, hst.trans htu⟩

/-- That the entries are at home may be used to show that an operation keeps them there. -/
theorem FloorMove.of_home {s t : State} (h : AtHome a Z sets s → FloorMove a Z sets s t) : FloorMove a Z sets s t :=
  ⟨fun hs => (h hs).run hs⟩

theorem FloorMove.foldl {α : Type} {f : State → α → State} (l : List α)
    (h : ∀ s, ∀ x ∈ l, FloorMove a Z sets s (f s x)) (s : State) : FloorMove a Z sets s (l.foldl f s) := by
  induction l generalizing s with
  | nil => exact .refl s
  | cons x l ih =>
    exact (h s x List.mem_cons_self).trans (ih (fun s y hy => h s y (List.mem_cons_of_mem x hy)) _)

/-- An operation on release sets and channels, which does not ask where the entries of the floor are at home. -/
structure ReleaseMove (a : Segment) (Z : List Segment) (sets : Sets) (s t : State) : Prop where
  run : InZone a Z sets s → InZone a Z sets t ∧ Stays a Z sets s t
  floors : t.floors = s.floors

theorem ReleaseMove.floorMove {s t : State} (h : ReleaseMove a Z sets s t) : FloorMove a Z sets s t :=
  ⟨fun hs => ⟨⟨(h.run hs.toInZone).1, h.floors ▸ hs.floor⟩, (h.run hs.toInZone).2⟩⟩

theorem ReleaseMove.trans {s t u : State} (h : ReleaseMove a Z sets s t) (h' : ReleaseMove a Z sets t u) :
    ReleaseMove a Z sets s u where
  run hs :=
    have ⟨ht, hst⟩ := h.run hs
    have ⟨hu, htu⟩ := h'.run ht
    ⟨hu, hst.trans htu⟩
  floors := h'.floors.trans h.floors

theorem ReleaseMove.foldl {α : Type} {f : State → α → State} (l : List α)
    (h : ∀ s, ∀ x ∈ l, ReleaseMove a Z sets s (f s x)) (s : State) : ReleaseMove a Z sets s (l.foldl f s) := by
  induction l generalizing s with
  | nil => exact ⟨fun h => ⟨h, .refl s⟩, rfl⟩
  | cons x l ih =>
    exact (h s x List.mem_cons_self).trans (ih (fun s y hy => h s y (List.mem_cons_of_mem x hy)) _)

/-! ### The operations of the state -/

/-- What touches neither floors, release sets, trunks nor rooms. -/
theorem floorMove_of_same {s t : State} (hr : t.rooms = s.rooms) (hf : t.floors = s.floors) (hm : t.mixes = s.mixes)
    (hk : t.trunks = s.trunks) (hn : Notes s t) : FloorMove a Z sets s t where
  run h :=
    have hmembers : membersOf t a = membersOf s a := by rw [membersOf, hr, membersOf]
  ⟨⟨⟨h.anchor, hmembers ▸ h.members, hm ▸ h.releases, h.origins⟩, hf ▸ h.floor⟩,
    hr, fun _ _ => by rw [hf], fun _ _ => by rw [hm], fun _ _ _ => by rw [hm], fun _ _ => by rw [hk], hn⟩

theorem setPoolFree_floorMove (n : Nat) (s : State) : FloorMove a Z sets s (s.setPoolFree n) :=
  floorMove_of_same rfl rfl rfl rfl (.of_same rfl rfl)

theorem setStampCounter_floorMove (c : Clock) (s : State) : FloorMove a Z sets s (s.setStampCounter c) :=
  floorMove_of_same rfl rfl rfl rfl (.of_same rfl rfl)

theorem setReleaseCounter_floorMove (c : Clock) (s : State) : FloorMove a Z sets s (s.setReleaseCounter c) :=
  floorMove_of_same rfl rfl rfl rfl (.of_same rfl rfl)

theorem modSeat_floorMove (i : SeatId) (f : Seat → Seat) (s : State) : FloorMove a Z sets s (s.modSeat i f) :=
  floorMove_of_same rfl rfl rfl rfl (.of_same rfl rfl)

theorem notify_floorMove (ports : List Port) {body : NoticeBody} (hw : isWallNotice body = false)
    (hr : isRoomNotice body = false) (s : State) : FloorMove a Z sets s (notify ports body s) :=
  floorMove_of_same rfl rfl rfl rfl (.notify ports hw hr s)

theorem floorNotice_floorMove (i : SeatId) (change : FloorChange) (reason : FloorReason) (s : State) :
    FloorMove a Z sets s (floorNotice a i change reason s) :=
  notify_floorMove _ rfl rfl s

theorem modFloor_floorMove {f : Floor → Floor} {s : State}
    (hf : FloorWithin Z (s.floors.get a) → FloorWithin Z (f (s.floors.get a))) :
    FloorMove a Z sets s (s.modFloor a f) where
  run h :=
  ⟨⟨⟨h.anchor, h.members, h.releases, h.origins⟩, by
      rw [State.modFloor_floors, Tab.get_modify_self]
      exact hf h.floor⟩,
    rfl, fun _ hb => Tab.get_modify_ne _ _ (Ne.symm hb), fun _ _ => rfl, fun _ _ _ => rfl, fun _ _ => rfl,
    .of_same rfl rfl⟩

theorem modTrunk_releaseMove {k : TrunkId} (hk : k ∈ Z) (f : Trunk → Trunk) (s : State) :
    ReleaseMove a Z sets s (s.modTrunk k f) where
  run h :=
    ⟨⟨h.anchor, h.members, h.releases, h.origins⟩, rfl, fun _ _ => rfl, fun _ _ => rfl, fun _ _ _ => rfl,
      fun _ hj => Tab.get_modify_ne _ _ fun e => hj (e ▸ hk), .of_same rfl rfl⟩
  floors := rfl

theorem modTrunk_floorMove {k : TrunkId} (hk : k ∈ Z) (f : Trunk → Trunk) (s : State) :
    FloorMove a Z sets s (s.modTrunk k f) :=
  (modTrunk_releaseMove hk f s).floorMove

/-- The release set on which an operation in the room with anchor `a` acts for a seat of `Z`. -/
theorem InZone.roomFor_mem {s : State} (h : InZone a Z sets s) {i : SeatId} (hi : segmentOf i ∈ Z) :
    sets.roomFor a i ∈ Z := by
  cases sets with
  | current => exact h.anchor
  | before room => exact h.origins room rfl _ hi

theorem modMix_releaseMove {o : Segment} {f : MixRoom → MixRoom} {s : State} (hz : InZone a Z sets s → o ∈ Z)
    (ho : sets = .current → o = a)
    (hf : sets = .current → ReleaseWithin Z (s.mixes.get a).release → ReleaseWithin Z (f (s.mixes.get a)).release) :
    ReleaseMove a Z sets s (s.modMix o f) where
  run h :=
    ⟨⟨h.anchor, h.members, fun hs => by
          rw [State.modMix_mixes, ho hs, Tab.get_modify_self]
          exact hf hs (h.releases hs), h.origins⟩,
      rfl, fun _ _ => rfl, fun _ hb => Tab.get_modify_ne _ _ fun e => hb (e ▸ hz h),
      fun hs _ hb => Tab.get_modify_ne _ _ fun e => hb (e ▸ ho hs), fun _ _ => rfl, .of_same rfl rfl⟩
  floors := rfl

/-! ### Channels, refusal marks and release sets -/

section
variable {i : SeatId} (hi : segmentOf i ∈ Z)
include hi

theorem claimChannel_floorMove (s : State) : FloorMove a Z sets s (claimChannel i s) :=
  modTrunk_floorMove hi _ s

theorem freeChannel_releaseMove (s : State) : ReleaseMove a Z sets s (freeChannel i s) :=
  modTrunk_releaseMove hi _ s

theorem freeChannel_floorMove (s : State) : FloorMove a Z sets s (freeChannel i s) :=
  modTrunk_floorMove hi _ s

theorem markRefusal_floorMove (s : State) : FloorMove a Z sets s (markRefusal i s) :=
  modTrunk_floorMove hi _ s

theorem endRelease_floorMove (s : State) : FloorMove a Z sets s (endRelease (sets.roomFor a i) i s) :=
  (modMix_releaseMove (fun h => h.roomFor_mem hi) (fun hs => by rw [hs]; rfl)
    fun _ h e he => h e (List.mem_filter.mp he).1).floorMove

end

theorem capRelease_releaseMove (s : State) : ReleaseMove a Z .current s (capRelease a s) := by
  have drop : ReleaseMove a Z .current s (s.modMix a fun m =>
      { m with release := m.release.drop ((s.mixes.get a).release.length - Config.releaseCap) }) :=
    modMix_releaseMove (fun h => h.anchor) (fun _ => rfl) fun _ h e he => h e (List.mem_of_mem_drop he)
  have run (h : InZone a Z .current s) : ReleaseMove a Z .current s (capRelease a s) :=
    drop.trans (.foldl _ (fun u e he => freeChannel_releaseMove (h.releases rfl e (List.mem_of_mem_take he)) u) _)
  have freed (l : List Release) (u : State) : (l.foldl (fun s e => freeChannel e.seat s) u).floors = u.floors := by
    induction l generalizing u with
    | nil => rfl
    | cons e l ih => exact ih _
  exact ⟨fun h => (run h).run h, freed _ _⟩

theorem capPart_floorMove {room : Segment → Segment} {o : Segment} {s : State}
    (ho : InZone a Z (.before room) s → o ∈ Z) : FloorMove a Z (.before room) s (capPart a o s) :=
  .of_home fun h => by
    unfold capPart
    extract_lets part excess
    have home : ∀ i ∈ excess, segmentOf i ∈ Z := fun i hi => by
      obtain ⟨e, he, rfl⟩ := List.mem_map.mp hi
      have := (List.mem_filter.mp (List.mem_of_mem_take he)).2
      exact h.members _ (List.contains_iff_mem.mp this)
    exact (modMix_releaseMove ho (fun hs => nomatch hs) fun hs => nomatch hs).floorMove.trans
      (.foldl _ (fun u i hi => freeChannel_floorMove (home i hi) u) _)

theorem addRelease_floorMove {i : SeatId} (hi : segmentOf i ∈ Z) (gain : Nat) (s : State) :
    FloorMove a Z sets s (addRelease sets a i gain s) := by
  unfold addRelease
  extract_lets o s1
  have grown : FloorMove a Z sets s s1 :=
    (modMix_releaseMove (fun h => h.roomFor_mem hi) (fun hs => by rw [hs]; rfl) fun _ h e he => by
      rcases List.mem_append.mp he with he | he
      · exact h e he
      · rw [List.mem_singleton.mp he]; exact hi).floorMove.trans (setReleaseCounter_floorMove ..)
  cases sets with
  | current => exact grown.trans (capRelease_releaseMove s1).floorMove
  | before room => exact grown.trans (capPart_floorMove fun h => h.roomFor_mem hi)

/-! ### Grants and removals -/

theorem FloorWithin.erase_queue {f : Floor} (h : FloorWithin Z f) (p : Request → Bool) :
    FloorWithin Z { f with queue := f.queue.eraseP p } :=
  ⟨h.1, fun q hq => h.2 q (List.mem_of_mem_eraseP hq)⟩

theorem FloorWithin.append_queue {f : Floor} (h : FloorWithin Z f) {q : Request} (hq : segmentOf q.seat ∈ Z) :
    FloorWithin Z { f with queue := f.queue ++ [q] } :=
  ⟨h.1, fun x hx => by
    rcases List.mem_append.mp hx with hx | hx
    · exact h.2 x hx
    · rw [List.mem_singleton.mp hx]; exact hq⟩

theorem FloorWithin.map_speakers {f : Floor} (h : FloorWithin Z f) {g : Speaker → Speaker} (hg : ∀ e, (g e).seat = e.seat) :
    FloorWithin Z { f with speakers := f.speakers.map g } :=
  ⟨fun x hx => by
    obtain ⟨e, he, rfl⟩ := List.mem_map.mp hx
    rw [hg]
    exact h.1 e he, h.2⟩

theorem takeRequest_floorMove (i : SeatId) (s : State) : FloorMove a Z sets s (takeRequest a i s) := by
  unfold takeRequest
  split
  · exact (modFloor_floorMove fun h => h.erase_queue _).trans (setPoolFree_floorMove ..)
  · exact .refl s

theorem grantSeat_floorMove {i : SeatId} (hi : segmentOf i ∈ Z) (reason : FloorReason) (byPriority : Bool) (s : State) :
    FloorMove a Z sets s (grantSeat sets a i reason byPriority s) := by
  have spoken (u : State) (e : Speaker) (he : e.seat = i) (now : Clock) : FloorMove a Z sets u
      (u.modFloor a fun f => { f with speakers := insertBy (speakerBefore now) e f.speakers }) :=
    modFloor_floorMove fun h => ⟨fun x hx => by
      rcases mem_insertBy.mp hx with rfl | hx
      · rw [he]; exact hi
      · exact h.1 x hx, h.2⟩
  exact ((((takeRequest_floorMove i s).trans (spoken _ (newSpeaker s a i byPriority) rfl _)).trans
    (endRelease_floorMove hi _)).trans (claimChannel_floorMove hi _)).trans (floorNotice_floorMove ..)

theorem segment_of_speakerOf {s : State} {i : SeatId} {e : Speaker} (h : AtHome a Z sets s)
    (he : speakerOf (floorOf s a) i = some e) : segmentOf i ∈ Z := by
  have := h.floor.1 e (List.mem_of_find?_eq_some he)
  rwa [show e.seat = i by simpa using List.find?_some he] at this

theorem removeSpeaker_floorMove (i : SeatId) (reason : FloorReason) (s : State) :
    FloorMove a Z sets s (removeSpeaker sets a i reason s) := by
  unfold removeSpeaker
  split
  · exact .refl s
  · next e he =>
    refine .of_home fun h => ?_
    have hi := segment_of_speakerOf h he
    have taken (u : State) : FloorMove a Z sets s (floorNotice a i .closed reason (s.modFloor a fun f =>
        { f with
          speakers := f.speakers.eraseP fun x => x.seat == i
          holders := f.holders.filter fun h => h.seat != i })) :=
      (modFloor_floorMove (.of_subset (fun _ hx => List.mem_of_mem_eraseP hx) fun _ hq => hq)).trans
        (floorNotice_floorMove ..)
    dsimp only
    split
    · exact (taken s).trans (addRelease_floorMove hi ..)
    · exact (taken s).trans (freeChannel_floorMove hi _)

theorem segment_of_hasRequest {s : State} {i : SeatId} (h : AtHome a Z sets s)
    (hq : hasRequest (floorOf s a) i = true) : segmentOf i ∈ Z := by
  obtain ⟨q, hq, hi⟩ := List.any_eq_true.mp hq
  have := h.floor.2 q hq
  rwa [show q.seat = i by simpa using hi] at this

theorem removeRequest_floorMove (i : SeatId) (reason : FloorReason) (s : State) :
    FloorMove a Z sets s (removeRequest a i reason s) := by
  unfold removeRequest
  split
  · next hq =>
    refine .of_home fun h => ?_
    have taken : FloorMove a Z sets s (floorNotice a i .dequeued reason (takeRequest a i s)) :=
      (takeRequest_floorMove ..).trans (floorNotice_floorMove ..)
    dsimp only
    split
    · exact taken.trans (markRefusal_floorMove (segment_of_hasRequest h hq) _)
    · exact taken
  · exact .refl s

theorem removeRequests_floorMove (seats : List SeatId) (reason : FloorReason) (s : State) :
    FloorMove a Z sets s (removeRequests a seats reason s) :=
  .foldl _ (fun u i _ => removeRequest_floorMove i reason u) s

theorem enqueueSeat_floorMove {i : SeatId} (hi : segmentOf i ∈ Z) (reason : FloorReason) (s : State) :
    FloorMove a Z sets s (enqueueSeat a i reason s) :=
  (((modFloor_floorMove fun h => h.append_queue hi).trans (setPoolFree_floorMove ..)).trans
    (setStampCounter_floorMove ..)).trans (floorNotice_floorMove ..)

/-! ### Suspension, resumption and auto-advance -/

theorem floorNotices_floorMove (seats : List SeatId) (change : FloorChange) (s : State) :
    FloorMove a Z sets s (floorNotices a seats change s) :=
  .foldl _ (fun u i _ => floorNotice_floorMove i change .none u) s

theorem suspendEntry_seat (now : Clock) (e : Speaker) : (suspendEntry now e).seat = e.seat := by
  unfold suspendEntry
  split <;> rfl

theorem resumeEntry_seat (now : Clock) (e : Speaker) : (resumeEntry now e).seat = e.seat := by
  unfold resumeEntry
  split <;> rfl

theorem suspendAll_floorMove (s : State) : FloorMove a Z sets s (suspendAll a s) :=
  (modFloor_floorMove fun h => h.map_speakers (suspendEntry_seat s.clock)).trans (floorNotices_floorMove ..)

theorem resumeAll_floorMove (s : State) : FloorMove a Z sets s (resumeAll a s) :=
  (modFloor_floorMove fun h => h.map_speakers (resumeEntry_seat s.clock)).trans (floorNotices_floorMove ..)

theorem advance_floorMove (n : Nat) (s : State) : FloorMove a Z sets s (advance sets n a s) := by
  induction n generalizing s with
  | zero => exact .refl s
  | succ n ih =>
    unfold advance
    split
    · exact .refl s
    · next q _ hq =>
      split
      · exact .of_home fun h =>
          (grantSeat_floorMove (h.floor.2 q (by rw [← floorOf, hq]; exact List.mem_cons_self)) ..).trans (ih _)
      · exact .refl s

theorem autoAdvance_floorMove (s : State) : FloorMove a Z sets s (autoAdvance sets a s) :=
  advance_floorMove ..

theorem priorityNotice_floorMove (held : Bool) (s : State) : FloorMove a Z sets s (priorityNotice a held s) :=
  notify_floorMove _ rfl rfl s

theorem endHandling_floorMove (wasHeld started : Bool) (s : State) :
    FloorMove a Z sets s (endHandling sets a wasHeld started s) := by
  unfold endHandling
  split
  · exact ((resumeAll_floorMove s).trans (priorityNotice_floorMove ..)).trans (autoAdvance_floorMove _)
  · split
    · exact autoAdvance_floorMove s
    · exact .refl s

/-! ### Seat events -/

section
variable {i : SeatId} (hi : segmentOf i ∈ Z)
include hi

theorem talkEnqueue_floorMove (s : State) : FloorMove a Z sets s (talkEnqueue a i s) := by
  unfold talkEnqueue
  split
  · exact markRefusal_floorMove hi s
  · exact enqueueSeat_floorMove hi ..

theorem talkByMode_floorMove (s : State) : FloorMove a Z sets s (talkByMode sets a i s) := by
  unfold talkByMode
  split
  · split
    · exact grantSeat_floorMove hi ..
    · exact markRefusal_floorMove hi s
  · split
    · exact grantSeat_floorMove hi ..
    · exact talkEnqueue_floorMove hi s
  · exact talkEnqueue_floorMove hi s

theorem talk_floorMove (s : State) : FloorMove a Z sets s (talk sets a i s) := by
  unfold talk
  split
  · exact (removeSpeaker_floorMove ..).trans (endHandling_floorMove ..)
  · split
    · exact removeRequest_floorMove ..
    · split
      · split
        · exact grantSeat_floorMove hi ..
        · exact markRefusal_floorMove hi s
      · exact talkByMode_floorMove hi s

omit hi in
/-- What a grant answers leaves the rest alone. -/
def GrantMove (a : Segment) (Z : List Segment) (sets : Sets) (s : State) : GrantResult → Prop
  | .refused _ => True
  | .granted _ t => FloorMove a Z sets s t

theorem grantOrReplace_move (replace : Bool) (s : State) : GrantMove a Z sets s (grantOrReplace sets a i replace s) := by
  unfold grantOrReplace
  split
  · exact grantSeat_floorMove hi ..
  · split
    · split
      · exact ((removeSpeaker_floorMove ..).trans (grantSeat_floorMove hi ..)).trans (autoAdvance_floorMove _)
      · trivial
    · trivial

omit hi in
theorem grantHead_move (replace : Bool) {s : State} (h : AtHome a Z sets s) :
    GrantMove a Z sets s (grantHead sets a replace s) := by
  unfold grantHead
  split
  · trivial
  · split
    · trivial
    · split
      · trivial
      · next q _ hq =>
        exact grantOrReplace_move (h.floor.2 q (by rw [← floorOf, hq]; exact List.mem_cons_self)) ..

theorem nextKey_floorMove (s : State) : FloorMove a Z sets s (nextKey sets a i s) :=
  .of_home fun home => by
    have h := grantHead_move false home
    unfold nextKey
    split
    · exact markRefusal_floorMove hi s
    · next heq => rw [heq] at h; exact h

omit hi in
theorem joinHold_floorMove (i : SeatId) (s : State) : FloorMove a Z sets s (joinHold a i s) := by
  have held : FloorMove a Z sets s (s.modFloor a fun f =>
      { f with holders := insertBy (holderBefore s.clock) { seat := i, pressTime := s.clock } f.holders }) :=
    modFloor_floorMove fun h => h
  unfold joinHold
  dsimp only
  split
  · exact held.trans (suspendAll_floorMove _)
  · exact (held.trans (suspendAll_floorMove _)).trans (priorityNotice_floorMove ..)

theorem priorityDown_floorMove (s : State) : FloorMove a Z sets s (priorityDown sets a i s) := by
  unfold priorityDown
  dsimp only
  split
  · exact .refl s
  · split
    · exact markRefusal_floorMove hi s
    · split
      · exact joinHold_floorMove i s
      · split
        · exact (grantSeat_floorMove hi ..).trans (joinHold_floorMove ..)
        · split
          · exact (((removeSpeaker_floorMove ..).trans (grantSeat_floorMove hi ..)).trans (joinHold_floorMove ..)).trans
              (autoAdvance_floorMove _)
          · exact markRefusal_floorMove hi s

omit hi in
theorem leaveHold_floorMove (i : SeatId) (s : State) : FloorMove a Z sets s (leaveHold sets a i s) := by
  have left : FloorMove a Z sets s (s.modFloor a fun f => { f with holders := f.holders.filter fun h => h.seat != i }) :=
    modFloor_floorMove fun h => h
  unfold leaveHold
  dsimp only
  split
  · exact left.trans (removeSpeaker_floorMove ..)
  · exact left

omit hi in
theorem priorityUp_floorMove (i : SeatId) (s : State) : FloorMove a Z sets s (priorityUp sets a i s) := by
  unfold priorityUp
  split
  · exact (leaveHold_floorMove i s).trans (endHandling_floorMove ..)
  · exact .refl s

theorem dropSeat_floorMove (reason : FloorReason) (s : State) : FloorMove a Z sets s (dropSeat sets a i reason s) :=
  ((((removeSpeaker_floorMove i reason s).trans (removeRequest_floorMove ..)).trans (modFloor_floorMove fun h => h)).trans
    (endRelease_floorMove hi _)).trans (freeChannel_floorMove hi _)

omit hi in
theorem seatNotice_floorMove (i : SeatId) (cause : SeatCause) (s : State) : FloorMove a Z sets s (seatNotice i cause s) :=
  notify_floorMove _ rfl rfl s

end

/-- An event of a seat acts in the room of the seat (R58 to R61). -/
theorem seatEvent_floorMove {i : SeatId} (hi : segmentOf i ∈ Z) (kind : EventKind) (s : State) :
    FloorMove (seatRoom s i) Z sets s (seatEvent sets i kind s) := by
  have hello_move : FloorMove (seatRoom s i) Z sets s (hello sets i s) := by
    unfold hello
    split
    · exact ((dropSeat_floorMove hi ..).trans (seatNotice_floorMove ..)).trans (endHandling_floorMove ..)
    · exact (modSeat_floorMove ..).trans (seatNotice_floorMove ..)
  have bye_move : FloorMove (seatRoom s i) Z sets s (bye sets i s) := by
    unfold bye takeOffline
    split
    · exact ((((modSeat_floorMove ..).trans (modTrunk_floorMove hi ..)).trans
        (dropSeat_floorMove (a := seatRoom s i) hi ..)).trans (seatNotice_floorMove ..)).trans (endHandling_floorMove ..)
    · exact .refl s
  cases kind with
  | hello => exact hello_move
  | bye => exact bye_move
  | talk =>
    unfold seatEvent
    dsimp only
    split
    · exact .refl s
    · split
      · exact talk_floorMove hi s
      · exact markRefusal_floorMove hi s
  | priorityDown =>
    unfold seatEvent
    dsimp only
    split
    · exact .refl s
    · split
      · exact priorityDown_floorMove hi s
      · exact markRefusal_floorMove hi s
  | priorityUp =>
    unfold seatEvent
    dsimp only
    split
    · exact .refl s
    · exact priorityUp_floorMove i s
  | nextKey =>
    unfold seatEvent
    dsimp only
    split
    · exact .refl s
    · split
      · exact nextKey_floorMove hi s
      · exact markRefusal_floorMove hi s

end

end Sys2Proof.Machine
end

section
/-! Where a commit works: the rooms it rebuilds and the segments they come from, the room table and the notices of the
partition controller's share, and the order of the other shares (R25, R29, R30, R57). -/

namespace Sys2Proof.Machine
open Sys2Proof.Safety

/-! ### The segments that a commit moves -/

/-- The segments of the rooms that a repartition changes. -/
def movedBy (s : State) (rp : Repartition) : List Segment :=
  rp.affected.flatMap (membersOf s)

/-- The rooms that the start test of a commit drains: those that the effective states change (R30). -/
def nextRooms (s : State) (rp : Repartition) : List Segment :=
  allSegments.filter fun a => anchorIn rp.target a == a && component (effectiveMap s) a != component rp.target a

theorem mem_nextRooms_iff {s : State} {rp : Repartition} {a : Segment} :
    a ∈ nextRooms s rp ↔ anchorIn rp.target a = a ∧ component (effectiveMap s) a ≠ component rp.target a := by
  simp [nextRooms, allSegments]

/-- Two choices from the segments are the same list where they choose the same. -/
theorem filter_allSegments_congr {p q : Segment → Bool}
    (h : ∀ a, a ∈ allSegments.filter p ↔ a ∈ allSegments.filter q) : allSegments.filter p = allSegments.filter q :=
  List.filter_congr fun a ha => by
    have := h a
    rw [List.mem_filter, List.mem_filter] at this
    rw [Bool.eq_iff_iff]
    exact ⟨fun hp => (this.mp ⟨ha, hp⟩).2, fun hq => (this.mpr ⟨ha, hq⟩).2⟩

section
variable {s : State} {rp : Repartition} (hrooms : roomsOk s) (hrp : s.repartition = some rp)
include hrooms hrp

theorem mem_affected_iff {a : Segment} :
    a ∈ rp.affected ↔ anchorIn (committedMap s) a = a ∧ component rp.target a ≠ component (committedMap s) a := by
  rw [(affected_of_roomsOk hrooms hrp).1]
  exact mem_affectedRooms_iff hrooms.1

/-- The segments that move are those whose room the target map changes. -/
theorem mem_movedBy_iff {g : Segment} : g ∈ movedBy s rp ↔ component rp.target g ≠ component (committedMap s) g := by
  have anchored : component rp.target (anchorIn (committedMap s) g) = component (committedMap s) g ↔
      component rp.target g = component (committedMap s) g := by
    constructor
    · intro h
      rw [← h]
      exact component_eq_of_mem (h ▸ self_mem_component _ g)
    · intro h
      rw [← h]
      exact component_eq_of_mem (h ▸ anchorIn_mem_component _ g)
  calc g ∈ movedBy s rp ↔ anchorIn (committedMap s) g ∈ rp.affected := by
        simp [movedBy, mem_membersOf_iff hrooms.1]
    _ ↔ component rp.target (anchorIn (committedMap s) g) ≠ component (committedMap s) g := by
        rw [mem_affected_iff hrooms hrp, anchorIn_anchorIn, component_anchorIn]
        exact and_iff_right rfl
    _ ↔ _ := not_congr anchored

theorem mem_news_iff {a : Segment} : a ∈ newRooms s rp.target ↔ anchorIn rp.target a = a ∧ a ∈ movedBy s rp := by
  rw [mem_newRooms_iff hrooms.1, mem_movedBy_iff hrooms hrp, ne_comm]

theorem mem_affected_iff_moved {a : Segment} :
    a ∈ rp.affected ↔ anchorIn (committedMap s) a = a ∧ a ∈ movedBy s rp := by
  rw [mem_affected_iff hrooms hrp, mem_movedBy_iff hrooms hrp]

/-- The members of a new room move. -/
theorem moved_of_mem_new {a g : Segment} (ha : a ∈ newRooms s rp.target) (hg : g ∈ component rp.target a) :
    g ∈ movedBy s rp := by
  rw [mem_movedBy_iff hrooms hrp, component_eq_of_mem hg]
  intro e
  have hga : a ∈ component (committedMap s) g := e ▸ self_mem_component _ a
  refine (mem_movedBy_iff hrooms hrp).mp ((mem_news_iff hrooms hrp).mp ha).2 ?_
  rw [e, component_eq_of_mem hga]

/-- The new room of a segment that moves. -/
theorem anchorIn_mem_news {g : Segment} (hg : g ∈ movedBy s rp) : anchorIn rp.target g ∈ newRooms s rp.target := by
  rw [mem_news_iff hrooms hrp]
  refine ⟨anchorIn_anchorIn .., (mem_movedBy_iff hrooms hrp).mpr fun e => ?_⟩
  rw [component_anchorIn] at e
  refine (mem_movedBy_iff hrooms hrp).mp hg ?_
  rw [e]
  exact (component_eq_of_mem (e ▸ self_mem_component _ g)).symm

/-- The old room of a segment that moves. -/
theorem roomOf_mem_moved {g : Segment} (hg : g ∈ movedBy s rp) : roomOf s g ∈ movedBy s rp := by
  obtain ⟨b, hb, hgb⟩ := List.mem_flatMap.mp hg
  rw [roomOf_eq_anchorIn hrooms.1, (mem_membersOf_iff hrooms.1).mp hgb]
  exact ((mem_affected_iff_moved hrooms hrp).mp hb).2

/-- A room that a repartition leaves alone does not move. -/
theorem not_moved_of_unaffected {a : Segment} (ha : (s.rooms.get a).isSome = true) (hn : a ∉ rp.affected) :
    a ∉ movedBy s rp := fun hm =>
  hn ((mem_affected_iff_moved hrooms hrp).mpr ⟨(isSome_room_iff hrooms.1).mp ha, hm⟩)

end

/-! ### The room table and the walls that a commit leaves -/

/-- The hall as the partition controller's share leaves it, with the loop case at the end of the commit (R29, R30). -/
def rebuilt (rp : Repartition) (s : State) : State :=
  if startPlan (partitioned rp s) = .loop then commitLoop (partitioned rp s) else partitioned rp s

theorem rebuilt_cases {P : State → Prop} {rp : Repartition} {s : State} (h : P (partitioned rp s))
    (hl : P (commitLoop (partitioned rp s))) : P (rebuilt rp s) := by
  unfold rebuilt
  split
  exacts [hl, h]

theorem rebuilt_rooms (rp : Repartition) (s : State) : (rebuilt rp s).rooms = rebuiltRooms s rp :=
  rebuilt_cases (P := fun t => t.rooms = rebuiltRooms s rp) rfl rfl

theorem rebuilt_repartition (rp : Repartition) (s : State) : (rebuilt rp s).repartition = none :=
  rebuilt_cases (P := fun t => t.repartition = none) rfl rfl

theorem rebuilt_frame (rp : Repartition) (s : State) :
    rebuilt rp s =
      { s with walls := (rebuilt rp s).walls, rooms := (rebuilt rp s).rooms, repartition := (rebuilt rp s).repartition } :=
  rebuilt_cases (P := fun t => t = { s with walls := t.walls, rooms := t.rooms, repartition := t.repartition }) rfl rfl

theorem rebuilt_wall (rp : Repartition) (s : State) (w : WallId) :
    (rebuilt rp s).walls.get w = { s.walls.get w with committed := ((rebuilt rp s).walls.get w).committed } :=
  rebuilt_cases (P := fun t => t.walls.get w = { s.walls.get w with committed := (t.walls.get w).committed })
    (by simp [partitioned]) (by simp [partitioned, commitLoop])

theorem effectiveMap_rebuilt (rp : Repartition) (s : State) : effectiveMap (rebuilt rp s) = effectiveMap s :=
  Tab.ext_get fun w => by simp only [effectiveMap, Tab.get_map]; rw [rebuilt_wall]

section
variable {s : State} {rp : Repartition} (hrooms : roomsOk s) (hrp : s.repartition = some rp)
include hrooms hrp

theorem affectedRooms_partitioned : affectedRooms (partitioned rp s) (effectiveMap (partitioned rp s)) = nextRooms s rp := by
  have follow := (roomsOk_partitioned hrp hrooms).1
  refine filter_allSegments_congr fun a => ?_
  change a ∈ affectedRooms (partitioned rp s) (effectiveMap (partitioned rp s)) ↔ a ∈ nextRooms s rp
  rw [mem_affectedRooms_iff follow, committedMap_partitioned, effectiveMap_partitioned, mem_nextRooms_iff]

/-- Where no room drains next, the committed states are the effective states (R26, R30). -/
theorem committedMap_rebuilt_of_nil (h : nextRooms s rp = []) : committedMap (rebuilt rp s) = effectiveMap s := by
  have none_affected := (affectedRooms_partitioned hrooms hrp).trans h
  unfold rebuilt
  by_cases hn : NothingToStart (partitioned rp s)
  · rw [startPlan_nothing hn, if_neg nofun]
    rcases hn with hn | hn
    · cases hn
    · rw [← hn, effectiveMap_partitioned]
  · rw [if_pos (startPlan_loop hn none_affected), ← effectiveMap_partitioned rp s]
    exact Tab.ext_get fun w => by simp [committedMap, commitLoop, effectiveMap]

omit hrooms hrp in
theorem partitioned_starts (h : nextRooms s rp ≠ []) : ¬NothingToStart (partitioned rp s) := by
  rintro (hn | hn)
  · cases hn
  · obtain ⟨a, ha⟩ := List.exists_mem_of_ne_nil _ h
    rw [effectiveMap_partitioned, committedMap_partitioned] at hn
    exact (mem_nextRooms_iff.mp ha).2 (by rw [hn])

theorem rebuilt_of_next (h : nextRooms s rp ≠ []) : rebuilt rp s = partitioned rp s := by
  have some_affected : affectedRooms (partitioned rp s) (effectiveMap (partitioned rp s)) ≠ [] :=
    (affectedRooms_partitioned hrooms hrp).symm ▸ h
  rw [rebuilt, startPlan_drain (partitioned_starts h) some_affected, if_neg nofun]

theorem committedMap_rebuilt :
    committedMap (rebuilt rp s) = if nextRooms s rp = [] then effectiveMap s else rp.target := by
  split
  · next h => exact committedMap_rebuilt_of_nil hrooms hrp h
  · next h => rw [rebuilt_of_next hrooms hrp h, committedMap_partitioned]

/-- Where no room drains next the start test finds nothing. -/
theorem rebuilt_starts_iff : ¬NothingToStart (rebuilt rp s) ↔ nextRooms s rp ≠ [] := by
  refine ⟨fun hn h => hn (.inr ?_), fun h => ?_⟩
  · rw [committedMap_rebuilt_of_nil hrooms hrp h, effectiveMap_rebuilt]
  · rw [rebuilt_of_next hrooms hrp h]
    exact partitioned_starts h

theorem mem_members_rebuilt {a g : Segment} : g ∈ membersOf (rebuilt rp s) a ↔ anchorIn rp.target g = a := by
  rw [membersOf_of_rooms (s := partitioned rp s) (rebuilt_rooms rp s),
    mem_membersOf_iff (roomsOk_partitioned hrp hrooms).1, committedMap_partitioned]

theorem roomOf_rebuilt (g : Segment) : roomOf (rebuilt rp s) g = anchorIn rp.target g := by
  rw [roomOf_of_rooms (s := partitioned rp s) (rebuilt_rooms rp s),
    roomOf_eq_anchorIn (roomsOk_partitioned hrp hrooms).1, committedMap_partitioned]

theorem isDraining_rebuilt (a : Segment) : isDraining (rebuilt rp s) a = false := by
  rw [isDraining_of_rooms (s := partitioned rp s) (rebuilt_rooms rp s)]
  exact steady_of_roomsOk (roomsOk_partitioned hrp hrooms) rfl a

theorem isSome_rebuilt_iff {a : Segment} : ((rebuilt rp s).rooms.get a).isSome = true ↔ anchorIn rp.target a = a := by
  rw [rebuilt_rooms]
  exact (isSome_room_iff (roomsOk_partitioned hrp hrooms).1).trans (by rw [committedMap_partitioned])

theorem moved_of_mem_membersOf {a g : Segment} (ha : a ∈ newRooms s rp.target) (hg : g ∈ membersOf (rebuilt rp s) a) :
    g ∈ movedBy s rp := by
  refine moved_of_mem_new hrooms hrp ha ?_
  rw [mem_members_rebuilt hrooms hrp] at hg
  exact mem_component_comm.mp (hg ▸ anchorIn_mem_component _ g)

/-- The rooms after a commit, with their leads (R15, R17, R29). -/
theorem rebuilt_room {a : Segment} (ha : anchorIn rp.target a = a) :
    ((rebuilt rp s).rooms.get a).map (fun r => (r.members, r.lead)) =
      some (component rp.target a,
        if a ∈ newRooms s rp.target then (component rp.target a).find? fun g => (s.ports.get g).attached
        else leadOf s a) := by
  rw [rebuilt_rooms]
  by_cases hn : a ∈ newRooms s rp.target
  · rw [rebuiltRooms_new hn, if_pos hn]
    rfl
  · have hm : a ∉ movedBy s rp := fun hm => hn ((mem_news_iff hrooms hrp).mpr ⟨ha, hm⟩)
    have haff : a ∉ rp.affected := fun h => hm ((mem_affected_iff_moved hrooms hrp).mp h).2
    have same := not_not.mp (mt (mem_movedBy_iff hrooms hrp).mpr hm)
    obtain ⟨r, hr⟩ := Option.isSome_iff_exists.mp
      ((isSome_room_iff hrooms.1).mpr (by rw [← anchorIn_congr same, ha] : anchorIn (committedMap s) a = a))
    rw [rebuiltRooms_kept hn haff, if_neg hn, same, hr, leadOf, hr, ← (members_of_room hrooms.1 hr).2]
    rfl

/-! ### The notices of the partition controller's share -/

/-- The WALL notices of a commit (R6, R29; log entries 14 and 28). -/
def commitWallsSent (rp : Repartition) (s : State) : List Sent :=
  (allWalls.filter fun w => (s.walls.get w).committed != ((rebuilt rp s).walls.get w).committed ||
      (s.walls.get w).committed != rp.target.get w).map fun w => wallSent w ((rebuilt rp s).walls.get w)

/-- The ROOM notices of the new rooms (R18, R29). -/
def commitRoomsSent (rp : Repartition) (s : State) : List Sent :=
  (newRooms s rp.target).map fun a =>
    let members := component rp.target a
    (members, .room a members (members.find? fun g => (s.ports.get g).attached) .steady)

omit hrooms hrp in
theorem contains_committedChanged (x y : Tab 7 Wall) (w : WallId) :
    (committedChanged x y).contains w = ((x.get w).committed != (y.get w).committed) := by
  rw [Bool.eq_iff_iff]
  simp [committedChanged, allWalls]

omit hrooms hrp in
theorem commitPartition_sends (rp : Repartition) (s : State) :
    commitPartition rp s = sendAll (commitWallsSent rp s ++ commitRoomsSent rp s) (rebuilt rp s) := by
  have rooms : (newRooms s rp.target).flatMap (roomSent (rebuilt rp s)) = commitRoomsSent rp s := by
    rw [commitRoomsSent, List.map_eq_flatMap]
    refine List.flatMap_congr fun a ha => ?_
    rw [roomSent, rebuilt_rooms, rebuiltRooms_new ha]
    rfl
  have walls : (allWalls.filter fun w => (committedChanged s.walls (partitioned rp s).walls).contains w ||
      (committedChanged (partitioned rp s).walls (rebuilt rp s).walls).contains w) =
        allWalls.filter fun w => (s.walls.get w).committed != ((rebuilt rp s).walls.get w).committed ||
          (s.walls.get w).committed != rp.target.get w := by
    refine List.filter_congr fun w _ => ?_
    rw [contains_committedChanged, contains_committedChanged]
    have target : ((partitioned rp s).walls.get w).committed = rp.target.get w := by simp [partitioned]
    rw [target]
    generalize (s.walls.get w).committed = x
    generalize ((rebuilt rp s).walls.get w).committed = y
    generalize rp.target.get w = z
    by_cases h : x = z
    · simp [h]
    · simp [bne_iff_ne.mpr h]
  unfold commitPartition
  dsimp only
  rw [← partitioned, ← rebuilt, foldl_sendRoom, sendWalls_eq, ← sendAll_append, roomSent_sendAll, rooms, walls]
  rfl

end

end Sys2Proof.Machine
end

section
/-! What the shares of a commit keep, and the order in which they are taken (R29, R57). -/

namespace Sys2Proof.Machine
open Sys2Proof.Safety

/-! ### The order of the shares -/

/-- Where the release sets stand once the shares `done` are taken (R159, R160). -/
def setsAfter (s : State) (done : List CommitShare) : Sets :=
  if .mix ∈ done then .current else .before (roomOf s)

/-- A share that may be taken after the shares `done`: not for the second time, and a trunk's after the floor's (R57). -/
structure MayFollow (done : List CommitShare) (c : CommitShare) : Prop where
  fresh : c ∉ done
  afterFloor : c.isTrunk = true → .floor ∈ done

theorem shareOrder_ok (order : List CommitShare) : orderOk (shareOrder order) = true := by
  unfold shareOrder
  split
  · assumption
  · decide

theorem mem_shareOrder (order : List CommitShare) {c : CommitShare} (h : c ∈ allShares) : c ∈ shareOrder order := by
  have ok := shareOrder_ok order
  simp only [orderOk, Bool.and_eq_true] at ok
  exact List.contains_iff_mem.mp (List.all_eq_true.mp ok.1.2 c h)

theorem mem_beforeFloor {done rest : List CommitShare} {c : CommitShare} (hc : c ≠ .floor) (hf : .floor ∉ done) :
    c ∈ beforeFloor (done ++ c :: rest) := by
  induction done with
  | nil => cases c <;> simp_all [beforeFloor]
  | cons d done ih =>
    have := ih fun h => hf (List.mem_cons_of_mem d h)
    cases d <;> simp_all [beforeFloor]

theorem mayFollow_of_shareOrder {order done rest : List CommitShare} {c : CommitShare}
    (h : shareOrder order = done ++ c :: rest) : MayFollow done c := by
  have ok := shareOrder_ok order
  rw [h] at ok
  simp only [orderOk, Bool.and_eq_true, decide_eq_true_eq, Bool.not_eq_true', List.any_eq_false] at ok
  refine ⟨fun hc => ?_, fun ht => ?_⟩
  · exact (List.nodup_append.mp ok.1.1).2.2 c hc c List.mem_cons_self rfl
  · by_contra hf
    refine ok.2 c (mem_beforeFloor ?_ hf) ht
    rintro rfl
    cases ht

theorem setsAfter_append (s : State) (done : List CommitShare) {c : CommitShare} (hc : c ≠ .mix) :
    setsAfter s (done ++ [c]) = setsAfter s done := by
  have : (CommitShare.mix ∈ done ++ [c]) ↔ .mix ∈ done := by simp [Ne.symm hc]
  simp only [setsAfter, this]

theorem setsAfter_mix (s : State) (done : List CommitShare) : setsAfter s (done ++ [.mix]) = .current := by
  simp [setsAfter]

theorem uncreated_setsAfter (s : State) (news : List Segment) (done : List CommitShare) :
    (setsAfter s done).uncreated news = if done.contains .mix then [] else news := by
  unfold setsAfter
  by_cases h : .mix ∈ done
  · simp [h, Sets.uncreated]
  · simp [h, Sets.uncreated]

/-- What holds before the shares, and is kept by each share that may follow, holds after them. -/
theorem takeShares_induction {P : List CommitShare → State → Prop} {s u : State} {affected news : List Segment}
    (order : List CommitShare) (start : P [] u)
    (share : ∀ done c u, MayFollow done c → P done u →
      P (done ++ [c]) (commitShare (setsAfter s done) s affected news u c)) :
    P (shareOrder order) (takeShares s affected news (.before (roomOf s)) u (shareOrder order)) := by
  have run (rest : List CommitShare) : ∀ done u, shareOrder order = done ++ rest → P done u →
      P (shareOrder order) (takeShares s affected news (setsAfter s done) u rest) := by
    induction rest with
    | nil =>
      intro done u h hu
      rwa [h, List.append_nil]
    | cons c rest ih =>
      intro done u h hu
      have next : (if c = .mix then Sets.current else setsAfter s done) = setsAfter s (done ++ [c]) := by
        by_cases hc : c = .mix
        · rw [if_pos hc, hc, setsAfter_mix]
        · rw [if_neg hc, setsAfter_append s done hc]
      rw [takeShares, next]
      exact ih _ _ (by rw [h, List.append_assoc, List.singleton_append])
        (share done c u (mayFollow_of_shareOrder h) hu)
  exact run _ [] u rfl start

/-! ### What most shares keep -/

theorem onlyCommit_trans {s t u : State} (h : onlyCommit s t) (h' : onlyCommit t u) : onlyCommit s u :=
  ⟨by rw [h'.1, h.1], fun k => by rw [h'.2 k, h.2 k]⟩

theorem onlyCommit_clock {s t : State} (h : onlyCommit s t) : t.clock = s.clock := by
  rw [h.1]

theorem SeatFrame.onlyCommit {s t : State} (h : SeatFrame s t) : onlyCommit s t :=
  ⟨by rw [h.rest], fun k => by rw [h.trunks k]⟩

theorem BoothFrame.onlyCommit {s t : State} (h : BoothFrame s t) : onlyCommit s t :=
  ⟨by rw [h.rest], fun k => by rw [h.rest]⟩

theorem WallFrame.onlyCommit {s t : State} (h : WallFrame s t) : onlyCommit s t :=
  ⟨by rw [h.rest], fun k => by rw [h.trunks k]⟩

/-- What the floor controller, the booth allocator and the tap table leave alone at a commit that moves the segments `Z`. -/
structure Calm (Z : List Segment) (s t : State) : Prop where
  commit : onlyCommit s t
  walls : t.walls = s.walls
  rooms : t.rooms = s.rooms
  repartition : t.repartition = s.repartition
  trunks : sameTrunks s t
  mixes : sameMixes s t
  slotMaps : ∀ a, a ∉ Z → t.slotMaps.get a = s.slotMaps.get a
  notes : Notes s t

theorem SeatFrame.calm {Z : List Segment} {s t : State} (h : SeatFrame s t) (hn : Notes s t) : Calm Z s t where
  commit := h.onlyCommit
  walls := by rw [h.rest]
  rooms := by rw [h.rest]
  repartition := by rw [h.rest]
  trunks := h.trunks
  mixes := h.mixes
  slotMaps _ _ := by rw [h.rest]
  notes := hn

theorem BoothFrame.calm {Z : List Segment} {s t : State} (h : BoothFrame s t)
    (hs : ∀ a, a ∉ Z → t.slotMaps.get a = s.slotMaps.get a) (hn : Notes s t) : Calm Z s t where
  commit := h.onlyCommit
  walls := by rw [h.rest]
  rooms := by rw [h.rest]
  repartition := by rw [h.rest]
  trunks k := by rw [h.rest]
  mixes a := by rw [h.rest]
  slotMaps := hs
  notes := hn

/-! ### The notices of each share -/

theorem atHome_all (a : Segment) (sets : Sets) (s : State) : AtHome a allSegments sets s where
  anchor := List.mem_finRange _
  members _ _ := List.mem_finRange _
  releases _ _ _ := List.mem_finRange _
  origins _ _ _ _ := List.mem_finRange _
  floor := ⟨fun _ _ => List.mem_finRange _, fun _ _ => List.mem_finRange _⟩

/-- An operation of the floor controller sends none of the partition controller's notices. -/
theorem FloorMove.notes {a : Segment} {sets : Sets} {s t : State} (h : FloorMove a allSegments sets s t) : Notes s t :=
  (h.run (atHome_all a sets s)).2.notes

theorem seatEvent_calm {Z : List Segment} (sets : Sets) (i : SeatId) (kind : EventKind) (s : State) :
    Calm Z s (seatEvent sets i kind s) :=
  (seatEvent_seatFrame ..).calm (seatEvent_floorMove (List.mem_finRange _) kind s).notes

theorem Calm.refl {Z : List Segment} (s : State) : Calm Z s s :=
  (SeatFrame.refl s).calm (.of_same rfl rfl)

theorem Calm.trans {Z : List Segment} {s t u : State} (h : Calm Z s t) (h' : Calm Z t u) : Calm Z s u where
  commit := onlyCommit_trans h.commit h'.commit
  walls := h'.walls.trans h.walls
  rooms := h'.rooms.trans h.rooms
  repartition := h'.repartition.trans h.repartition
  trunks := sameTrunks_trans h.trunks h'.trunks
  mixes := sameMixes_trans h.mixes h'.mixes
  slotMaps a ha := (h'.slotMaps a ha).trans (h.slotMaps a ha)
  notes := h.notes.trans h'.notes

theorem Calm.foldl {α : Type} {Z : List Segment} {f : State → α → State} {l : List α}
    (h : ∀ s, ∀ x ∈ l, Calm Z s (f s x)) (s : State) : Calm Z s (l.foldl f s) := by
  induction l generalizing s with
  | nil => exact .refl s
  | cons x l ih => exact (h s x List.mem_cons_self).trans (ih (fun s y hy => h s y (List.mem_cons_of_mem x hy)) _)

/-! ### The booth allocator's and the tap table's shares -/

theorem notify_calm {Z : List Segment} (ports : List Port) {body : NoticeBody} (hw : isWallNotice body = false)
    (hr : isRoomNotice body = false) (s : State) : Calm Z s (notify ports body s) :=
  (notify_floorFrame ports body s).toSeat.calm (.notify ports hw hr s)

theorem revertRelay_calm {Z : List Segment} (a : Segment) (b : BoothId) (s : State) : Calm Z s (revertRelay a b s) :=
  (revertRelay_boothFrame a b s).calm (fun _ _ => rfl)
    (.trans (t := s.modBooth b fun r => { r with source := none }) (.of_same rfl rfl) (.notify _ rfl rfl _))

theorem writeAllocations_calm {Z : List Segment} (run : List (BoothId × Allocation)) (s : State) :
    Calm Z s (writeAllocations run s) :=
  .foldl (fun s x _ => (modBooth_boothFrame x.1 _ s fun _ => rfl).calm (fun _ _ => rfl) (.of_same rfl rfl)) s

theorem setSlotMap_calm {Z : List Segment} {a : Segment} (ha : a ∈ Z) (m : SlotMap) (s : State) :
    Calm Z s (s.setSlotMap a m) :=
  (setSlotMap_boothFrame a m s).calm (fun _ hb => Tab.get_set_ne _ _ fun e => hb (e ▸ ha)) (.of_same rfl rfl)

theorem commitBoothRoom_calm {Z : List Segment} {a : Segment} (ha : a ∈ Z) (s : State) : Calm Z s (commitBoothRoom s a) :=
  (Calm.foldl (fun s b _ => revertRelay_calm a b s) s).trans
    (((writeAllocations_calm _ _).trans (setSlotMap_calm ha _ _)).trans
      (.foldl (fun s _ _ => notify_calm _ rfl rfl s) _))

/-- The booth allocator's share leaves the slot maps of other rooms alone (R134 to R136). -/
theorem commitBooths_calm {Z affected news : List Segment} (ha : ∀ a ∈ affected, a ∈ Z) (hn : ∀ a ∈ news, a ∈ Z)
    (s : State) : Calm Z s (commitBooths affected news s) :=
  (Calm.foldl (fun s a h => setSlotMap_calm (ha a h) _ s) s).trans
    (.foldl (fun s a h => commitBoothRoom_calm (hn a h) s) _)

theorem commitTaps_calm {Z : List Segment} (s : State) : Calm Z s (commitTaps s) :=
  .foldl (fun s k _ => by
    unfold releaseTapIf
    split
    · split
      · exact ((setTapOf_boothFrame k none s).calm (fun _ _ => rfl) (.of_same rfl rfl)).trans (notify_calm _ rfl rfl _)
      · exact .refl s
    · exact .refl s) s

end Sys2Proof.Machine
end

section
/-! The shares of the floor controller and the mix engine in a commit: the floors of the new rooms are built from the
entries of their members, and what lies outside the moved segments stays (R92 to R95, R159, R160). -/

namespace Sys2Proof.Machine
open Sys2Proof.Safety

/-! ### The floor of one new room (R92 to R95) -/

section
variable {a : Segment} {Z : List Segment} {sets : Sets}

theorem gatherFloor_within (old : State) (affected : List Segment) {members : List Segment} (h : ∀ g ∈ members, g ∈ Z) :
    FloorWithin Z (gatherFloor old affected members) := by
  constructor
  · intro e he
    have := (List.mem_filter.mp (mem_sortBy.mp he)).2
    exact h _ (List.contains_iff_mem.mp this)
  · intro q hq
    have := (List.mem_filter.mp hq).2
    exact h _ (List.contains_iff_mem.mp this)

theorem FloorWithin.capHolders {f : Floor} (h : FloorWithin Z f) (now : Clock) :
    FloorWithin Z (capHolders now { f with queue := sortBy requestBefore f.queue }) :=
  FloorWithin.map_speakers (f := { f with queue := sortBy requestBefore f.queue })
    ⟨h.1, fun q hq => h.2 q (mem_sortBy.mp hq)⟩ fun e => by split <;> rfl

theorem trimSpeakers_floorMove (n : Nat) (s : State) : FloorMove a Z sets s (trimSpeakers sets n a s) := by
  induction n generalizing s with
  | zero => exact .refl s
  | succ n ih =>
    unfold trimSpeakers
    split
    · exact .refl s
    · split
      · exact (removeSpeaker_floorMove ..).trans (ih _)
      · exact .refl s

theorem requeueSpeaker_floorMove {i : SeatId} (hi : segmentOf i ∈ Z) (s : State) :
    FloorMove a Z sets s (requeueSpeaker a s i) := by
  unfold requeueSpeaker
  split
  · exact .refl s
  · exact (((modFloor_floorMove fun h => h.append_queue hi).trans (setPoolFree_floorMove ..)).trans
      (setStampCounter_floorMove ..)).trans (floorNotice_floorMove ..)

theorem commitPriority_floorMove (old : State) (s : State) : FloorMove a Z sets s (commitPriority old a s) :=
  .foldl _ (fun u g _ => by
    split
    · exact .refl u
    · exact notify_floorMove _ rfl rfl u) s

/-- A new room's floor is built from entries of its members, whatever its floor held before (R92). -/
theorem buildFloor_home {s : State} (hz : InZone a Z sets s) (old : State) (affected : List Segment) :
    AtHome a Z sets (buildFloor sets old affected s a) ∧ Stays a Z sets s (buildFloor sets old affected s a) := by
  unfold buildFloor
  extract_lets gathered s1 s2 trimmed direct s3 s4 s5 s6
  have within : FloorWithin Z gathered := gatherFloor_within old affected hz.members
  have home1 : AtHome a Z sets s1 :=
    ⟨⟨hz.anchor, hz.members, hz.releases, hz.origins⟩, by
      rw [State.modFloor_floors, Tab.get_modify_self]
      exact within⟩
  have stays1 : Stays a Z sets s s1 :=
    ⟨rfl, fun _ hb => Tab.get_modify_ne _ _ (Ne.symm hb), fun _ _ => rfl, fun _ _ _ => rfl, fun _ _ => rfl,
      .of_same rfl rfl⟩
  have move2 : FloorMove a Z sets s1 s2 := trimSpeakers_floorMove _ s1
  have move3 : FloorMove a Z sets s2 s3 := by
    unfold s3
    split
    · exact .refl s2
    · refine .foldl _ (fun u i hi => requeueSpeaker_floorMove ?_ u) s2
      obtain ⟨e, he, rfl⟩ := List.mem_map.mp (List.mem_filter.mp hi).1
      exact within.1 e he
  have move4 : FloorMove a Z sets s3 s4 := modFloor_floorMove fun h => h.capHolders _
  have move5 : FloorMove a Z sets s4 s5 := by
    unfold s5
    split
    · exact removeRequests_floorMove ..
    · exact .refl s4
  have move6 : FloorMove a Z sets s5 s6 := by
    unfold s6
    split
    · exact suspendAll_floorMove s5
    · exact resumeAll_floorMove s5
  obtain ⟨home, stays⟩ := (((((move2.trans move3).trans move4).trans move5).trans move6).trans
    ((commitPriority_floorMove old s6).trans (autoAdvance_floorMove _))).run home1
  exact ⟨home, stays1.trans stays⟩

end

/-! ### The rooms that a commit works in -/

/-- Floors, mix states and trunks outside the segments `Z` stay. -/
structure Outside (Z : List Segment) (s t : State) : Prop where
  floors : ∀ b, b ∉ Z → t.floors.get b = s.floors.get b
  mixes : ∀ b, b ∉ Z → t.mixes.get b = s.mixes.get b
  trunks : ∀ k, k ∉ Z → t.trunks.get k = s.trunks.get k

section
variable {Z : List Segment} {sets : Sets}

theorem Outside.refl (s : State) : Outside Z s s := ⟨fun _ _ => rfl, fun _ _ => rfl, fun _ _ => rfl⟩

theorem Outside.trans {s t u : State} (h : Outside Z s t) (h' : Outside Z t u) : Outside Z s u where
  floors b hb := (h'.floors b hb).trans (h.floors b hb)
  mixes b hb := (h'.mixes b hb).trans (h.mixes b hb)
  trunks k hk := (h'.trunks k hk).trans (h.trunks k hk)

theorem Stays.outside {a : Segment} (ha : a ∈ Z) {s t : State} (h : Stays a Z sets s t) : Outside Z s t where
  floors b hb := h.floors b fun e => hb (e ▸ ha)
  mixes := h.mixes
  trunks := h.trunks

/-- An operation on the floor of one room leaves the release sets of another room at home. -/
theorem Stays.inZone {a b : Segment} {s t : State} (h : Stays a Z sets s t) (ht : InZone a Z sets t)
    (hb : InZone b Z sets s) : InZone b Z sets t := by
  by_cases hab : b = a
  · exact hab ▸ ht
  · have members : membersOf t b = membersOf s b := by rw [membersOf_of_rooms h.rooms]
    exact ⟨hb.anchor, members ▸ hb.members, fun hs => h.others hs b hab ▸ hb.releases hs, hb.origins⟩

theorem Stays.atHome {a b : Segment} {s t : State} (h : Stays a Z sets s t) (ht : AtHome a Z sets t)
    (hb : AtHome b Z sets s) : AtHome b Z sets t := by
  by_cases hab : b = a
  · exact hab ▸ ht
  · exact ⟨h.inZone ht.toInZone hb.toInZone, h.floors b hab ▸ hb.floor⟩

/-- Operations on the floors of the rooms `news`, one after another. -/
theorem homes_foldl {α : Type} {news : List Segment} {f : State → α → State} {l : List α} {s : State}
    (h : ∀ u, u.rooms = s.rooms → ∀ x ∈ l, ∃ a ∈ news, FloorMove a Z sets u (f u x))
    (home : ∀ a ∈ news, AtHome a Z sets s) :
    (∀ a ∈ news, AtHome a Z sets (l.foldl f s)) ∧ Outside Z s (l.foldl f s) := by
  induction l generalizing s with
  | nil => exact ⟨home, .refl s⟩
  | cons x l ih =>
    obtain ⟨a, ha, move⟩ := h s rfl x List.mem_cons_self
    obtain ⟨hat, stays⟩ := move.run (home a ha)
    obtain ⟨homes, outside⟩ := ih (s := f s x)
      (fun u hu y hy => h u (hu.trans stays.rooms) y (List.mem_cons_of_mem x hy))
      fun b hb => stays.atHome hat (home b hb)
    exact ⟨homes, (stays.outside (home a ha).anchor).trans outside⟩

/-- The floors of new rooms are built one after another (R92). -/
theorem foldl_buildFloor_home {news : List Segment} (old : State) (affected l : List Segment) (hl : ∀ a ∈ l, a ∈ news)
    {s t : State} (ht : l.foldl (buildFloor sets old affected) s = t) (home : ∀ a ∈ news, InZone a Z sets s) :
    (∀ a ∈ news, InZone a Z sets t) ∧ Outside Z s t ∧
      (∀ a ∈ news, a ∈ l ∨ FloorWithin Z (s.floors.get a) → FloorWithin Z (t.floors.get a)) ∧ Notes s t := by
  induction l generalizing s with
  | nil =>
    subst ht
    exact ⟨home, .refl s, fun a _ h => h.resolve_left (List.not_mem_nil), .of_same rfl rfl⟩
  | cons x l ih =>
    have hx := home x (hl x List.mem_cons_self)
    obtain ⟨built, stays⟩ := buildFloor_home hx old affected
    rw [List.foldl_cons] at ht
    generalize buildFloor sets old affected s x = u at built stays ht
    obtain ⟨zones, outside, floors, notes⟩ := ih (fun a ha => hl a (List.mem_cons_of_mem x ha)) ht
      fun b hb => stays.inZone built.toInZone (home b hb)
    refine ⟨zones, (stays.outside hx.anchor).trans outside, fun a ha h => floors a ha ?_, stays.notes.trans notes⟩
    by_cases hax : a = x
    · exact .inr (hax ▸ built.floor)
    · rw [stays.floors a hax]
      rcases h with h | h
      · exact .inl ((List.mem_cons.mp h).resolve_left hax)
      · exact .inr h

/-- The floor controller's share: the floors of the new rooms are made of entries of the moved segments (R92). -/
theorem commitFloors_home {affected news : List Segment} (ha : ∀ a ∈ affected, a ∈ Z) (old : State) {s : State}
    (home : ∀ a ∈ news, InZone a Z sets s) :
    (∀ a ∈ news, AtHome a Z sets (commitFloors sets old affected news s)) ∧
      Outside Z s (commitFloors sets old affected news s) ∧ Notes s (commitFloors sets old affected news s) := by
  unfold commitFloors
  extract_lets cleared
  have zones : ∀ a ∈ news, InZone a Z sets cleared := fun a h =>
    ⟨(home a h).anchor, (home a h).members, (home a h).releases, (home a h).origins⟩
  have cleared_outside : Outside Z s cleared :=
    ⟨fun b hb => by
      have : b ∉ affected := fun h => hb (ha b h)
      simp [cleared, this], fun _ _ => rfl, fun _ _ => rfl⟩
  obtain ⟨homes, outside, floors, notes⟩ := foldl_buildFloor_home old affected news (fun _ h => h) rfl zones
  exact ⟨fun a h => ⟨homes a h, floors a h (.inl h)⟩, cleared_outside.trans outside,
    .trans (t := cleared) (.of_same rfl rfl) notes⟩

/-! ### The mix engine's share (R159, R160) -/

theorem foldl_capRelease_home {news : List Segment} (l : List Segment) (hl : ∀ a ∈ l, a ∈ news)
    {s t : State} (ht : l.foldl (fun s a => capRelease a s) s = t) (home : ∀ a ∈ news, InZone a Z .current s) :
    (∀ a ∈ news, InZone a Z .current t) ∧ Outside Z s t ∧ t.floors = s.floors ∧ Notes s t := by
  induction l generalizing s with
  | nil =>
    subst ht
    exact ⟨home, .refl s, rfl, .of_same rfl rfl⟩
  | cons x l ih =>
    have hx := home x (hl x List.mem_cons_self)
    have move := capRelease_releaseMove (a := x) (Z := Z) s
    obtain ⟨zone, stays⟩ := move.run hx
    obtain ⟨zones, outside, floors, notes⟩ := ih (fun a ha => hl a (List.mem_cons_of_mem x ha)) ht
      fun b hb => stays.inZone zone (home b hb)
    exact ⟨zones, (stays.outside hx.anchor).trans outside, floors.trans move.floors, stays.notes.trans notes⟩

end

end Sys2Proof.Machine
end

section
/-! How far a commit has come: what the state holds when some of the shares are taken, in any order (R28 to R31, R56, R57,
R158, R159). -/

namespace Sys2Proof.Machine
open Sys2Proof.Safety

/-! ### The state between two shares -/

/-- The rooms that drain next and are reported ready, where the start test was taken after the mix engine's share (`late`), or
before it; `mixed` says that the mix engine's share is taken (R158; log entry 4). -/
def readyNext (s : State) (rp : Repartition) (mixed late : Bool) : List Segment :=
  let fresh := (newRooms s rp.target).contains
  let early := fun a => isEarly (s.mixes.get a)
  if late then (nextRooms s rp).filter fun a => fresh a || early a
  else
    ((nextRooms s rp).filter fun a => !fresh a && early a) ++
      if mixed then (nextRooms s rp).filter fresh else []

/-- The next repartition, once the start test is taken; `started` says whether the mix engine's share was taken before it
(R25, R30). -/
def nextPlan (s : State) (rp : Repartition) (mixed : Bool) (started : Option Bool) : Option Repartition :=
  match started with
  | none => none
  | some late =>
    if nextRooms s rp = [] then none
    else
      some { target := effectiveMap s, affected := nextRooms s rp, ready := readyNext s rp mixed late }

/-- The start test is taken and drains the room with anchor `a`. -/
def drains (s : State) (rp : Repartition) (started : Option Bool) (a : Segment) : Bool :=
  started.isSome && (nextRooms s rp).contains a

/-- The state `u` of a commit of the repartition `rp` in state `s`: whether the mix engine's share is taken, the start test,
and which trunks' shares. -/
structure Progress (s : State) (rp : Repartition) (mixed : Bool) (started : Option Bool) (taken : TrunkId → Bool)
    (u : State) : Prop where
  commit : onlyCommit s u
  walls : u.walls = (rebuilt rp s).walls
  rooms : ∀ a, u.rooms.get a =
    if drains s rp started a then ((rebuilt rp s).rooms.get a).map fun r => { r with status := .draining }
    else (rebuilt rp s).rooms.get a
  plan : u.repartition = nextPlan s rp mixed started
  holding : ∀ k, (u.trunks.get k).holding =
    (drains s rp started (anchorIn rp.target k) || !((movedBy s rp).contains k && taken k) && (s.trunks.get k).holding)
  intake : ∀ k, taken k = false → (u.trunks.get k).intake = (s.trunks.get k).intake
  made : mixed = true → ∀ a ∈ newRooms s rp.target, (u.mixes.get a).fade = 0 ∧ (u.mixes.get a).clip = false ∧
    (u.mixes.get a).phase = if drains s rp started a then .silent else .rising
  kept : ∀ a, (s.rooms.get a).isSome = true → a ∉ rp.affected →
    (u.mixes.get a).fade = (s.mixes.get a).fade ∧ (u.mixes.get a).clip = (s.mixes.get a).clip ∧
      (u.mixes.get a).phase = if drains s rp started a then drainedPhase (s.mixes.get a) else (s.mixes.get a).phase
  seats : ∀ i, (∀ k, ∀ e ∈ (s.trunks.get k).intake, e.seat ≠ i) → u.seats.get i = s.seats.get i
  slotMaps : ∀ a, a ∉ movedBy s rp → u.slotMaps.get a = s.slotMaps.get a
  ports : ∃ rest, u.ports = (sendAll (commitWallsSent rp s ++ commitRoomsSent rp s ++ rest) s).ports ∧
    (∀ n ∈ rest, isWallNotice n.2 = false) ∧
    rest.filter (fun n => isRoomNotice n.2) =
      if started.isSome then drainSent (rebuilt rp s) (nextRooms s rp) else []

section
variable {s u v : State} {rp : Repartition} {mixed : Bool} {started : Option Bool} {taken : TrunkId → Bool}

/-! ### What can be read off -/

theorem membersOf_eq_getD (s : State) (a : Segment) : membersOf s a = ((s.rooms.get a).map Room.members).getD [] := by
  unfold membersOf
  cases s.rooms.get a <;> rfl

theorem leadOf_eq_getD (s : State) (a : Segment) : leadOf s a = ((s.rooms.get a).map Room.lead).getD none := by
  unfold leadOf
  cases s.rooms.get a <;> rfl

/-- A drain touches neither members nor leads. -/
theorem Progress.room (h : Progress s rp mixed started taken u) {α : Type} {f : Room → α}
    (hf : ∀ r, f { r with status := .draining } = f r) (a : Segment) :
    (u.rooms.get a).map f = ((rebuilt rp s).rooms.get a).map f := by
  rw [h.rooms]
  split
  · rw [Option.map_map]
    exact congrFun (congrArg Option.map (funext hf)) _
  · rfl

theorem Progress.members (h : Progress s rp mixed started taken u) (a : Segment) :
    membersOf u a = membersOf (rebuilt rp s) a := by
  rw [membersOf_eq_getD, h.room fun _ => rfl, ← membersOf_eq_getD]

theorem Progress.lead (h : Progress s rp mixed started taken u) (a : Segment) : leadOf u a = leadOf (rebuilt rp s) a := by
  rw [leadOf_eq_getD, h.room fun _ => rfl, ← leadOf_eq_getD]

theorem Progress.clock (h : Progress s rp mixed started taken u) : u.clock = s.clock :=
  onlyCommit_clock h.commit

section
variable (hrooms : roomsOk s) (hrp : s.repartition = some rp)
include hrooms hrp

theorem Progress.roomOf (h : Progress s rp mixed started taken u) (g : Segment) :
    roomOf u g = anchorIn rp.target g := by
  rw [roomOf_congr h.members, roomOf_rebuilt hrooms hrp]

theorem Progress.isDraining (h : Progress s rp mixed started taken u) (a : Segment) :
    isDraining u a = drains s rp started a := by
  have steady := isDraining_rebuilt hrooms hrp a
  rw [Machine.isDraining] at steady ⊢
  rw [h.rooms]
  cases hd : drains s rp started a with
  | false => exact steady
  | true =>
    obtain ⟨_, hn⟩ := (Bool.and_eq_true _ _).mp hd
    have some_room := (isSome_rebuilt_iff hrooms hrp).mpr (mem_nextRooms_iff.mp (List.contains_iff_mem.mp hn)).1
    obtain ⟨r, hr⟩ := Option.isSome_iff_exists.mp some_room
    simp [hr]

end

/-! ### The shares -/

/-- The partition controller's share begins the commit (R29). -/
theorem progress_start (s : State) (rp : Repartition) :
    Progress s rp false none (fun _ => false) (commitPartition rp s) := by
  rw [commitPartition_sends]
  have frame := rebuilt_frame rp s
  have same : sendAll (commitWallsSent rp s ++ commitRoomsSent rp s) (rebuilt rp s) =
      { rebuilt rp s with ports := (sendAll (commitWallsSent rp s ++ commitRoomsSent rp s) s).ports } := by
    rw [sendAll_frame, sendAll_ports_congr (s := s)]
    · rw [frame]
    · rw [frame]
  have trunks : (rebuilt rp s).trunks = s.trunks := by rw [frame]
  have mixes : (rebuilt rp s).mixes = s.mixes := by rw [frame]
  rw [same]
  refine ⟨⟨by dsimp only; rw [frame], fun k => ?_⟩, rfl, fun a => rfl, rebuilt_repartition rp s, fun k => ?_, fun k _ => ?_,
    nofun, fun a _ _ => ?_, fun i _ => ?_, fun a _ => ?_, [], ?_, by simp, rfl⟩
  · dsimp only; rw [trunks]
  · dsimp only; rw [trunks]; simp [drains]
  · dsimp only; rw [trunks]
  · dsimp only; rw [mixes]; simp [drains]
  · dsimp only; rw [frame]
  · dsimp only; rw [frame]
  · rw [List.append_nil]

/-- Shares that keep rooms, walls and phases keep the progress. -/
theorem Progress.calm (h : Progress s rp mixed started taken u) (hc : Calm (movedBy s rp) u v)
    (hs : ∀ i, (∀ k, ∀ e ∈ (s.trunks.get k).intake, e.seat ≠ i) → v.seats.get i = u.seats.get i) :
    Progress s rp mixed started taken v where
  commit := onlyCommit_trans h.commit hc.commit
  walls := hc.walls.trans h.walls
  rooms a := by rw [hc.rooms, h.rooms]
  plan := hc.repartition.trans h.plan
  holding k := by rw [hc.trunks k]; exact h.holding k
  intake k hk := by rw [hc.trunks k]; exact h.intake k hk
  made hm a ha := by rw [hc.mixes a]; exact h.made hm a ha
  kept a ha hn := by rw [hc.mixes a]; exact h.kept a ha hn
  seats i hi := (hs i hi).trans (h.seats i hi)
  slotMaps a ha := (hc.slotMaps a ha).trans (h.slotMaps a ha)
  ports := by
    obtain ⟨rest, hp, hw, hr⟩ := h.ports
    obtain ⟨_, sent, hsent, hp'⟩ := hc.notes
    refine ⟨rest ++ sent, ?_, fun n hn => ?_, ?_⟩
    · rw [hp', ← List.append_assoc, sendAll_append _ sent]
      exact sendAll_ports_congr sent (by rw [sendAll_clock, h.clock]) hp
    · rcases List.mem_append.mp hn with hn | hn
      exacts [hw n hn, (hsent n hn).1]
    · rw [List.filter_append, hr, List.filter_eq_nil_iff.mpr fun n hn => by simp [(hsent n hn).2], List.append_nil]

/-! ### A trunk's share (R57) -/

theorem FloorFrame.seats {s t : State} (h : FloorFrame s t) : t.seats = s.seats := by
  rw [h.rest]

/-- An event of a seat changes no other seat's record (R58 to R61). -/
theorem seatEvent_seats {i j : SeatId} (hij : i ≠ j) (sets : Sets) (kind : EventKind) (s : State) :
    (seatEvent sets i kind s).seats.get j = s.seats.get j := by
  have own (f : Seat → Seat) (u : State) : (u.modSeat i f).seats.get j = u.seats.get j := Tab.get_modify_ne _ _ hij
  have same {u v : State} (h : FloorFrame u v) : v.seats.get j = u.seats.get j := by rw [h.seats]
  have offline (reason : FloorReason) : (takeOffline sets i reason s).seats.get j = s.seats.get j :=
    (same (dropSeat_floorFrame ..)).trans (own _ s)
  have marks : (markRefusal i s).seats.get j = s.seats.get j := same (markRefusal_floorFrame ..)
  cases kind with
  | hello =>
    unfold seatEvent hello
    dsimp only
    split
    · exact same (((dropSeat_floorFrame ..).trans (notify_floorFrame ..)).trans (endHandling_floorFrame ..))
    · exact (same (notify_floorFrame ..)).trans (own _ s)
  | bye =>
    unfold seatEvent bye
    dsimp only
    split
    · exact (same ((notify_floorFrame ..).trans (endHandling_floorFrame ..))).trans (offline _)
    · rfl
  | talk =>
    unfold seatEvent
    dsimp only
    split
    · rfl
    · split
      · exact same (talk_floorFrame ..)
      · exact marks
  | priorityDown =>
    unfold seatEvent
    dsimp only
    split
    · rfl
    · split
      · exact same (priorityDown_floorFrame ..)
      · exact marks
  | priorityUp =>
    unfold seatEvent
    dsimp only
    split
    · rfl
    · exact same (priorityUp_floorFrame ..)
  | nextKey =>
    unfold seatEvent
    dsimp only
    split
    · rfl
    · split
      · exact same (nextKey_floorFrame ..)
      · exact marks

theorem replay_seats {l : List HeldEvent} {i : SeatId} (hi : ∀ e ∈ l, e.seat ≠ i) (sets : Sets) (s : State) :
    (l.foldl (fun s e => seatEvent sets e.seat e.kind s) s).seats.get i = s.seats.get i := by
  induction l generalizing s with
  | nil => rfl
  | cons e l ih =>
    rw [List.foldl_cons, ih fun x hx => hi x (List.mem_cons_of_mem e hx),
      seatEvent_seats (hi e List.mem_cons_self)]

/-- A trunk's record as its share finds it: it stops holding, and its intake queue is empty (R57). -/
theorem Progress.released (h : Progress s rp mixed started taken u) {k : TrunkId} (hk : k ∈ movedBy s rp)
    (hd : drains s rp started (anchorIn rp.target k) = false) :
    Progress s rp mixed started (fun j => taken j || j == k)
      (u.modTrunk k fun r => { r with holding := false, intake := [] }) where
  commit := by
    refine onlyCommit_trans h.commit ⟨rfl, fun j => ?_⟩
    rw [State.modTrunk_trunks, Tab.get_modify]
    split <;> rfl
  walls := h.walls
  rooms := h.rooms
  plan := h.plan
  holding j := by
    by_cases hjk : k = j
    · subst hjk; simp [hd, hk]
    · have hkj : (j == k) = false := beq_false_of_ne (Ne.symm hjk)
      rw [State.modTrunk_trunks, Tab.get_modify_ne _ _ hjk, hkj, Bool.or_false]
      exact h.holding j
  intake j hj := by
    obtain ⟨htaken, hjk⟩ := Bool.or_eq_false_iff.mp hj
    rw [State.modTrunk_trunks, Tab.get_modify_ne _ _ (Ne.symm (ne_of_beq_false hjk))]
    exact h.intake j htaken
  made := h.made
  kept := h.kept
  seats := h.seats
  slotMaps := h.slotMaps
  ports := h.ports

/-- A trunk that keeps holding, or that no share concerns, keeps its intake queue (R57). -/
theorem Progress.untouched (h : Progress s rp mixed started taken u) {k : TrunkId}
    (hk : k ∈ movedBy s rp → drains s rp started (anchorIn rp.target k) = true) :
    Progress s rp mixed started (fun j => taken j || j == k) u :=
  { h with
    holding := fun j => by
      rw [h.holding j]
      by_cases hjk : j = k
      · subst hjk
        by_cases hm : j ∈ movedBy s rp
        · simp [hk hm]
        · simp [hm]
      · rw [beq_false_of_ne hjk, Bool.or_false]
    intake := fun j hj => h.intake j (Bool.or_eq_false_iff.mp hj).1 }

theorem Progress.trunk (hrooms : roomsOk s) (hrp : s.repartition = some rp) (h : Progress s rp mixed started taken u)
    (sets : Sets) {k : TrunkId} (hk : taken k = false) :
    Progress s rp mixed started (fun j => taken j || j == k) (commitTrunk sets (movedBy s rp) k u) := by
  have draining : Machine.isDraining u (Machine.roomOf u k) = drains s rp started (anchorIn rp.target k) := by
    rw [h.isDraining hrooms hrp, h.roomOf hrooms hrp]
  unfold commitTrunk
  rw [draining]
  split
  · next hc =>
    obtain ⟨hm, hd⟩ := (Bool.and_eq_true _ _).mp hc
    have stopped := h.released (List.contains_iff_mem.mp hm) (by simpa using hd)
    refine stopped.calm (.foldl (fun v e _ => seatEvent_calm ..) _) fun i hi => replay_seats (fun e he => ?_) ..
    rw [h.intake k hk] at he
    exact hi k e he
  · next hc =>
    exact h.untouched fun hm => by simpa [hm] using hc

/-! ### The start test (R30) -/

theorem drains_some (s : State) (rp : Repartition) (late : Bool) (a : Segment) :
    drains s rp (some late) a = (nextRooms s rp).contains a := by simp [drains]

theorem drains_none (s : State) (rp : Repartition) (a : Segment) : drains s rp none a = false := by simp [drains]

theorem drainBegunBut_mix {uncreated l : List Segment} {a : Segment} (h : a ∉ uncreated) (u : State) :
    (drainBegunBut uncreated u l).mixes.get a =
      { u.mixes.get a with phase := if l.contains a then drainedPhase (u.mixes.get a) else (u.mixes.get a).phase } := by
  have made : (l.filter fun a => !uncreated.contains a).contains a = l.contains a := by
    rw [Bool.eq_iff_iff]
    simp [h]
  simp only [drainBegunBut, Tab.get_ofFn, made]
  split <;> rfl

theorem drainedPhase_congr {m n : MixRoom} (hp : m.phase = n.phase) (hf : m.fade = n.fade) :
    drainedPhase m = drainedPhase n := by
  rw [drainedPhase, hp, hf, drainedPhase]

theorem isEarly_congr {m n : MixRoom} (hp : m.phase = n.phase) (hf : m.fade = n.fade) : isEarly m = isEarly n := by
  rw [isEarly, hp, hf, isEarly]

section
variable (hrooms : roomsOk s) (hrp : s.repartition = some rp)
include hrooms hrp

/-- A room of the target map that is not new was a room already. -/
theorem unaffected_of_not_new {a : Segment} (ha : anchorIn rp.target a = a) (hn : a ∉ newRooms s rp.target) :
    (s.rooms.get a).isSome = true ∧ a ∉ rp.affected := by
  have hm : a ∉ movedBy s rp := fun hm => hn ((mem_news_iff hrooms hrp).mpr ⟨ha, hm⟩)
  have same := not_not.mp (mt (mem_movedBy_iff hrooms hrp).mpr hm)
  exact ⟨(isSome_room_iff hrooms.1).mpr (by rw [← anchorIn_congr same, ha]),
    fun h => hm ((mem_affected_iff_moved hrooms hrp).mp h).2⟩

theorem not_new_of_unaffected {a : Segment} (ha : (s.rooms.get a).isSome = true) (hn : a ∉ rp.affected) :
    a ∉ newRooms s rp.target := fun h =>
  not_moved_of_unaffected hrooms hrp ha hn ((mem_news_iff hrooms hrp).mp h).2

/-- Before the start test the hall stands as the partition controller's share left it. -/
theorem Progress.startTest_eq (h : Progress s rp mixed none taken u) (uncreated : List Segment) :
    startTest uncreated u =
      if nextRooms s rp = [] then u
      else sendAll (drainSent (rebuilt rp s) (nextRooms s rp)) (drainBegunBut uncreated u (nextRooms s rp)) := by
  have rooms : u.rooms = (rebuilt rp s).rooms := Tab.ext_get fun a => by rw [h.rooms, drains_none, if_neg nofun]
  have effective : effectiveMap u = effectiveMap (rebuilt rp s) := by rw [effectiveMap, h.walls, effectiveMap]
  have nothing : NothingToStart u ↔ NothingToStart (rebuilt rp s) := by
    rw [NothingToStart, NothingToStart, effective, committedMap, h.walls, h.plan, rebuilt_repartition]
    rfl
  have starts := rebuilt_starts_iff hrooms hrp
  split
  · next hnil => exact startTest_nothing (nothing.mpr (not_not.mp fun hn => starts.mp hn hnil)) _
  · next hnext =>
    have affected : affectedRooms u (effectiveMap u) = nextRooms s rp := by
      rw [← affectedRooms_partitioned hrooms hrp, effective, rebuilt_of_next hrooms hrp hnext,
        affectedRooms_of_rooms (rooms.trans (rebuilt_rooms rp s) : u.rooms = (partitioned rp s).rooms)]
    have sent : drainSent u = drainSent (rebuilt rp s) := by
      funext l
      rw [drainSent, drainSent, membersOf_of_rooms rooms, leadOf_of_rooms rooms]
    rw [startTest_drain (mt nothing.mp (starts.mpr hnext)) (affected.symm ▸ hnext), affected, sent]

/-- The rooms that are ready as soon as the start test drains them (R158). -/
theorem Progress.ready (h : Progress s rp mixed none taken u) :
    (((nextRooms s rp).filter fun a => !(if mixed then [] else newRooms s rp.target).contains a).filter fun a =>
      isEarly (u.mixes.get a)) = readyNext s rp mixed mixed := by
  have old (a : Segment) (ha : a ∈ nextRooms s rp) (hn : a ∉ newRooms s rp.target) :
      isEarly (u.mixes.get a) = isEarly (s.mixes.get a) := by
    obtain ⟨hsome, haff⟩ := unaffected_of_not_new hrooms hrp (mem_nextRooms_iff.mp ha).1 hn
    obtain ⟨hfade, _, hphase⟩ := h.kept a hsome haff
    rw [drains_none, if_neg nofun] at hphase
    exact isEarly_congr hphase hfade
  rw [List.filter_filter]
  cases mixed with
  | true =>
    refine List.filter_congr fun a ha => ?_
    by_cases hn : a ∈ newRooms s rp.target
    · obtain ⟨hfade, _, hphase⟩ := h.made rfl a hn
      rw [drains_none, if_neg nofun] at hphase
      simp [isEarly, hfade, hphase, hn]
    · simp [old a ha hn, hn]
  | false =>
    simp only [readyNext, Bool.false_eq_true, if_false, List.append_nil]
    refine List.filter_congr fun a ha => ?_
    by_cases hn : a ∈ newRooms s rp.target
    · simp [hn]
    · simp [old a ha hn, hn]

theorem Progress.startTest (h : Progress s rp mixed none taken u) :
    Progress s rp mixed (some mixed) taken (startTest (if mixed then [] else newRooms s rp.target) u) := by
  have frame := startTest_wallFrame (if mixed then [] else newRooms s rp.target) u
  have commit := onlyCommit_trans h.commit frame.onlyCommit
  have ready := h.ready hrooms hrp
  rw [h.startTest_eq hrooms hrp] at commit ⊢
  by_cases hnext : nextRooms s rp = []
  · have drains_eq (started : Option Bool) (a : Segment) : drains s rp started a = false := by simp [drains, hnext]
    have plan : nextPlan s rp mixed (some mixed) = nextPlan s rp mixed none := by simp [nextPlan, hnext]
    rw [if_pos hnext]
    obtain ⟨rest, hp, hw, hr⟩ := h.ports
    refine ⟨h.commit, h.walls, ?_, plan ▸ h.plan, ?_, h.intake, ?_, ?_, h.seats, h.slotMaps, rest, hp, hw, ?_⟩
    · exact fun a => by rw [h.rooms, drains_eq, drains_eq]
    · exact fun k => by rw [h.holding, drains_eq, drains_eq]
    · exact fun hm a ha => by rw [drains_eq]; exact drains_eq none a ▸ h.made hm a ha
    · exact fun a ha hn => by rw [drains_eq]; exact drains_eq none a ▸ h.kept a ha hn
    · rw [hr, hnext]; rfl
  · rw [if_neg hnext] at commit ⊢
    have made : mixed = true → ∀ a, a ∉ if mixed then [] else newRooms s rp.target := fun hm a => by simp [hm]
    have kept (a : Segment) (ha : a ∉ newRooms s rp.target) : a ∉ if mixed then [] else newRooms s rp.target := by
      cases mixed <;> simp [ha]
    generalize (if mixed then [] else newRooms s rp.target) = uncreated at ready commit made kept ⊢
    have effective : effectiveMap u = effectiveMap s := by
      rw [effectiveMap, h.walls, ← effectiveMap, effectiveMap_rebuilt]
    have named (k : TrunkId) : ((nextRooms s rp).any fun a => (membersOf u a).contains k) =
        (nextRooms s rp).contains (anchorIn rp.target k) := by
      rw [Bool.eq_iff_iff]
      simp [h.members, mem_members_rebuilt hrooms hrp]
    have undrained (a : Segment) : drains s rp none a = false := rfl
    refine ⟨commit, ?_, fun a => ?_, ?_, fun k => ?_, fun k hk => ?_, fun hm a ha => ?_, fun a ha hn => ?_, fun i hi => ?_,
      fun a ha => ?_, ?_⟩
    · rw [sendAll_walls]
      exact h.walls
    · rw [sendAll_rooms, drainBegunBut, Tab.get_ofFn, h.rooms, drains_some]
      rfl
    · rw [sendAll_repartition, drainBegunBut, nextPlan, if_neg hnext, effective, ready]
    · rw [sendAll_trunks, drainBegunBut, Tab.get_ofFn, drains_some, named, h.holding, undrained, Bool.false_or,
        Bool.or_comm]
    · rw [sendAll_trunks, drainBegunBut, Tab.get_ofFn]
      exact h.intake k hk
    · obtain ⟨hfade, hclip, hphase⟩ := h.made hm a ha
      rw [undrained, if_neg nofun] at hphase
      rw [sendAll_mixes, drainBegunBut_mix (made hm a)]
      exact ⟨hfade, hclip, by simp [drains_some, drainedPhase, hphase, hfade]⟩
    · obtain ⟨hfade, hclip, hphase⟩ := h.kept a ha hn
      rw [undrained, if_neg nofun] at hphase
      rw [sendAll_mixes, drainBegunBut_mix (kept a (not_new_of_unaffected hrooms hrp ha hn)), drains_some,
        drainedPhase_congr hphase hfade, ← hphase]
      exact ⟨hfade, hclip, rfl⟩
    · rw [sendAll_frame]
      exact h.seats i hi
    · rw [sendAll_frame]
      exact h.slotMaps a ha
    · obtain ⟨rest, hp, hw, hr⟩ := h.ports
      refine ⟨rest ++ drainSent (rebuilt rp s) (nextRooms s rp), ?_, fun n hn => ?_, ?_⟩
      · rw [← List.append_assoc, sendAll_append _ (drainSent _ _)]
        exact sendAll_ports_congr _ (by rw [sendAll_clock]; exact h.clock) hp
      · rcases List.mem_append.mp hn with hn | hn
        · exact hw n hn
        · obtain ⟨a, _, rfl⟩ := List.mem_map.mp hn
          rfl
      · rw [List.filter_append, hr, List.filter_eq_self.mpr fun n hn => ?_]
        · rfl
        · obtain ⟨a, _, rfl⟩ := List.mem_map.mp hn
          rfl

/-! ### The mix engine's share (R159, R160) -/

omit hrooms hrp in
theorem foldl_reportReady {l : List Segment} {q : Repartition} {v : State} (hq : v.repartition = some q) (hl : l.Nodup)
    (ha : ∀ a ∈ l, a ∈ q.affected) (hr : ∀ a ∈ l, a ∉ q.ready) :
    l.foldl (fun s a => reportReady a s) v = v.setRepartition (some { q with ready := q.ready ++ l }) := by
  induction l generalizing v q with
  | nil => rw [List.foldl_nil, List.append_nil, ← hq]; rfl
  | cons a l ih =>
    obtain ⟨hal, hl⟩ := List.nodup_cons.mp hl
    have first : reportReady a v = v.setRepartition (some { q with ready := q.ready ++ [a] }) := by
      rw [reportReady_eq, hq, Option.map_some, if_pos ⟨ha a (by simp), hr a (by simp)⟩]
    rw [List.foldl_cons, first, ih (q := { q with ready := q.ready ++ [a] }) rfl hl (fun b hb => ha b (by simp [hb]))
      fun b hb => ?_]
    · simp [State.setRepartition]
    · have hba : b ≠ a := fun e => hal (e ▸ hb)
      simp [hr b (by simp [hb]), hba]

omit hrooms hrp in
theorem newRooms_eq_filter (s : State) (target : WallMap) : ∃ p, newRooms s target = allSegments.filter p :=
  ⟨_, by rw [newRooms, anchorsOf, List.filter_filter]⟩

omit hrooms hrp in
/-- The new rooms that drain next. -/
theorem news_filter_drains (late : Bool) :
    ((newRooms s rp.target).filter fun a => drains s rp (some late) a) =
      (nextRooms s rp).filter (newRooms s rp.target).contains := by
  obtain ⟨p, hp⟩ := newRooms_eq_filter s rp.target
  rw [hp, nextRooms, List.filter_filter, List.filter_filter]
  refine List.filter_congr fun a _ => ?_
  rw [Bool.eq_iff_iff]
  simp only [drains_some, Bool.and_eq_true, List.contains_iff_mem, mem_nextRooms_iff, List.mem_filter, allSegments,
    List.mem_finRange, true_and, beq_iff_eq, bne_iff_ne]
  tauto

omit hrooms hrp in
theorem Calm.setRepartition {Z : List Segment} (h : Calm Z u v) (q : Option Repartition) :
    Calm Z (u.setRepartition q) (v.setRepartition q) where
  commit := ⟨congrArg (fun t => t.setRepartition q) h.commit.1, h.commit.2⟩
  walls := h.walls
  rooms := h.rooms
  repartition := rfl
  trunks := h.trunks
  mixes := h.mixes
  slotMaps := h.slotMaps
  notes := by
    obtain ⟨hc, sent, hs, hp⟩ := h.notes
    exact ⟨hc, sent, hs, hp.trans (sendAll_ports_congr (s := u) (t := u.setRepartition q) sent rfl rfl).symm⟩

/-- The mix states that the mix engine makes of those it finds (R159, R160). -/
def remade (affected news : List Segment) (u : State) : Tab 6 MixRoom :=
  let entries := affected.flatMap fun a => (u.mixes.get a).release
  Tab.ofFn fun a =>
    if news.contains a then newMix u a entries else if affected.contains a then MixRoom.atReset else u.mixes.get a

omit hrooms hrp in
theorem commitMix_calm {Z : List Segment} (affected news : List Segment) (u : State) :
    Calm Z (u.setMixes (remade affected news u))
      (news.foldl (fun s a => capRelease a s) (u.setMixes (remade affected news u))) :=
  (FloorFrame.foldl (fun s a => capRelease_floorFrame a s) news _).toSeat.calm
    (foldl_capRelease_home (Z := allSegments) news (fun _ h => h) rfl fun a _ => (atHome_all a .current _).toInZone).2.2.2

/-- The repartition once the mix engine has reported the new rooms that drain (R158). -/
theorem Progress.reported (h : Progress s rp false started taken u) (hs : started ≠ some true) {v : State}
    (hv : v.repartition = u.repartition) :
    ((newRooms s rp.target).filter fun a => Machine.isDraining u a).foldl (fun s a => reportReady a s) v =
      v.setRepartition (nextPlan s rp true started) := by
  simp only [h.isDraining hrooms hrp]
  have plan := hv.trans h.plan
  have unchanged (hd : ∀ a, drains s rp started a = false) (hp : nextPlan s rp true started = nextPlan s rp false started) :
      ((newRooms s rp.target).filter fun a => drains s rp started a).foldl (fun s a => reportReady a s) v =
        v.setRepartition (nextPlan s rp true started) := by
    rw [hp, ← plan, List.filter_eq_nil_iff.mpr fun a _ => by simp [hd]]
    rfl
  cases started with
  | none => exact unchanged (fun _ => rfl) rfl
  | some late =>
    obtain rfl : late = false := by simpa using hs
    by_cases hnext : nextRooms s rp = []
    · exact unchanged (fun a => by simp [drains, hnext]) (by simp [nextPlan, hnext])
    · rw [nextPlan, if_neg hnext] at plan
      rw [news_filter_drains, foldl_reportReady plan]
      · simp [nextPlan, hnext, readyNext]
      · exact ((List.nodup_finRange 6).filter _).filter _
      · exact fun a ha => (List.mem_filter.mp ha).1
      · intro a ha hr
        have fresh := (List.mem_filter.mp ha).2
        simp only [readyNext, Bool.false_eq_true, if_false, List.append_nil] at hr
        have := (List.mem_filter.mp hr).2
        rw [fresh] at this
        exact absurd this nofun

theorem Progress.commitMix_eq (h : Progress s rp false started taken u) (hs : started ≠ some true) :
    commitMix rp.affected (newRooms s rp.target) u =
      (((newRooms s rp.target).foldl (fun s a => capRelease a s)
        (u.setMixes (remade rp.affected (newRooms s rp.target) u)))).setRepartition (nextPlan s rp true started) :=
  h.reported hrooms hrp hs (commitMix_calm (Z := allSegments) ..).repartition

theorem Progress.mix (h : Progress s rp false started taken u) (hs : started ≠ some true) :
    Progress s rp true started taken (commitMix rp.affected (newRooms s rp.target) u) := by
  have calm := (commitMix_calm (Z := movedBy s rp) rp.affected (newRooms s rp.target) u)
  have made : Progress s rp true started taken
      ((u.setMixes (remade rp.affected (newRooms s rp.target) u)).setRepartition (nextPlan s rp true started)) := by
    refine ⟨?_, h.walls, h.rooms, rfl, h.holding, h.intake, fun _ a ha => ?_, fun a ha hn => ?_, h.seats, h.slotMaps,
      h.ports⟩
    · exact ⟨congrArg (fun t => (t.setMixes (remade rp.affected (newRooms s rp.target) u)).setRepartition
        (nextPlan s rp true started)) h.commit.1, h.commit.2⟩
    · have new : (remade rp.affected (newRooms s rp.target) u).get a =
          newMix u a (rp.affected.flatMap fun a => (u.mixes.get a).release) := by
        simp [remade, ha]
      change ((remade rp.affected (newRooms s rp.target) u).get a).fade = 0 ∧
        ((remade rp.affected (newRooms s rp.target) u).get a).clip = false ∧
          ((remade rp.affected (newRooms s rp.target) u).get a).phase = _
      rw [new, newMix, h.isDraining hrooms hrp]
      exact ⟨rfl, rfl, rfl⟩
    · have old : (remade rp.affected (newRooms s rp.target) u).get a = u.mixes.get a := by
        simp [remade, not_new_of_unaffected hrooms hrp ha hn, hn]
      change ((remade rp.affected (newRooms s rp.target) u).get a).fade = _ ∧
        ((remade rp.affected (newRooms s rp.target) u).get a).clip = _ ∧
          ((remade rp.affected (newRooms s rp.target) u).get a).phase = _
      rw [old]
      exact h.kept a ha hn
  rw [h.commitMix_eq hrooms hrp hs]
  exact made.calm (calm.setRepartition _) fun i _ => by
    have := (FloorFrame.foldl (fun s a => capRelease_floorFrame a s) (newRooms s rp.target)
      (u.setMixes (remade rp.affected (newRooms s rp.target) u))).seats
    change Tab.get (State.seats (List.foldl _ _ _)) i = _
    rw [this]
    rfl

end

end

end Sys2Proof.Machine
end

section
/-! A commit rebuilds the room table, leaves the rest alone and starts what the walls ask for next (R15, R17, R18, R25 to
R31, R56, R158, R159). -/

namespace Sys2Proof.Machine
open Sys2Proof.Safety

/-! ### What a commit leaves alone outside the moved segments -/

/-- Where the intake queues hold events of their own seats alone: what the shares leave alone, and that the new rooms hold
entries of the moved segments alone, their floors once the floor controller's share is taken (R92, R160). -/
structure Confined (s : State) (rp : Repartition) (sets : Sets) (floored : Prop) (u : State) : Prop where
  floors : ∀ b, b ∉ movedBy s rp → u.floors.get b = s.floors.get b
  mixes : ∀ b, b ∉ movedBy s rp → u.mixes.get b = { s.mixes.get b with phase := (u.mixes.get b).phase }
  trunks : ∀ k, k ∉ movedBy s rp → u.trunks.get k = { s.trunks.get k with holding := (u.trunks.get k).holding }
  zones : ∀ a ∈ newRooms s rp.target, InZone a (movedBy s rp) sets u
  built : floored → ∀ a ∈ newRooms s rp.target, FloorWithin (movedBy s rp) (u.floors.get a)

section
variable {s u v : State} {rp : Repartition} {sets sets' : Sets} {floored floored' : Prop}

theorem Confined.outside (h : Confined s rp sets floored u) (ho : Outside (movedBy s rp) u v)
    (zones : ∀ a ∈ newRooms s rp.target, InZone a (movedBy s rp) sets' v)
    (built : floored' → ∀ a ∈ newRooms s rp.target, FloorWithin (movedBy s rp) (v.floors.get a)) :
    Confined s rp sets' floored' v where
  floors b hb := (ho.floors b hb).trans (h.floors b hb)
  mixes b hb := by rw [ho.mixes b hb]; exact h.mixes b hb
  trunks k hk := by rw [ho.trunks k hk]; exact h.trunks k hk
  zones := zones
  built := built

/-- The booth allocator and the tap table touch no floor, no release set and no trunk. -/
theorem Confined.booths (h : Confined s rp sets floored u) (hf : BoothFrame u v) : Confined s rp sets floored v := by
  have floors : v.floors = u.floors := by rw [hf.rest]
  have mixes : v.mixes = u.mixes := by rw [hf.rest]
  have trunks : v.trunks = u.trunks := by rw [hf.rest]
  have members : membersOf v = membersOf u := membersOf_of_rooms (by rw [hf.rest])
  refine h.outside ⟨fun b _ => by rw [floors], fun b _ => by rw [mixes], fun k _ => by rw [trunks]⟩ (fun a ha => ?_)
    fun hfl a ha => by rw [floors]; exact h.built hfl a ha
  obtain ⟨anchor, mem, releases, origins⟩ := h.zones a ha
  exact ⟨anchor, by rw [members]; exact mem, by rw [mixes]; exact releases, origins⟩

/-- The start test changes phases, held trunks and statuses. -/
theorem Confined.walls (h : Confined s rp sets floored u) (hf : WallFrame u v)
    (members : ∀ a, membersOf v a = membersOf u a) : Confined s rp sets floored v where
  floors b hb := by rw [hf.rest]; exact h.floors b hb
  mixes b hb := by rw [hf.mixes b, h.mixes b hb]
  trunks k hk := by rw [hf.trunks k, h.trunks k hk]
  zones a ha := by
    obtain ⟨anchor, mem, releases, origins⟩ := h.zones a ha
    exact ⟨anchor, by rw [members]; exact mem, by rw [hf.mixes a]; exact releases, origins⟩
  built hfl a ha := by rw [hf.rest]; exact h.built hfl a ha

section
variable (hrooms : roomsOk s) (hrp : s.repartition = some rp)
include hrooms hrp

theorem affected_moved {a : Segment} (h : a ∈ rp.affected) : a ∈ movedBy s rp :=
  ((mem_affected_iff_moved hrooms hrp).mp h).2

theorem new_moved {a : Segment} (h : a ∈ newRooms s rp.target) : a ∈ movedBy s rp :=
  ((mem_news_iff hrooms hrp).mp h).2

theorem Progress.members_moved {mixed : Bool} {started : Option Bool} {taken : TrunkId → Bool}
    (h : Progress s rp mixed started taken u) {a g : Segment} (ha : a ∈ newRooms s rp.target) (hg : g ∈ membersOf u a) :
    g ∈ movedBy s rp :=
  moved_of_mem_membersOf hrooms hrp ha (h.members a ▸ hg)

theorem confined_start : Confined s rp (.before (roomOf s)) False (commitPartition rp s) := by
  have started := progress_start s rp
  have frame : commitPartition rp s =
      { s with
        walls := (commitPartition rp s).walls
        rooms := (commitPartition rp s).rooms
        repartition := (commitPartition rp s).repartition
        ports := (commitPartition rp s).ports } := by
    rw [commitPartition_sends, sendAll_frame, rebuilt_frame]
  exact
    { floors := fun b _ => by rw [frame]
      mixes := fun b _ => by rw [frame]
      trunks := fun k _ => by rw [frame]
      zones := fun a ha =>
        ⟨new_moved hrooms hrp ha, fun g hg => started.members_moved hrooms hrp ha hg, nofun,
          fun room h g hg => by obtain rfl := Sets.before.inj h; exact roomOf_mem_moved hrooms hrp hg⟩
      built := False.elim }

theorem Confined.floor (h : Confined s rp sets floored u) (old : State) :
    Confined s rp sets True (commitFloors sets old rp.affected (newRooms s rp.target) u) := by
  obtain ⟨homes, outside, _⟩ := commitFloors_home (fun a ha => affected_moved hrooms hrp ha) old h.zones
  exact h.outside outside (fun a ha => (homes a ha).toInZone) fun _ a ha => (homes a ha).floor

/-- The mix engine gathers the entries of the new rooms' members (R160). -/
theorem Confined.mix {started : Option Bool} {taken : TrunkId → Bool} (h : Confined s rp sets floored u)
    (hp : Progress s rp false started taken u) (hs : started ≠ some true) :
    Confined s rp .current floored (commitMix rp.affected (newRooms s rp.target) u) := by
  have remade_outside : Outside (movedBy s rp) u (u.setMixes (remade rp.affected (newRooms s rp.target) u)) :=
    ⟨fun _ _ => rfl, fun b hb => by
      have hn : b ∉ newRooms s rp.target := fun hn => hb (new_moved hrooms hrp hn)
      have ha : b ∉ rp.affected := fun ha => hb (affected_moved hrooms hrp ha)
      simp [remade, hn, ha], fun _ _ => rfl⟩
  have remade_zones : ∀ a ∈ newRooms s rp.target,
      InZone a (movedBy s rp) .current (u.setMixes (remade rp.affected (newRooms s rp.target) u)) := fun a ha =>
    ⟨new_moved hrooms hrp ha, fun g hg => hp.members_moved hrooms hrp ha hg, fun _ e he => by
      have made : (u.setMixes (remade rp.affected (newRooms s rp.target) u)).mixes.get a =
          newMix u a (rp.affected.flatMap fun a => (u.mixes.get a).release) := by
        simp [remade, ha]
      rw [made] at he
      have := (List.mem_filter.mp (mem_sortBy.mp he)).2
      exact hp.members_moved hrooms hrp ha (List.contains_iff_mem.mp this), nofun⟩
  obtain ⟨zones, outside, floors, _⟩ := foldl_capRelease_home (newRooms s rp.target) (fun _ h => h) rfl remade_zones
  rw [hp.commitMix_eq hrooms hrp hs]
  generalize List.foldl (fun s a => capRelease a s) _ _ = w at zones outside floors ⊢
  have through := remade_outside.trans outside
  exact h.outside ⟨through.floors, through.mixes, through.trunks⟩
    (fun a ha => ⟨(zones a ha).anchor, (zones a ha).members, (zones a ha).releases, (zones a ha).origins⟩)
    fun hf a ha => by
      change FloorWithin _ (w.floors.get a)
      rw [floors]
      exact h.built hf a ha

/-- A trunk replays events of its own seats, in the new room of its segment (R57). -/
theorem Confined.trunk {mixed : Bool} {started : Option Bool} {taken : TrunkId → Bool} (h : Confined s rp sets True u)
    (hp : Progress s rp mixed started taken u) {k : TrunkId} (hk : taken k = false)
    (home : ∀ e ∈ (s.trunks.get k).intake, segmentOf e.seat = k) :
    Confined s rp sets True (commitTrunk sets (movedBy s rp) k u) := by
  unfold commitTrunk
  split
  · next hc =>
    have hm := List.contains_iff_mem.mp ((Bool.and_eq_true _ _).mp hc).1
    have stopped : Outside (movedBy s rp) u (u.modTrunk k fun r => { r with holding := false, intake := [] }) :=
      ⟨fun _ _ => rfl, fun _ _ => rfl, fun j hj => Tab.get_modify_ne _ _ fun e => hj (e ▸ hm)⟩
    have stopped_homes : ∀ a ∈ newRooms s rp.target,
        AtHome a (movedBy s rp) sets (u.modTrunk k fun r => { r with holding := false, intake := [] }) := fun a ha =>
      have z := h.zones a ha
      ⟨⟨z.anchor, z.members, z.releases, z.origins⟩, h.built trivial a ha⟩
    have moves : ∀ w, w.rooms = (u.modTrunk k fun r => { r with holding := false, intake := [] }).rooms →
        ∀ e ∈ (u.trunks.get k).intake, ∃ a ∈ newRooms s rp.target,
          FloorMove a (movedBy s rp) sets w (seatEvent sets e.seat e.kind w) := fun w hw e he => by
      rw [hp.intake k hk] at he
      have hseg := home e he
      have room : seatRoom w e.seat = anchorIn rp.target k := by
        rw [seatRoom, hseg, roomOf_of_rooms hw]
        exact hp.roomOf hrooms hrp k
      refine ⟨anchorIn rp.target k, anchorIn_mem_news hrooms hrp hm, room ▸ ?_⟩
      exact seatEvent_floorMove (hseg.symm ▸ hm) e.kind w
    obtain ⟨homes, outside⟩ := homes_foldl moves stopped_homes
    exact h.outside (stopped.trans outside) (fun a ha => (homes a ha).toInZone) fun _ a ha => (homes a ha).floor
  · exact h

end

end

/-! ### The shares in their order (R29, R57; log entry 4) -/

/-- Whether the start test is among the shares `done`, and then whether the mix engine's share stands before it. -/
def startedAt (done : List CommitShare) : Option Bool :=
  if .startTest ∈ done then some ((done.takeWhile fun c => c != .startTest).contains .mix) else none

theorem startedAt_none {done : List CommitShare} (h : .startTest ∉ done) : startedAt done = none := if_neg h

theorem startedAt_startTest {done : List CommitShare} (h : .startTest ∉ done) :
    startedAt (done ++ [.startTest]) = some (done.contains .mix) := by
  have all : ∀ c ∈ done, (c != .startTest) = true := fun c hc => bne_iff_ne.mpr fun e => h (e ▸ hc)
  rw [startedAt, if_pos (by simp), List.takeWhile_append_of_pos all]
  simp

theorem startedAt_append (done : List CommitShare) {c : CommitShare} (hc : c ≠ .startTest) :
    startedAt (done ++ [c]) = startedAt done := by
  have mem : (CommitShare.startTest ∈ done ++ [c]) ↔ .startTest ∈ done := by simp [Ne.symm hc]
  simp only [startedAt, mem]
  split
  · next h =>
    rw [List.takeWhile_append, if_neg]
    intro e
    have all := List.takeWhile_eq_self_iff.mp ((List.takeWhile_sublist _).eq_of_length e)
    simpa using all _ h
  · rfl

theorem startedAt_ne_late {done : List CommitShare} (h : .mix ∉ done) : startedAt done ≠ some true := by
  unfold startedAt
  split
  · intro e
    exact h (List.takeWhile_subset _ (List.contains_iff_mem.mp (Option.some.inj e)))
  · nofun

/-- A commit of which the shares `done` are taken. -/
structure Underway (s : State) (rp : Repartition) (done : List CommitShare) (u : State) : Prop where
  progress : Progress s rp (done.contains .mix) (startedAt done) (fun k => done.contains (.trunk k)) u
  confined : (∀ k, ∀ e ∈ (s.trunks.get k).intake, segmentOf e.seat = k) →
    Confined s rp (setsAfter s done) (.floor ∈ done) u

section
variable {s u v : State} {rp : Repartition} {done : List CommitShare} (hrooms : roomsOk s) (hrp : s.repartition = some rp)

/-- A share that is none of the mix engine's, a trunk's or the start test. -/
theorem Underway.calm (h : Underway s rp done u) {c : CommitShare} (hm : c ≠ .mix) (hs : c ≠ .startTest)
    (ht : ∀ k, c ≠ .trunk k) (hc : Calm (movedBy s rp) u v) (seats : v.seats = u.seats)
    (confined : Confined s rp (setsAfter s done) (.floor ∈ done) u →
      Confined s rp (setsAfter s done) (.floor ∈ done ++ [c]) v) : Underway s rp (done ++ [c]) v := by
  have mix : (done ++ [c]).contains .mix = done.contains .mix := by simp [Ne.symm hm]
  have trunk (k : TrunkId) : (done ++ [c]).contains (.trunk k) = done.contains (.trunk k) := by simp [Ne.symm (ht k)]
  refine ⟨?_, fun home => ?_⟩
  · simp only [mix, trunk, startedAt_append done hs]
    exact h.progress.calm hc fun i _ => by rw [seats]
  · rw [setsAfter_append s done hm]
    exact confined (h.confined home)

include hrooms hrp

theorem underway_start : Underway s rp [] (commitPartition rp s) where
  progress := progress_start s rp
  confined _ := by
    have h := confined_start hrooms hrp
    exact ⟨h.floors, h.mixes, h.trunks, h.zones, fun hf => absurd hf List.not_mem_nil⟩

theorem Underway.mix (h : Underway s rp done u) (hc : .mix ∉ done) :
    Underway s rp (done ++ [.mix]) (commitMix rp.affected (newRooms s rp.target) u) := by
  have progress := h.progress
  rw [show done.contains .mix = false by simpa using hc] at progress
  refine ⟨?_, fun home => ?_⟩
  · have := progress.mix hrooms hrp (startedAt_ne_late hc)
    simpa [startedAt_append] using this
  · have := (h.confined home).mix hrooms hrp progress (startedAt_ne_late hc)
    simpa [setsAfter_mix] using this

theorem Underway.startTest (h : Underway s rp done u) (hc : .startTest ∉ done) :
    Underway s rp (done ++ [.startTest]) (startTest ((setsAfter s done).uncreated (newRooms s rp.target)) u) := by
  have progress := h.progress
  rw [startedAt_none hc] at progress
  have after := progress.startTest hrooms hrp
  rw [← uncreated_setsAfter s] at after
  refine ⟨?_, fun home => ?_⟩
  · simpa [startedAt_startTest hc] using after
  · have := (h.confined home).walls (startTest_wallFrame ((setsAfter s done).uncreated (newRooms s rp.target)) u)
      fun a => (after.members a).trans (progress.members a).symm
    simpa [setsAfter_append] using this

theorem Underway.trunk (h : Underway s rp done u) {k : TrunkId} (hc : .trunk k ∉ done) (hf : .floor ∈ done) :
    Underway s rp (done ++ [.trunk k]) (commitTrunk (setsAfter s done) (movedBy s rp) k u) := by
  have fresh : done.contains (.trunk k) = false := by simpa using hc
  refine ⟨?_, fun home => ?_⟩
  · have := h.progress.trunk hrooms hrp (setsAfter s done) fresh
    have taken (j : TrunkId) : (done ++ [CommitShare.trunk k]).contains (.trunk j) =
        (done.contains (.trunk j) || j == k) := by
      rw [Bool.eq_iff_iff]
      simp
    have mix : (done ++ [CommitShare.trunk k]).contains .mix = done.contains .mix := by
      rw [Bool.eq_iff_iff]
      simp
    simp only [startedAt_append done (c := .trunk k) nofun, taken, mix]
    exact this
  · have confined := h.confined home
    have floored : Confined s rp (setsAfter s done) True u :=
      ⟨confined.floors, confined.mixes, confined.trunks, confined.zones, fun _ => confined.built hf⟩
    have := floored.trunk hrooms hrp h.progress fresh (home k)
    rw [setsAfter_append s done (c := .trunk k) nofun]
    exact ⟨this.floors, this.mixes, this.trunks, this.zones, fun _ => this.built trivial⟩

theorem Underway.share (h : Underway s rp done u) {c : CommitShare} (hc : MayFollow done c) :
    Underway s rp (done ++ [c])
      (commitShare (setsAfter s done) s rp.affected (newRooms s rp.target) u c) := by
  have affected : ∀ a ∈ rp.affected, a ∈ movedBy s rp := fun a ha => affected_moved hrooms hrp ha
  have news : ∀ a ∈ newRooms s rp.target, a ∈ movedBy s rp := fun a ha => new_moved hrooms hrp ha
  cases c with
  | mix => exact h.mix hrooms hrp hc.fresh
  | floor =>
    have frame := commitFloors_floorFrame (setsAfter s done) s rp.affected (newRooms s rp.target) u
    have notes := (commitFloors_home (Z := allSegments) (sets := setsAfter s done) (news := newRooms s rp.target)
      (affected := rp.affected) (fun _ _ => List.mem_finRange _) s (s := u) fun a _ => (atHome_all a _ u).toInZone).2.2
    refine h.calm nofun nofun (fun _ => nofun) (frame.toSeat.calm notes) frame.seats fun hc => ?_
    have := hc.floor hrooms hrp s
    exact ⟨this.floors, this.mixes, this.trunks, this.zones, fun _ => this.built trivial⟩
  | booths =>
    have frame := commitBooths_boothFrame rp.affected (newRooms s rp.target) u
    refine h.calm nofun nofun (fun _ => nofun) (commitBooths_calm affected news u) (by rw [commitShare, frame.rest])
      fun hc => ?_
    simpa [commitShare] using hc.booths frame
  | taps =>
    have frame := commitTaps_boothFrame u
    refine h.calm nofun nofun (fun _ => nofun) (commitTaps_calm u) (by rw [commitShare, frame.rest]) fun hc => ?_
    simpa [commitShare] using hc.booths frame
  | trunk k => exact h.trunk hrooms hrp hc.fresh (hc.afterFloor rfl)
  | startTest => exact h.startTest hrooms hrp hc.fresh

/-- The commit, its shares taken in the order given (R29, R57). -/
theorem underway_commitStep (order : List CommitShare) :
    Underway s rp (shareOrder order) (commitStep order rp s) :=
  takeShares_induction order (underway_start hrooms hrp) fun _ _ _ hc h => h.share hrooms hrp hc

end

/-! ### The commit (R28 to R31) -/

theorem startedAt_shareOrder (order : List CommitShare) :
    startedAt (shareOrder order) = some (isBefore order .mix .startTest) :=
  if_pos (mem_shareOrder order (by decide))

section
variable {s u : State} {rp : Repartition} {late : Bool} {taken : TrunkId → Bool}

theorem drains_some_iff {a : Segment} : drains s rp (some late) a = true ↔ a ∈ nextRooms s rp := by
  rw [drains_some, List.contains_iff_mem]

variable (h : Progress s rp true (some late) taken u)
include h

theorem Progress.walls_sent :
    ((allWalls.filter fun w => (s.walls.get w).committed != (u.walls.get w).committed ||
        (s.walls.get w).committed != rp.target.get w).map fun w => wallSent w (u.walls.get w)) =
      commitWallsSent rp s := by
  rw [h.walls, commitWallsSent]

theorem Progress.rooms_sent :
    ((nextRooms s rp).map fun a => (membersOf u a, NoticeBody.room a (membersOf u a) (leadOf u a) .draining)) =
      drainSent (rebuilt rp s) (nextRooms s rp) :=
  List.map_congr_left fun a _ => by rw [h.members, h.lead]

theorem Progress.next_plan :
    u.repartition =
      if nextRooms s rp = [] then none
      else some { target := effectiveMap s, affected := nextRooms s rp, ready := readyNext s rp true late } :=
  h.plan

/-- The notices of a commit: WALL, then ROOM, then those of the other blocks with the drains that follow (09). -/
theorem Progress.concluded :
    ∃ rest, u.ports.map PortRec.startSending =
        (conclude s (commitWallsSent rp s ++ commitRoomsSent rp s ++ rest) none).ports ∧
      (∀ n ∈ rest, isWallNotice n.2 = false) ∧
      rest.filter (fun n => isRoomNotice n.2) = drainSent (rebuilt rp s) (nextRooms s rp) := by
  obtain ⟨rest, hp, hw, hr⟩ := h.ports
  refine ⟨rest, ?_, hw, hr⟩
  rw [← startTransmitters_sendAll, startTransmitters_frame, hp]

variable (hrooms : roomsOk s) (hrp : s.repartition = some rp)
include hrooms hrp

theorem Progress.room_of_target {a : Segment} (ha : anchorIn rp.target a = a) :
    (u.rooms.get a).map (fun r => (r.members, r.lead)) =
      some (component rp.target a,
        if a ∈ newRooms s rp.target then (component rp.target a).find? fun g => (s.ports.get g).attached
        else leadOf s a) :=
  (h.room (fun _ => rfl) a).trans (rebuilt_room hrooms hrp ha)

theorem Progress.no_room {a : Segment} (ha : anchorIn rp.target a ≠ a) : u.rooms.get a = none := by
  have none_there : (rebuilt rp s).rooms.get a = none :=
    Option.not_isSome_iff_eq_none.mp (mt (isSome_rebuilt_iff hrooms hrp).mp ha)
  have same := h.room (f := Room.members) (fun _ => rfl) a
  rw [none_there] at same
  exact Option.map_eq_none_iff.mp same

theorem Progress.committed :
    committedMap u = if nextRooms s rp = [] then effectiveMap s else rp.target := by
  rw [committedMap, h.walls]
  exact committedMap_rebuilt hrooms hrp

theorem Progress.drains_next (a : Segment) : Machine.isDraining u a = (nextRooms s rp).contains a := by
  rw [h.isDraining hrooms hrp, drains_some]

theorem Progress.held_trunk (ht : ∀ k, taken k = true) (k : TrunkId) :
    (u.trunks.get k).holding =
      ((nextRooms s rp).contains (Machine.roomOf u k) || !(movedBy s rp).contains k && (s.trunks.get k).holding) := by
  rw [h.holding, h.roomOf hrooms hrp, drains_some, ht, Bool.and_true]

end

/-- Settles O45: the state after all the shares, in whatever order they are taken. -/
theorem commitRebuildsRooms : Obligations.CommitRebuildsRooms := by
  intro order s hheld
  have exec_eq : exec (.commit order) s = finish (takeCommit order s) := carryOut_eq hheld _
  refine ⟨fun hnone => ?_, fun rp hrp => ⟨fun hwait => ?_, fun hrooms hready => ?_⟩⟩
  · have same : takeCommit order s = s := by rw [takeCommit, hnone]
    rw [exec_eq, same, finish_eq_conclude]
  · have same : takeCommit order s = s := by
      rw [takeCommit, hrp]
      obtain ⟨a, ha, hn⟩ := hwait
      exact if_neg fun hall => hn (List.contains_iff_mem.mp (List.all_eq_true.mp hall a ha))
    rw [exec_eq, same, finish_eq_conclude]
  · have taken : takeCommit order s = commitStep order rp s := by
      rw [takeCommit, hrp]
      exact if_pos (List.all_eq_true.mpr fun a ha => List.contains_iff_mem.mpr (hready a ha))
    obtain ⟨h, confined⟩ := underway_commitStep hrooms hrp order
    rw [taken] at exec_eq
    generalize commitStep order rp s = u at exec_eq h confined
    rw [startedAt_shareOrder, List.contains_iff_mem.mpr (mem_shareOrder order (by decide))] at h
    have all_taken (k : TrunkId) : (shareOrder order).contains (.trunk k) = true :=
      List.contains_iff_mem.mpr (mem_shareOrder order (by revert k; decide))
    refine ⟨startTransmitters u, exec_eq, ?_⟩
    rw [startTransmitters_frame]
    intro news moved next early wallsSent roomsSent
    refine ⟨⟨congrArg (fun t : State => { t with ports := u.ports.map PortRec.startSending }) h.commit.1, h.commit.2⟩,
      fun w => ?_, fun a ha => h.no_room hrooms hrp ha, fun a ha => h.room_of_target hrooms hrp ha, h.seats,
      fun home => ⟨(confined home).trunks, fun a ha hn => ?_⟩, h.committed hrooms hrp, h.drains_next hrooms hrp,
      h.held_trunk hrooms hrp all_taken, fun a ha => ?_, fun a ha hn => ?_, ?_, ?_⟩
    · dsimp only
      rw [h.walls]
      exact rebuilt_wall rp s w
    · have unmoved := not_moved_of_unaffected hrooms hrp ha hn
      exact ⟨(confined home).floors a unmoved, h.slotMaps a unmoved, (confined home).mixes a unmoved⟩
    · have made := h.made rfl a ha
      simp only [drains_some_iff] at made
      exact made
    · have kept := h.kept a ha hn
      simp only [drains_some_iff] at kept
      exact kept
    · exact h.next_plan
    · obtain ⟨rest, hp, hw, hr⟩ := h.concluded
      refine ⟨rest, ?_, hw, hr.trans h.rooms_sent.symm⟩
      exact hp.trans (by rw [← h.walls_sent]; rfl)

end Sys2Proof.Machine
end

section
/-! The shift register of a check word: what it produces, and that a register loaded from a word follows it (R37, R39). -/

namespace Sys2Proof.Machine
open Sys2Proof.Safety

/-! ### The bits of a word -/

theorem getLsbD_bit (b : Bool) {n : Nat} (i : Nat) (hn : 0 < n) :
    (if b then 1 else 0 : BitVec n).getLsbD i = (decide (i = 0) && b) := by
  cases b
  · simp
  · have : decide (0 < n) = true := by simpa using hn
    simp [BitVec.getLsbD_one, this]

/-- Every stage passes its value on, and the first takes the new bit. -/
theorem getLsbD_lfsrStep (r : BitVec 15) {i : Nat} (hi : i < 15) :
    (lfsrStep r).getLsbD i = if i = 0 then lfsrBit r else r.getLsbD (i - 1) := by
  rw [lfsrStep, BitVec.getLsbD_or, getLsbD_bit _ _ (by decide), BitVec.getLsbD_shiftLeft]
  cases i with
  | zero => simp
  | succ i => simp [hi]

/-- A stage of the register after `n` steps holds a bit produced on the way. -/
theorem getLsbD_lfsrStep_iterate (r : BitVec 15) {n i : Nat} (hi : i < 15) (hn : i < n) :
    (lfsrStep^[n] r).getLsbD i = lfsrBit (lfsrStep^[n - 1 - i] r) := by
  induction i generalizing n with
  | zero =>
    obtain ⟨n, rfl⟩ := Nat.exists_eq_succ_of_ne_zero (Nat.ne_of_gt hn)
    rw [Function.iterate_succ_apply', getLsbD_lfsrStep _ hi]
    rfl
  | succ i ih =>
    obtain ⟨n, rfl⟩ := Nat.exists_eq_succ_of_ne_zero (Nat.ne_of_gt (Nat.zero_lt_of_lt hn))
    rw [Function.iterate_succ_apply', getLsbD_lfsrStep _ hi, if_neg (Nat.succ_ne_zero i), Nat.add_sub_cancel,
      ih (Nat.lt_of_succ_lt hi) (Nat.lt_of_succ_lt_succ hn), show n.succ - 1 - (i + 1) = n - 1 - i by omega]

theorem lfsrRun_register (n : Nat) (r : BitVec 15) (w : BitVec 16) : (lfsrRun n r w).1 = lfsrStep^[n] r := by
  induction n generalizing r w with
  | zero => rfl
  | succ n ih => exact ih ..

/-- What stands in the word before a run goes up by its bits. -/
theorem getLsbD_lfsrRun_high (n : Nat) (r : BitVec 15) (w : BitVec 16) {i : Nat} (hi : n + i < 16) :
    (lfsrRun n r w).2.getLsbD (n + i) = w.getLsbD i := by
  induction n generalizing r w i with
  | zero => simp [lfsrRun]
  | succ n ih =>
    rw [lfsrRun, show n + 1 + i = n + (i + 1) by omega, ih _ _ (by omega), BitVec.getLsbD_or,
      getLsbD_bit _ _ (by decide), BitVec.getLsbD_shiftLeft]
    simp
    omega

/-- The bits of a run, the first as most significant. -/
theorem getLsbD_lfsrRun {n k : Nat} (hk : k < n) (hn : n ≤ 16) (r : BitVec 15) (w : BitVec 16) :
    (lfsrRun n r w).2.getLsbD (n - 1 - k) = lfsrBit (lfsrStep^[k] r) := by
  induction n generalizing k r w with
  | zero => omega
  | succ n ih =>
    rw [lfsrRun]
    cases k with
    | zero =>
      have first := getLsbD_lfsrRun_high n (lfsrStep r) ((w <<< 1) ||| (if lfsrBit r then 1 else 0)) (i := 0) (by omega)
      rw [show n + 1 - 1 - 0 = n + 0 by omega, first, BitVec.getLsbD_or, getLsbD_bit _ _ (by decide)]
      simp
    | succ k =>
      rw [show n + 1 - 1 - (k + 1) = n - 1 - k by omega, ih (by omega) (by omega), Function.iterate_succ_apply]

theorem nextWord_register (r : BitVec 15) : (nextWord r).1 = lfsrStep^[16] r :=
  lfsrRun_register ..

theorem getLsbD_nextWord (r : BitVec 15) {k : Nat} (hk : k < 16) :
    (nextWord r).2.getLsbD (15 - k) = lfsrBit (lfsrStep^[k] r) :=
  getLsbD_lfsrRun hk le_rfl r 0

/-- The register keeps the 15 least significant bits of the word it has produced (R39). -/
theorem loadWord_nextWord (r : BitVec 15) : loadWord (nextWord r).2 = (nextWord r).1 := by
  refine BitVec.eq_of_getLsbD_eq fun i hi => ?_
  have word := getLsbD_nextWord r (k := 15 - i) (by omega)
  rw [show 15 - (15 - i) = i by omega] at word
  rw [nextWord_register, getLsbD_lfsrStep_iterate r hi (by omega), loadWord, BitVec.getLsbD_extractLsb', Nat.zero_add, word]
  simp [hi]

/-! ### The register as the manual draws it -/

theorem lfsrBit_eq (r : BitVec 15) : lfsrBit r = if r = 0 then true else r.getLsbD 13 != r.getLsbD 14 := by
  by_cases h : r = 0
  · simp [lfsrBit, h]
  · rw [lfsrBit, if_neg h, beq_eq_false_iff_ne.mpr h, Bool.false_or]

theorem lfsrStep_eq (r : BitVec 15) : lfsrStep r = r.extractLsb' 0 14 ++ BitVec.ofBool (lfsrBit r) := by
  refine BitVec.eq_of_getLsbD_eq fun i hi => ?_
  rw [getLsbD_lfsrStep r hi, BitVec.getLsbD_append]
  cases i with
  | zero => simp
  | succ i =>
    have : i < 14 := by omega
    simp [this]

/-- Settles O17: each bit enters the register and the word alike, so the register is the word's last 15 bits. -/
theorem predictorFollowsGenerator : Obligations.PredictorFollowsGenerator := by
  intro r bit shifted stages
  have bit_eq : bit = lfsrBit := funext fun x => (lfsrBit_eq x).symm
  have shifted_eq : shifted = lfsrStep := funext fun x => by
    rw [lfsrStep_eq, ← bit_eq]
  have stages_eq (n : Nat) : stages n = lfsrStep^[n] r := by rw [← shifted_eq]
  refine ⟨?_, fun n => ?_, (loadWord_nextWord r).symm, congrArg nextWord (loadWord_nextWord r)⟩
  · rw [stages_eq]
    exact nextWord_register r
  · rw [stages_eq, bit_eq]
    exact getLsbD_nextWord r n.isLt

end Sys2Proof.Machine
end

section
/-! Reads of the blocks, the records of trunks and what the trunk and seat commands do to them (R33, R34, R42, R43, R46,
R48, R49, R62, R63, R89, R137, R171). -/

namespace Sys2Proof.Machine
open Sys2Proof.Safety

/-! ### Reads (R49, R63, R89, R137, R171) -/

theorem floorListArg_none {b : Byte} (h : 3 < b.toNat) : floorListArg b = none := by
  have h0 : b ≠ 0 := fun hb => by simp [hb] at h
  have h1 : b ≠ 1 := fun hb => by simp [hb] at h
  have h2 : b ≠ 2 := fun hb => by simp [hb] at h
  have h3 : b ≠ 3 := fun hb => by simp [hb] at h
  rw [floorListArg, if_neg h0, if_neg h1, if_neg h2, if_neg h3]

theorem floorListArg_isSome {b : Byte} (h : b.toNat ≤ 3) : ∃ l, floorListArg b = some l := by
  have cases : b = 0 ∨ b = 1 ∨ b = 2 ∨ b = 3 := by bv_omega
  rcases cases with rfl | rfl | rfl | rfl
  exacts [⟨_, rfl⟩, ⟨_, rfl⟩, ⟨_, rfl⟩, ⟨_, rfl⟩]

theorem ruleReadFloor_bad (p : Port) {room list : Byte} (h : 6 < room.toNat ∨ 3 < list.toNat) (start count : Byte)
    (s : State) : ruleReadFloor p room list start count s = refuse .badArgument s := by
  unfold ruleReadFloor
  rcases h with h | h
  · rw [roomArg_none h]
  · rw [floorListArg_none h]
    cases roomArg (roomOf s p) room <;> rfl

theorem ruleReadFloor_page {p : Port} {room list start count : Byte} {s : State} {a : Segment} {l : FloorList}
    (hroom : roomArg (roomOf s p) room = some a) (hlist : floorListArg list = some l) (ha : (s.rooms.get a).isSome = true) :
    ruleReadFloor p room list start count s =
      let n := max 1 (min 8 count.toNat)
      { code := if n = count.toNat then ReplyCode.done else .adjusted
        results := floorPage s a l start.toNat n
        state := s } := by
  simp only [ruleReadFloor, hroom, hlist, ha, if_true]
  exact congrArg (fun c => Answer.mk c _ _) (adjustedIf_eq (by simp [clamp]))

/-- Settles O30: each read answers the state it is given, which stays. -/
theorem blockReads : Obligations.BlockReads := by
  intro p tag s hheld hplace
  have answers {c : Instr} {rule : State → Answer} {code : ReplyCode} {results : List Byte}
      (hc : exec c s = carryOut (serve p tag true rule) s)
      (hr : rule s = { code := code, results := results, state := s }) :
      exec c s = .next (answered s p tag code results) :=
    (hc.trans (carryOut_eq hheld _)).trans (finish_serve_same hplace (.inl rfl) hr)
  refine ⟨fun b k hb => answers rfl ?_, fun b hb => answers rfl ?_, fun b i hb => answers rfl ?_,
    fun b hb => answers rfl ?_, fun b x hb => answers rfl ?_, fun b hb => answers rfl ?_, fun b k hb => answers rfl ?_,
    fun b hb => answers rfl ?_, fun room list start count h => answers rfl (ruleReadFloor_bad p h ..),
    fun room start count a hroom => ⟨fun hnone list hlist => answers rfl ?_, fun hsome => ?_⟩⟩
  · rw [ruleReadTrunk, idArg_of_toNat hb]
  · rw [ruleReadTrunk, idArg_none hb]; rfl
  · rw [ruleReadSeat, idArg_of_toNat hb]
  · rw [ruleReadSeat, idArg_none hb]; rfl
  · rw [ruleReadBooth, idArg_of_toNat hb]
  · rw [ruleReadBooth, idArg_none hb]; rfl
  · rw [ruleReadTap, idArg_of_toNat hb]
  · rw [ruleReadTap, idArg_none hb]; rfl
  · obtain ⟨l, hl⟩ := floorListArg_isSome hlist
    simp only [ruleReadFloor, roomArg_eq hroom, hl, hnone]; rfl
  · have page {list : Byte} {l : FloorList} (hl : floorListArg list = some l) :=
      ruleReadFloor_page (start := start) (count := count) (roomArg_eq hroom) hl hsome
    exact ⟨answers rfl (page (l := .speakers) rfl), answers rfl (page (l := .queue) rfl),
      answers rfl (page (l := .holders) rfl), answers rfl (page (l := .release) rfl)⟩

/-! ### Trunk records (R46) -/

/-- The TRUNK notice of trunk `k` with record `r` (R46). -/
def trunkSent (k : TrunkId) (r : Trunk) : Sent :=
  ([k], .trunk k r.power r.supervision r.linkUp r.holdDeadline)

/-- The record of trunk `k` becomes `r`. -/
def State.putTrunk (s : State) (k : TrunkId) (r : Trunk) : State :=
  { s with trunks := s.trunks.set k r }

theorem modTrunk_eq_putTrunk (s : State) (k : TrunkId) (f : Trunk → Trunk) :
    s.modTrunk k f = s.putTrunk k (f (s.trunks.get k)) := rfl

@[simp] theorem putTrunk_self (s : State) (k : TrunkId) : s.putTrunk k (s.trunks.get k) = s := by
  rw [State.putTrunk, Tab.set_get_self]

@[simp] theorem putTrunk_get (s : State) (k : TrunkId) (r : Trunk) : (s.putTrunk k r).trunks.get k = r := by
  simp [State.putTrunk]

theorem trunkNotice_putTrunk (s : State) (k : TrunkId) (r : Trunk) :
    trunkNotice k (s.putTrunk k r) = sendAll [trunkSent k r] (s.putTrunk k r) := by
  simp only [trunkNotice, putTrunk_get]
  rfl

theorem trunkNotice_modTrunk (s : State) (k : TrunkId) (f : Trunk → Trunk) :
    trunkNotice k (s.modTrunk k f) =
      sendAll [trunkSent k (f (s.trunks.get k))] (s.putTrunk k (f (s.trunks.get k))) := by
  rw [modTrunk_eq_putTrunk, trunkNotice_putTrunk]

/-! ### Operands -/

theorem flagArg_none {b : Byte} (h : 1 < b.toNat) : flagArg b = none := by
  have h0 : b ≠ 0 := fun hb => by simp [hb] at h
  have h1 : b ≠ 1 := fun hb => by simp [hb] at h
  rw [flagArg, if_neg h0, if_neg h1]

theorem flagArg_isSome {b : Byte} (h : b.toNat ≤ 1) : ∃ x, flagArg b = some x := by
  have cases : b = 0 ∨ b = 1 := by bv_omega
  rcases cases with rfl | rfl
  exacts [⟨_, rfl⟩, ⟨_, rfl⟩]

@[simp] theorem flagArg_flagByte (x : Bool) : flagArg (flagByte x) = some x := by
  cases x <;> rfl

section
variable {p : Port} {rule : TrunkId → State → Answer} {s : State} {b : Byte}

theorem trunkCommand_bad (h : b.toNat = 0 ∨ 6 < b.toNat) : trunkCommand p b rule s = refuse .badArgument s := by
  rw [trunkCommand, idArg_none h]

theorem trunkCommand_foreign {k : TrunkId} (h : b.toNat = k.val + 1) (hp : p ≠ k) :
    trunkCommand p b rule s = refuse .notSegment s := by
  simp only [trunkCommand, idArg_of_toNat h, if_neg hp]

theorem trunkCommand_own {k : TrunkId} (h : b.toNat = k.val + 1) : trunkCommand k b rule s = rule k s := by
  simp only [trunkCommand, idArg_of_toNat h, if_true]

end

/-! ### Power of a trunk whose link view is DOWN (R33, R34) -/

/-- The record of a trunk whose warming time has ended (R34). -/
def warmed (r : Trunk) : Trunk :=
  { r with
    power := .live, warmDeadline := none, supervision := some .hunt, confirmCount := 0, blockPos := 0, blockErrors := 0 }

theorem endWarming_due {k : TrunkId} {s : State} {d : Clock} (hp : (s.trunks.get k).power = .warming)
    (hd : (s.trunks.get k).warmDeadline = some d) (ht : 0 ≤ (s.clock - d).toInt) :
    endWarming k s = sendAll [trunkSent k (warmed (s.trunks.get k))] (s.putTrunk k (warmed (s.trunks.get k))) := by
  simp only [endWarming, hp, hd, reached, decide_eq_true ht, if_true]
  exact trunkNotice_modTrunk s k warmed

theorem endWarming_early {k : TrunkId} {s : State}
    (h : (s.trunks.get k).power ≠ .warming ∨ ∀ d, (s.trunks.get k).warmDeadline = some d → (s.clock - d).toInt < 0) :
    endWarming k s = s := by
  unfold endWarming
  dsimp only
  split
  · next d hp hd =>
    have ht := h.resolve_left (fun hn => hn hp) d hd
    rw [reached, if_neg (by simpa using ht)]
  · rfl

/-- The record of a trunk that starts to warm (R33). -/
def warming (s : State) (r : Trunk) : Trunk :=
  { r with power := .warming, warmDeadline := some (s.clock + BitVec.ofNat 32 s.hall.trunkStart) }

theorem trunkOn_unpowered {k : TrunkId} {s : State} (h : (s.trunks.get k).power = .unpowered) :
    trunkOn k s = sendAll [trunkSent k (warming s (s.trunks.get k))] (s.putTrunk k (warming s (s.trunks.get k))) := by
  rw [trunkOn, if_pos h]
  exact trunkNotice_modTrunk s k (warming s)

theorem trunkOff_down {k : TrunkId} {s : State}
    (h : (s.trunks.get k).power = .warming ∨ (s.trunks.get k).power = .live ∧ (s.trunks.get k).linkUp = false) :
    trunkOff k s = sendAll [trunkSent k (powerDown (s.trunks.get k))] (s.putTrunk k (powerDown (s.trunks.get k))) := by
  rw [← trunkNotice_modTrunk]
  rcases h with h | ⟨h, hl⟩
  · simp only [trunkOff, h]
  · simp only [trunkOff, h, hl, Bool.false_eq_true, if_false]

theorem trunkOn_powered {k : TrunkId} {s : State} (h : (s.trunks.get k).power ≠ .unpowered) : trunkOn k s = s := by
  rw [trunkOn, if_neg h]

theorem trunkOff_unpowered {k : TrunkId} {s : State} (h : (s.trunks.get k).power = .unpowered) : trunkOff k s = s := by
  simp only [trunkOff, h]

theorem powerCode_of_powered {p : Power} (h : p ≠ .unpowered) : powerCode p = if p = .warming then 1 else 2 := by
  cases p
  · exact absurd rfl h
  · rfl
  · rfl

/-! ### A command that is taken, and an event -/

theorem exec_served {c : Instr} {p : Port} {tag : Byte} {rule : State → Answer} {s t : State} {sent : List Sent}
    {code : ReplyCode} {results : List Byte} (hs : served s p) (hc : exec c s = carryOut (serve p tag false rule) s)
    (hr : rule s = { code := code, results := results, state := sendAll sent t }) :
    exec c s = .next (replied t sent p tag code results) :=
  (hc.trans (carryOut_eq hs.1 _)).trans (finish_serve hs.2.1 (.inr hs.2.2) hr)

theorem exec_served_same {c : Instr} {p : Port} {tag : Byte} {rule : State → Answer} {s t : State}
    {code : ReplyCode} {results : List Byte} (hs : served s p) (hc : exec c s = carryOut (serve p tag false rule) s)
    (hr : rule s = { code := code, results := results, state := t }) :
    exec c s = .next (answered t p tag code results) :=
  exec_served (sent := []) hs hc hr

theorem exec_event {c : Instr} {effect : State → State} {s t : State} {sent : List Sent} (hheld : s.held = false)
    (hc : exec c s = carryOut effect s) (h : effect s = sendAll sent t) : exec c s = .next (conclude t sent none) := by
  rw [hc, carryOut_eq hheld, h]
  exact congrArg _ (startTransmitters_sendAll ..)

/-- Settles O50: each power change is one write of the trunk's record with its notice. -/
theorem trunkPowerChanges : Obligations.TrunkPowerChanges := by
  intro k p tag b switch s r hunting _ off set sent
  have rule {on : Bool} (hb : b.toNat = k.val + 1) {r' : Trunk} {l : List Sent}
      (ht : (if on then trunkOn k s else trunkOff k s) = sendAll l (s.putTrunk k r')) :
      ruleTrunkPower k b (flagByte on) s =
        { code := .done, results := [powerCode r'.power], state := sendAll l (s.putTrunk k r') } := by
    simp only [ruleTrunkPower, flagArg_flagByte, trunkCommand_own hb, ht, sendAll_trunks, putTrunk_get]
  have unchanged {on : Bool} (hb : b.toNat = k.val + 1) (ht : (if on then trunkOn k s else trunkOff k s) = s) :
      ruleTrunkPower k b (flagByte on) s = { code := .done, results := [powerCode r.power], state := s } := by
    have h := rule (r' := r) (l := []) hb (by rw [ht, putTrunk_self]; rfl)
    rwa [putTrunk_self] at h
  refine ⟨fun d hheld hp hd ht => exec_event hheld rfl (endWarming_due hp hd ht),
    fun hheld early => exec_event (sent := []) hheld rfl (endWarming_early early),
    fun hs bad => exec_served_same hs rfl ?_, fun hs hb hp hsw => exec_served_same hs rfl ?_,
    fun hs hb => ⟨fun hp => ⟨exec_served hs rfl (rule (on := true) hb (trunkOn_unpowered hp)),
        exec_served_same hs rfl ?_⟩, fun hp => exec_served_same hs rfl ?_,
      fun hp => exec_served hs rfl (rule (on := false) hb (trunkOff_down hp))⟩⟩
  · cases hf : flagArg switch with
    | none => rw [ruleTrunkPower, hf]; rfl
    | some on =>
      have hb : b.toNat = 0 ∨ 6 < b.toNat := by
        rcases bad with h | h | h
        · exact .inl h
        · exact .inr h
        · rw [flagArg_none h] at hf; cases hf
      simp only [ruleTrunkPower, hf, trunkCommand_bad hb]
      rfl
  · obtain ⟨on, hon⟩ := flagArg_isSome hsw
    simp only [ruleTrunkPower, hon, trunkCommand_foreign hb hp]
    rfl
  · have h := unchanged (on := false) hb (trunkOff_unpowered hp)
    rwa [show r.power = .unpowered from hp] at h
  · rw [← powerCode_of_powered hp]
    exact unchanged (on := true) hb (trunkOn_powered hp)

/-! ### TRUNK_RESTART, TRUNK_TEST, SNAPSHOT and SET_SEAT (R42, R43, R48, R62) -/

section
variable {p : Port} {i : SeatId} {b enabled chair : Byte} {s : State}

theorem ruleSetSeat_bad (h : b.toNat = 0 ∨ 240 < b.toNat ∨ 1 < enabled.toNat ∨ 1 < chair.toNat) :
    ruleSetSeat p b enabled chair s = refuse .badArgument s := by
  unfold ruleSetSeat
  rcases h with h | h | h | h
  · rw [idArg_none (.inl h)]
  · rw [idArg_none (.inr h)]
  · rw [flagArg_none h]
    cases idArg 240 b <;> rfl
  · rw [flagArg_none h]
    cases idArg 240 b <;> cases flagArg enabled <;> rfl

/-- SET_SEAT with its operands in range: the checks in order, then the seat's record (R62). -/
theorem ruleSetSeat_eq {e c : Bool} (hb : b.toNat = i.val + 1) :
    ruleSetSeat p b (flagByte e) (flagByte c) s =
      if p ≠ segmentOf i then refuse .notSegment s
      else if isDraining s (seatRoom s i) then refuse .busyRepartition s
      else if hasSpeaker (s.floors.get (seatRoom s i)) i || hasRequest (s.floors.get (seatRoom s i)) i then
        refuse .seatBusy s
      else
        let s1 := s.modSeat i fun r => { r with enabled := e, chair := c }
        { code := .done, results := seatBytes s1 i, state := s1 } := by
  simp only [ruleSetSeat, idArg_of_toNat hb, flagArg_flagByte, floorOf]
  rfl

end

/-- Settles O52: each command by the table of its checks. -/
theorem trunkCommands : Obligations.TrunkCommands := by
  intro k p tag b s hs r set hold
  refine ⟨fun bad => ⟨exec_served_same hs rfl (trunkCommand_bad bad), exec_served_same hs rfl (trunkCommand_bad bad),
      exec_served_same hs rfl (trunkCommand_bad bad)⟩,
    fun hb hp => ⟨exec_served_same hs rfl (trunkCommand_foreign hb hp),
      exec_served_same hs rfl (trunkCommand_foreign hb hp), exec_served_same hs rfl (trunkCommand_foreign hb hp)⟩,
    fun hb hp => ?_, fun enabled chair bad => exec_served_same hs rfl (ruleSetSeat_bad bad), fun i enabled chair hb => ?_⟩
  · subst hp
    have own {c : Instr} {rule : TrunkId → State → Answer} {t : State} {l : List Sent} {code : ReplyCode}
        {results : List Byte} (hc : exec c s = carryOut (serve p tag false (trunkCommand p b rule)) s)
        (hr : rule p s = { code := code, results := results, state := sendAll l t }) :
        exec c s = .next (replied t l p tag code results) :=
      exec_served hs hc ((trunkCommand_own hb).trans hr)
    refine ⟨fun hp => own (l := []) rfl ?_, fun hp hsup => own (l := []) rfl ?_, fun hp hsup => own (l := []) rfl ?_,
      fun hp hsup => own rfl ?_, fun hp hsup => own (l := []) rfl ?_, fun h => own (l := []) rfl ?_,
      own (l := []) rfl ?_⟩
    · cases hpw : (s.trunks.get p).power with
      | live => exact absurd hpw hp
      | unpowered => rfl
      | warming => rfl
    · simp only [show (s.trunks.get p).power = .live from hp, show (s.trunks.get p).supervision = some .hunt from hsup]
      rfl
    · simp only [show (s.trunks.get p).power = .live from hp, show (s.trunks.get p).supervision = some .confirm from hsup]
      rfl
    · simp only [show (s.trunks.get p).power = .live from hp, show (s.trunks.get p).supervision = some .locked from hsup]
      rw [trunkNotice_modTrunk]
      exact congrArg (fun w => Answer.mk .done [] (sendAll [([p], .trunk p w (some .hunt) r.linkUp (some hold))] _)) hp
    · have hl : isLocked (s.trunks.get p) = true := by
        simpa only [isLocked, beq_iff_eq] using hsup
      simp only [show (s.trunks.get p).power = .live from hp, hl]
      rfl
    · have hn : ¬((s.trunks.get p).power == .live && isLocked (s.trunks.get p)) = true := by
        simp only [Bool.and_eq_true, beq_iff_eq, isLocked]
        exact fun ⟨hp, hl⟩ => h.elim (fun h => h hp) fun h => h hl
      rw [if_neg hn]
      rfl
    · simp only [counterBytes, List.append_assoc]
      rfl
  · intro entry x set'
    refine ⟨fun hp => exec_served_same hs rfl ?_, fun hp hd => exec_served_same hs rfl ?_,
      fun hp hd he => exec_served_same hs rfl ?_, fun hp hd he => exec_served_same hs rfl ?_⟩
    all_goals rw [ruleSetSeat_eq hb]
    · rw [if_pos hp]; rfl
    · rw [if_neg (not_not_intro hp), if_pos hd]; rfl
    · rw [if_neg (not_not_intro hp), if_neg (by simp [hd]), if_pos he]; rfl
    · rw [if_neg (not_not_intro hp), if_neg (by simp [hd]), if_neg (fun h => Bool.false_ne_true (he.symm.trans h))]; rfl

end Sys2Proof.Machine
end

section
/-! Supervision of the frames of a trunk (R34, R38 to R41, R44, R46, R47, R54, R141). -/

namespace Sys2Proof.Machine
open Sys2Proof.Safety

/-! ### A frame as one write of the trunk's record (R46, R141) -/

/-- The record of a LIVE trunk after a frame, received or missing: supervision, and the channel audio of a frame that was
compared in LOCKED. -/
def framed (s : State) (frame : Option UplinkFrame) (r : Trunk) : Trunk :=
  { supervise s.clock s.hall.trunkHold (frame.map UplinkFrame.word) r with
    audio := if isLocked r then frame.map UplinkFrame.audio else none }

theorem takeFrame_eq (k : TrunkId) (frame : Option UplinkFrame) (s : State) :
    takeFrame k frame s =
      sendAll (if isLocked (s.trunks.get k) = isLocked (framed s frame (s.trunks.get k)) then []
          else [trunkSent k (framed s frame (s.trunks.get k))])
        (s.putTrunk k (framed s frame (s.trunks.get k))) := by
  unfold takeFrame
  by_cases h : isLocked (s.trunks.get k) = isLocked (framed s frame (s.trunks.get k))
  · rw [if_pos h]
    exact if_pos h
  · rw [if_neg h]
    exact (if_neg h).trans (trunkNotice_modTrunk s k _)

/-- Events act only where the frame was compared in LOCKED with 0 bit errors (R54). -/
theorem takeUplink_quiet {k : TrunkId} {frame : UplinkFrame} {s : State} (hp : (s.trunks.get k).power = .live)
    (h : acceptsEvents (s.trunks.get k) frame.word = false ∨ frame.events = []) :
    takeUplink k frame s = takeFrame k (some frame) s := by
  simp only [takeUplink, hp, if_true]
  rcases h with h | h
  · rw [h]; rfl
  · rw [h]; split <;> rfl

theorem bitErrors_eq_length (w v : BitVec 16) :
    bitErrors w v = ((List.range 16).filter fun n => w.getLsbD n != v.getLsbD n).length := by
  simp only [bitErrors, List.countP_eq_length_filter, BitVec.getLsbD_xor, Bool.bne_eq_xor]

/-! ### The word of a frame in each state (R39 to R41, R47) -/

section
variable {now : Clock} {hold : Nat} {r : Trunk}

theorem supervise_confirmed {w : BitVec 16} (hsup : r.supervision = some .confirm) (hw : w = (nextWord r.predictor).2) :
    supervise now hold (some w) r =
      if 3 ≤ r.confirmCount then
        enterLocked { r with predictor := (nextWord r.predictor).1, confirmCount := r.confirmCount + 1 }
      else { r with predictor := (nextWord r.predictor).1, confirmCount := r.confirmCount + 1 } := by
  simp only [supervise, hsup, confirmWord, if_pos hw, Nat.succ_le_succ_iff]

theorem supervise_unconfirmed {w : BitVec 16} (hsup : r.supervision = some .confirm) (hw : w ≠ (nextWord r.predictor).2) :
    supervise now hold (some w) r = huntWord w { r with predictor := (nextWord r.predictor).1 } := by
  simp only [supervise, hsup, confirmWord, if_neg hw]

theorem supervise_hunting {w : BitVec 16} (hsup : r.supervision = some .hunt) :
    supervise now hold (some w) r = huntWord w r := by
  simp only [supervise, hsup]

theorem supervise_hunting_missing (hsup : r.supervision = some .hunt) : supervise now hold none r = r := by
  simp only [supervise, hsup]

theorem supervise_confirm_missing (hsup : r.supervision = some .confirm) :
    supervise now hold none r = { r with supervision := some .hunt } := by
  simp only [supervise, hsup]

theorem supervise_locked {word : Option (BitVec 16)} (hsup : r.supervision = some .locked) :
    supervise now hold word r = lockedWord now hold word r := by
  simp only [supervise, hsup]

end

theorem huntWord_eq (w : BitVec 16) (r : Trunk) :
    huntWord w r =
      if w.extractLsb' 0 15 = 0 then { r with supervision := some .hunt }
      else { r with predictor := w.extractLsb' 0 15, supervision := some .confirm, confirmCount := 0 } := rfl

theorem isLocked_huntWord (w : BitVec 16) (r : Trunk) : isLocked (huntWord w r) = false := by
  rw [huntWord_eq]
  split <;> rfl

theorem isLocked_eq_false {r : Trunk} (h : r.supervision ≠ some .locked) : isLocked r = false := by
  rwa [isLocked, beq_eq_false_iff_ne]

theorem addCounts_eq (errors : Nat) (loss : Bool) (c : Counters) :
    addCounts errors loss c =
      { lockedFrames := min 4294967295 (c.lockedFrames + 1)
        erroredFrames := min 4294967295 (c.erroredFrames + if errors = 0 then 0 else 1)
        bitErrors := min 4294967295 (c.bitErrors + errors)
        syncLosses := min 4294967295 (c.syncLosses + if loss then 1 else 0) } := by
  simp only [addCounts, countUp, Config.counterTop, Nat.min_comm]

/-- Settles O48: a frame is one write of the record by the table of its state, with a TRUNK notice where LOCKED is entered
or left. -/
theorem framesSupervised : Obligations.FramesSupervised := by
  intro k frame s hheld r outcome becomes p
  have run {b : Bool} {r1 : Trunk} {l : List Sent} (hp : r.power = .live) (was : isLocked r = b)
      (quiet : ∀ f, frame = some f → acceptsEvents r f.word = false ∨ f.events = [])
      (sup : supervise s.clock s.hall.trunkHold (frame.map UplinkFrame.word) r = r1)
      (hl : (if b = isLocked r1 then [] else [trunkSent k r1]) = l) :
      becomes { r1 with audio := if b then frame.map UplinkFrame.audio else none } l := by
    subst was sup hl
    have h := takeFrame_eq k frame s
    cases frame with
    | none => exact exec_event (effect := takeMissing k) hheld rfl ((if_pos hp).trans h)
    | some f => exact exec_event (effect := takeUplink k f) hheld rfl ((takeUplink_quiet hp (quiet f rfl)).trans h)
  have unheard (was : isLocked r = false) : ∀ f, frame = some f → acceptsEvents r f.word = false ∨ f.events = [] :=
    fun f _ => .inl (by rw [acceptsEvents, was]; rfl)
  refine ⟨fun hp => ?_, fun hp hsup hf => ?_, fun hp hsup hf => ?_, fun f hp hf => ?_, fun hp hsup => ?_⟩
  · cases frame with
    | none => exact exec_event (effect := takeMissing k) (sent := []) hheld rfl (if_neg hp)
    | some f => exact exec_event (effect := takeUplink k f) (sent := []) hheld rfl (if_neg hp)
  · have was : isLocked r = false := isLocked_eq_false (by simp [hsup])
    subst hf
    exact run hp was (unheard was) (supervise_hunting_missing hsup) (by rw [was]; rfl)
  · have was : isLocked r = false := isLocked_eq_false (by simp [hsup])
    subst hf
    exact run hp was (unheard was) (supervise_confirm_missing hsup) rfl
  · subst hf
    intro loaded
    refine ⟨fun hsup => ?_, fun hsup hw => ?_, fun hsup hw hc => ?_, fun hsup hw hc => ?_⟩
    all_goals have was : isLocked r = false := isLocked_eq_false (by simp [hsup])
    · have h := run hp was (unheard was) (supervise_hunting hsup) (if_pos (isLocked_huntWord _ _).symm)
      rw [huntWord_eq] at h
      by_cases h0 : loaded = 0
      · rw [if_pos h0] at h ⊢
        rw [← hsup] at h
        exact h
      · rw [if_neg h0] at h ⊢
        exact h
    · have h := run hp was (unheard was) (supervise_unconfirmed hsup hw) (if_pos (isLocked_huntWord _ _).symm)
      rw [huntWord_eq] at h
      by_cases h0 : loaded = 0
      · rw [if_pos h0] at h ⊢
        exact h
      · rw [if_neg h0] at h ⊢
        rw [← hsup] at h
        exact h
    · exact run hp was (unheard was) ((supervise_confirmed hsup hw).trans (if_neg (by omega))) (by rw [isLocked, hsup]; rfl)
    · refine run hp was (unheard was) ((supervise_confirmed hsup hw).trans (if_pos hc)) ?_
      exact congrArg (fun w => [([k], NoticeBody.trunk k w (some .locked) true none)]) hp
  · intro errors block counted base hold
    have was : isLocked r = true := by rw [isLocked, hsup]; rfl
    have same : frameErrors p.2 (frame.map UplinkFrame.word) = errors := by
      cases frame with
      | none => rfl
      | some f => exact bitErrors_eq_length ..
    intro calm
    have quiet (f : UplinkFrame) (hf : frame = some f) : acceptsEvents r f.word = false ∨ f.events = [] := by
      refine (calm f hf).symm.imp_left fun hne => ?_
      subst hf
      rw [acceptsEvents, was, Bool.true_and, beq_eq_false_iff_ne]
      exact fun h => hne (same.symm.trans h)
    have sup {r1 : Trunk} (h : lockedWord s.clock s.hall.trunkHold (frame.map UplinkFrame.word) r = r1) :=
      (supervise_locked hsup).trans h
    have lockedWord_eq : lockedWord s.clock s.hall.trunkHold (frame.map UplinkFrame.word) r =
        let r1 := { r with predictor := p.1, live := addCounts errors (decide (6 ≤ block)) r.live }
        if 6 ≤ block then leaveLocked s.clock s.hall.trunkHold r1
        else if 64 ≤ r.blockPos + 1 then { r1 with blockPos := 0, blockErrors := 0 }
        else { r1 with blockPos := r.blockPos + 1, blockErrors := block } := by
      rw [lockedWord, show frameErrors (nextWord r.predictor).2 (frame.map UplinkFrame.word) = errors from same]
    have live_eq (x : Nat) (b : Bool) (hx : (if b then 1 else 0) = x) : addCounts errors b r.live = counted x := by
      subst hx
      exact addCounts_eq ..
    refine ⟨fun hb => ?_, fun hb hpos => ?_, fun hb hpos => ?_⟩
    · have h := lockedWord_eq.trans (if_pos hb)
      rw [live_eq 1 _ (by simp [hb])] at h
      refine run hp was quiet (sup h) ?_
      exact congrArg (fun w => [([k], NoticeBody.trunk k w (some .hunt) r.linkUp (some hold))]) hp
    · have h := (lockedWord_eq.trans (if_neg (by omega))).trans (if_pos (by omega))
      rw [live_eq 0 _ (by simp; omega)] at h
      exact run hp was quiet (sup h) (if_pos was.symm)
    · have h := (lockedWord_eq.trans (if_neg (by omega))).trans (if_neg (by omega))
      rw [live_eq 0 _ (by simp; omega)] at h
      exact run hp was quiet (sup h) (if_pos was.symm)

end Sys2Proof.Machine
end

section
/-! The frame event in its parts: the frame of every room, the release entries that end, the downlink frames, and
RELEASE_END (R36, R51, R150). -/

namespace Sys2Proof.Machine
open Sys2Proof.Safety

/-! ### The rooms of a frame (R142, R155) -/

/-- The state after stages 1 to 5 of every room, before its CLIP notices. -/
def roomsComputed (inputs : Tab 8 (Option Sys2Proof.BoothFrame)) (s : State) : State :=
  { s with
    floors := Tab.ofFn fun a =>
      if (s.rooms.get a).isSome then { s.floors.get a with speakers := (computeRoom s a).speakers } else s.floors.get a
    mixes := Tab.ofFn fun a => if (s.rooms.get a).isSome then (computeRoom s a).mix else s.mixes.get a
    signals := Tab.ofFn fun a => roomSignals s inputs a (computeRoom s a) }

theorem clipNotice_rest (a : Segment) (before s : State) :
    clipNotice a before s = { s with ports := (clipNotice a before s).ports } := by
  unfold clipNotice
  split <;> rfl

theorem clipNotices_rest (l : List Segment) (before s : State) :
    l.foldl (fun t a => clipNotice a before t) s =
      { s with ports := (l.foldl (fun t a => clipNotice a before t) s).ports } := by
  induction l generalizing s with
  | nil => rfl
  | cons a l ih =>
    rw [List.foldl_cons, ih, clipNotice_rest]

theorem computeRooms_rest (inputs : Tab 8 (Option Sys2Proof.BoothFrame)) (s : State) :
    computeRooms inputs s = { roomsComputed inputs s with ports := (computeRooms inputs s).ports } := by
  unfold computeRooms
  extract_lets frames s1
  have same : s1 = roomsComputed inputs s := by simp only [s1, frames, roomsComputed, Tab.get_ofFn]
  rw [same]
  exact clipNotices_rest ..

/-! ### Release entries that end (R51, R150) -/

/-- Whether a release entry of a seat in a set is at its end. -/
def endsIn (l : List Release) (i : SeatId) : Bool :=
  l.any fun e => e.seat == i && e.atEnd

/-- The seats that `p` names lose their channels of trunk `k`. -/
def withoutSeats (p : SeatId → Bool) (k : TrunkId) (channels : Tab 16 (Option SeatId)) : Tab 16 (Option SeatId) :=
  channels.map fun held => held.filter fun i => !(p i && segmentOf i == k)

theorem withoutSeats_none {p : SeatId → Bool} (h : ∀ i, p i = false) (k : TrunkId) (t : Tab 16 (Option SeatId)) :
    withoutSeats p k t = t :=
  Tab.ext_get fun c => by cases hc : t.get c <;> simp [withoutSeats, h, hc]

theorem withoutSeats_comp (p q : SeatId → Bool) (k : TrunkId) (t : Tab 16 (Option SeatId)) :
    withoutSeats q k (withoutSeats p k t) = withoutSeats (fun i => p i || q i) k t := by
  refine Tab.ext_get fun c => ?_
  simp only [withoutSeats, Tab.get_map, Option.filter_filter]
  congr 1
  funext i
  cases p i <;> cases q i <;> cases segmentOf i == k <;> rfl

theorem freeChannel_trunk (i : SeatId) (s : State) (k : TrunkId) :
    (freeChannel i s).trunks.get k =
      { s.trunks.get k with channels := withoutSeats (fun j => j == i) k (s.trunks.get k).channels } := by
  have freed (held : Option SeatId) :
      held.filter (fun j => !(j == i && segmentOf j == k)) =
        if segmentOf i = k then (if held == some i then none else held) else held := by
    cases held with
    | none => split <;> rfl
    | some j =>
      by_cases hj : j = i
      · subst hj
        by_cases hk : segmentOf j = k <;> simp [Option.filter_some, hk]
      · simp [Option.filter_some, hj]
  rw [freeChannel, State.modTrunk_trunks, Tab.get_modify]
  split
  · next hk =>
    refine congrArg (fun t => { s.trunks.get k with channels := t }) (Tab.ext_get fun c => ?_)
    simp only [withoutSeats, Tab.get_map, freed, if_pos hk]
  · next hk =>
    refine congrArg (fun t => { s.trunks.get k with channels := t }) (Tab.ext_get fun c => ?_)
    simp only [withoutSeats, Tab.get_map, freed, if_neg hk]
    rfl

/-- The release entries that `p` names leave the sets of their rooms, and the channels of their seats are freed. -/
def releasesEnded (p : Segment → SeatId → Bool) (s : State) : State :=
  { s with
    mixes := Tab.ofFn fun a =>
      { s.mixes.get a with release := (s.mixes.get a).release.filter fun e => !p a e.seat }
    trunks := Tab.ofFn fun k =>
      { s.trunks.get k with
        channels := withoutSeats (fun i => allSegments.any fun a => p a i) k (s.trunks.get k).channels } }

theorem releasesEnded_none {p : Segment → SeatId → Bool} {s : State} (h : ∀ a i, p a i = false) :
    releasesEnded p s = s := by
  have mixes : (releasesEnded p s).mixes = s.mixes := Tab.ext_get fun a => by simp [releasesEnded, h]
  have trunks : (releasesEnded p s).trunks = s.trunks := Tab.ext_get fun k => by
    simp only [releasesEnded, Tab.get_ofFn]
    rw [withoutSeats_none (by simp [h])]
  calc releasesEnded p s = { s with mixes := (releasesEnded p s).mixes, trunks := (releasesEnded p s).trunks } := rfl
    _ = s := by rw [mixes, trunks]

theorem releasesEnded_comp (p q : Segment → SeatId → Bool) (s : State) :
    releasesEnded q (releasesEnded p s) = releasesEnded (fun a i => p a i || q a i) s := by
  have any_or (i : SeatId) :
      ((allSegments.any fun a => p a i) || allSegments.any fun a => q a i) = allSegments.any fun a => p a i || q a i := by
    rw [Bool.eq_iff_iff]
    simp only [Bool.or_eq_true, List.any_eq_true, ← exists_or, ← and_or_left]
  simp only [releasesEnded, Tab.get_ofFn, List.filter_filter, withoutSeats_comp, any_or, Bool.not_or]
  simp only [Bool.and_comm]

theorem freeChannel_endRelease (a : Segment) (i : SeatId) (s : State) :
    freeChannel i (endRelease a i s) = releasesEnded (fun b j => b == a && j == i) s := by
  have named (j : SeatId) : (allSegments.any fun b => b == a && j == i) = (j == i) := by
    rw [Bool.eq_iff_iff]
    simp [allSegments]
  have mixes : (freeChannel i (endRelease a i s)).mixes = (releasesEnded (fun b j => b == a && j == i) s).mixes := by
    refine Tab.ext_get fun b => ?_
    by_cases hb : b = a
    · subst hb
      simp only [freeChannel, endRelease, releasesEnded, State.modTrunk_mixes, State.modMix_mixes, Tab.get_modify_self,
        Tab.get_ofFn, beq_self_eq_true, Bool.true_and]
      rfl
    · simp only [freeChannel, endRelease, releasesEnded, State.modTrunk_mixes, State.modMix_mixes,
        Tab.get_modify_ne _ _ (Ne.symm hb), Tab.get_ofFn, beq_eq_false_iff_ne.mpr hb, Bool.false_and, Bool.not_false,
        List.filter_true]
  have trunks : (freeChannel i (endRelease a i s)).trunks = (releasesEnded (fun b j => b == a && j == i) s).trunks := by
    refine Tab.ext_get fun k => ?_
    rw [freeChannel_trunk]
    simp only [endRelease, releasesEnded, named, Tab.get_ofFn, State.modMix_trunks]
  calc freeChannel i (endRelease a i s) =
      { s with
        mixes := (freeChannel i (endRelease a i s)).mixes
        trunks := (freeChannel i (endRelease a i s)).trunks } := rfl
    _ = releasesEnded (fun b j => b == a && j == i) s := by rw [mixes, trunks]; rfl

theorem releaseEndOf_eq (a : Segment) (i : SeatId) (s : State) :
    releaseEndOf a i s = releasesEnded (fun b j => b == a && j == i && endsIn (s.mixes.get a).release j) s := by
  unfold releaseEndOf
  split
  · next h =>
    have named (b : Segment) (j : SeatId) :
        (b == a && j == i && endsIn (s.mixes.get a).release j) = (b == a && j == i) := by
      rw [Bool.eq_iff_iff]
      simp only [Bool.and_eq_true, beq_iff_eq, and_iff_left_iff_imp]
      rintro ⟨-, rfl⟩
      exact h
    simp only [named]
    exact freeChannel_endRelease a i s
  · next h =>
    refine (releasesEnded_none fun b j => ?_).symm
    rw [Bool.eq_false_iff]
    simp only [ne_eq, Bool.and_eq_true, beq_iff_eq]
    rintro ⟨⟨-, rfl⟩, he⟩
    exact h he

/-- The end of one release entry says nothing of another seat's. -/
theorem endsIn_filter {l : List Release} {p : SeatId → Bool} {j : SeatId} (h : p j = false) :
    endsIn (l.filter fun e => !p e.seat) j = endsIn l j := by
  rw [endsIn, endsIn, List.any_filter]
  refine congrArg l.any (funext fun e => ?_)
  by_cases hj : e.seat = j
  · subst hj
    rw [h]
    rfl
  · rw [beq_eq_false_iff_ne.mpr hj, Bool.false_and, Bool.and_false]

/-- Of the seats of a list, those whose entry is at its end. -/
theorem foldl_releaseEndOf (a : Segment) (l : List SeatId) (s : State) :
    l.foldl (fun t i => releaseEndOf a i t) s =
      releasesEnded (fun b j => b == a && l.contains j && endsIn (s.mixes.get a).release j) s := by
  induction l generalizing s with
  | nil => exact (releasesEnded_none (by simp)).symm
  | cons i l ih =>
    rw [List.foldl_cons, releaseEndOf_eq, ih, releasesEnded_comp]
    refine congrArg (fun p => releasesEnded p s) (funext fun b => funext fun j => ?_)
    have mixes : ((releasesEnded (fun b j => b == a && j == i && endsIn (s.mixes.get a).release j) s).mixes.get a).release =
        (s.mixes.get a).release.filter fun e => !(e.seat == i && endsIn (s.mixes.get a).release e.seat) := by
      simp [releasesEnded]
    rw [mixes]
    by_cases hj : j = i
    · subst hj
      cases hb : b == a <;> cases he : endsIn (s.mixes.get a).release j
      · rfl
      · rfl
      · rw [endsIn_filter (p := fun x => x == j && endsIn (s.mixes.get a).release x) (by simp [he]), he]
        simp
      · simp
    · rw [endsIn_filter (p := fun x => x == i && endsIn (s.mixes.get a).release x) (by simp [hj])]
      simp [hj]

theorem endReleases_eq (a : Segment) (s : State) :
    endReleases a s = releasesEnded (fun b j => b == a && endsIn (s.mixes.get a).release j) s := by
  rw [endReleases, foldl_releaseEndOf]
  refine congrArg (fun p => releasesEnded p s) (funext fun b => funext fun j => ?_)
  have of_ends : endsIn (s.mixes.get a).release j = true →
      ((s.mixes.get a).release.map Release.seat).contains j = true := by
    intro h
    obtain ⟨e, he, hj⟩ := List.any_eq_true.mp h
    rw [List.contains_iff_mem]
    exact List.mem_map.mpr ⟨e, he, by simpa using (Bool.and_eq_true_iff.mp hj).1⟩
  cases he : endsIn (s.mixes.get a).release j
  · simp
  · rw [of_ends he, Bool.and_true]

/-- Stage 7 of every room (R142). -/
theorem foldl_endReleases (s : State) :
    allSegments.foldl (fun t a => endReleases a t) s =
      releasesEnded (fun b j => endsIn (s.mixes.get b).release j) s := by
  have rooms (l : List Segment) (hl : l.Nodup) (t : State) : l.foldl (fun t a => endReleases a t) t =
      releasesEnded (fun b j => l.contains b && endsIn (t.mixes.get b).release j) t := by
    induction l generalizing t with
    | nil => exact (releasesEnded_none (by simp)).symm
    | cons a l ih =>
      obtain ⟨ha, hl⟩ := List.nodup_cons.mp hl
      rw [List.foldl_cons, ih hl, endReleases_eq, releasesEnded_comp]
      refine congrArg (fun p => releasesEnded p t) (funext fun b => funext fun j => ?_)
      by_cases hb : b = a
      · subst hb
        have : l.contains b = false := by simpa using ha
        rw [this, Bool.false_and, Bool.or_false, beq_self_eq_true, List.contains_cons, beq_self_eq_true]
        rfl
      · have same : ((releasesEnded (fun b j => b == a && endsIn (t.mixes.get a).release j) t).mixes.get b).release =
            (t.mixes.get b).release := by
          simp [releasesEnded, hb]
        rw [same]
        simp [hb]
  rw [rooms allSegments (List.nodup_finRange 6)]
  refine congrArg (fun p => releasesEnded p s) (funext fun b => funext fun j => ?_)
  simp [allSegments]

/-! ### A taken frame event, stage by stage -/

/-- The state of a taken frame event before the downlink frames: rooms computed, outputs formed, release entries ended. -/
def framedHall (levels : WallMap) (inputs : Tab 8 (Option Sys2Proof.BoothFrame)) (s : State) : State :=
  allSegments.foldl (fun t a => endReleases a t) (formOutputs inputs (computeRooms inputs (sampled levels inputs s)))

theorem frameStep_eq (levels : WallMap) (inputs : Tab 8 (Option Sys2Proof.BoothFrame)) (s : State) :
    frameStep levels inputs s = sendDownlinks (framedHall levels inputs s) := rfl

section
variable (levels : WallMap) (inputs : Tab 8 (Option Sys2Proof.BoothFrame)) (s : State)

/-- The release set of a room after the gains have moved, before entries end (R150). -/
theorem release_roomsComputed (a : Segment) :
    ((computeRooms inputs (sampled levels inputs s)).mixes.get a).release = lowered s a := by
  rw [computeRooms_rest]
  simp only [roomsComputed, Tab.get_ofFn, lowered]
  have rooms : (sampled levels inputs s).rooms = s.rooms := rfl
  have mixes : (sampled levels inputs s).mixes = s.mixes := rfl
  rw [rooms, mixes]
  split
  · have step : (stepFade (s.mixes.get a)).release = (s.mixes.get a).release := by
      unfold stepFade
      split <;> rfl
    simp only [computeRoom, mixes, step]
    rfl
  · rfl

theorem endsIn_eq (l : List Release) (i : SeatId) :
    endsIn l i = l.any fun x => x.seat == i && x.gain == 0 && !x.fresh := by
  simp only [endsIn, Release.atEnd, Bool.and_assoc]

theorem framedHall_eq :
    framedHall levels inputs s =
      releasesEnded (fun b j => endsIn (lowered s b) j) (formOutputs inputs (computeRooms inputs (sampled levels inputs s))) := by
  rw [framedHall, foldl_endReleases]
  refine congrArg (fun p => releasesEnded p _) (funext fun b => funext fun j => ?_)
  rw [← release_roomsComputed levels inputs s b]
  rfl

theorem release_framedHall (a : Segment) :
    ((framedHall levels inputs s).mixes.get a).release =
      (lowered s a).filter fun e => !endsIn (lowered s a) e.seat := by
  rw [framedHall_eq]
  simp only [releasesEnded, Tab.get_ofFn]
  rw [← release_roomsComputed levels inputs s a]
  rfl

theorem trunk_framedHall (k : TrunkId) :
    (framedHall levels inputs s).trunks.get k =
      { s.trunks.get k with
        channels := withoutSeats (fun i => endsAtFrame s i) k (s.trunks.get k).channels } := by
  rw [framedHall_eq, computeRooms_rest]
  simp only [releasesEnded, Tab.get_ofFn, endsAtFrame, endsIn_eq]
  rfl

end

/-- A taken frame event is `frameStep`, and then only the ports change. -/
theorem exec_frame {micros : Nat} {levels : WallMap} {inputs : Tab 8 (Option Sys2Proof.BoothFrame)} {s : State}
    (hheld : s.held = false) (h : s.edgeSeen = false ∨ 900 ≤ micros) :
    exec (.frameEvent micros levels inputs) s = .next (startTransmitters (frameStep levels inputs s)) := by
  rw [← takeEdge_taken h]
  exact carryOut_eq hheld _

/-! ### A taken frame event, field by field -/

/-- Sending the downlink frames leaves all but the trunks and the frames as it was. -/
theorem sendDownlinks_rest (u : State) :
    startTransmitters (sendDownlinks u) =
      { u with
        trunks := u.trunks.map afterDownlink
        downlinks := Tab.ofFn fun k => downlinkOf u k
        ports := u.ports.map PortRec.startSending } := by
  rw [startTransmitters_frame]
  rfl

theorem afterDownlink_unpowered {r : Trunk} (h : r.power = .unpowered) : afterDownlink r = { r with audio := none } := by
  simp only [afterDownlink, h]

theorem afterDownlink_powered {r : Trunk} (h : r.power ≠ .unpowered) :
    afterDownlink r =
      { r with
        generator := (nextWord r.generator).1
        testPending := false
        acks := Tab.replicate 40 none
        refusals := Tab.replicate 40 false
        audio := none } := by
  unfold afterDownlink
  split
  · next hp => exact absurd hp h
  · rfl
  · rfl

/-- The fields of a downlink frame (R36, R52, R163). -/
theorem downlinkOf_powered {u : State} {k : TrunkId} (h : (u.trunks.get k).power ≠ .unpowered) :
    downlinkOf u k =
      some
        { word := sentWord (u.trunks.get k)
          fields := Tab.ofFn fun pos => seatFields u k pos
          signals := u.signals.get (roomOf u k) } := by
  unfold downlinkOf
  dsimp only
  split
  · next hp => exact absurd hp h
  · rfl
  · rfl

section
variable (levels : WallMap) (inputs : Tab 8 (Option Sys2Proof.BoothFrame)) (s : State)

theorem frameStep_release (a : Segment) :
    ((startTransmitters (frameStep levels inputs s)).mixes.get a).release =
      (lowered s a).filter fun e => !endsIn (lowered s a) e.seat := by
  have h := release_framedHall levels inputs s a
  rw [frameStep_eq, sendDownlinks_rest]
  generalize framedHall levels inputs s = u at h ⊢
  exact h

theorem frameStep_trunk (k : TrunkId) :
    (startTransmitters (frameStep levels inputs s)).trunks.get k =
      { afterDownlink (s.trunks.get k) with
        channels := withoutSeats (fun i => endsAtFrame s i) k (s.trunks.get k).channels } := by
  have sent : (startTransmitters (frameStep levels inputs s)).trunks.get k =
      afterDownlink ((framedHall levels inputs s).trunks.get k) := by
    rw [frameStep_eq, sendDownlinks_rest]
    exact Tab.get_map ..
  rw [sent, trunk_framedHall, afterDownlink, afterDownlink]
  split <;> next h => rw [show (s.trunks.get k).power = _ from h]

theorem frameStep_channel (k : TrunkId) (c : Channel) :
    ((startTransmitters (frameStep levels inputs s)).trunks.get k).channels.get c =
      ((s.trunks.get k).channels.get c).filter fun i => !(endsAtFrame s i && segmentOf i == k) := by
  rw [frameStep_trunk]
  exact Tab.get_map ..

theorem frameStep_downlink (k : TrunkId) :
    (startTransmitters (frameStep levels inputs s)).downlinks.get k = downlinkOf (framedHall levels inputs s) k := by
  rw [frameStep_eq, sendDownlinks_rest]
  exact Tab.get_ofFn ..

theorem framedHall_frameFrame : FrameFrame (sampled levels inputs s) (framedHall levels inputs s) :=
  ((computeRooms_frameFrame inputs _).trans (formOutputs_frameFrame inputs _)).trans
    (.foldl (fun s a => endReleases_frameFrame a s) _ _)

end

/-- Settles O36: stage 7 is `releasesEnded` of the entries at their end, and RELEASE_END is its single step. -/
theorem releaseEntriesEnd : Obligations.ReleaseEntriesEnd := by
  constructor
  · intro micros levels inputs s hheld h
    refine ⟨_, exec_frame hheld h, fun a => ?_, fun k c => frameStep_channel levels inputs s k c⟩
    simp only [← endsIn_eq]
    exact frameStep_release levels inputs s a
  · intro i s hheld a
    have run {t : State} (h : releaseEndOf a i s = t) : exec (.releaseEnd i) s = .next (conclude t [] none) :=
      exec_event (effect := fun s => releaseEndOf (seatRoom s i) i s) (sent := []) hheld rfl h
    constructor
    · rintro ⟨e, he, hi, hg, hf⟩
      have ends : ((s.mixes.get a).release.any fun e => e.seat == i && e.atEnd) = true :=
        List.any_eq_true.mpr ⟨e, he, by simp [hi, Release.atEnd, hg, hf]⟩
      refine run ((if_pos ends).trans ?_)
      simp only [freeChannel, endRelease, State.modTrunk, State.modMix, beq_iff_eq]
    · intro none_ends
      refine run (if_neg fun h => ?_)
      obtain ⟨e, he, h⟩ := List.any_eq_true.mp h
      simp only [Release.atEnd, Bool.and_eq_true, beq_iff_eq, Bool.not_eq_true'] at h
      obtain ⟨hi, hg, hf⟩ := h
      rcases none_ends e he hi with hn | hn
      · exact hn hg
      · rw [hf] at hn; cases hn

/-! ### The downlink frames (R36, R37, R43, R52, R53, R163) -/

theorem indicatorOf_eq (u : State) (i : SeatId) :
    indicatorOf u i =
      match (u.floors.get (seatRoom u i)).speakers.find? fun e => e.seat == i with
      | some e => if e.state = .opened then .speaking else .suspended
      | none => if (u.floors.get (seatRoom u i)).queue.any fun q => q.seat == i then .requested else .idle := by
  simp only [indicatorOf, floorOf, speakerOf, hasRequest, beq_iff_eq]
  rfl

@[simp] theorem segmentOf_seatAt (k : TrunkId) (pos : Position) : segmentOf (seatAt k pos) = k := by
  have hk := k.isLt
  have hp := pos.isLt
  exact Fin.ext (by simp only [segmentOf, seatAt]; omega)

@[simp] theorem positionOf_seatAt (k : TrunkId) (pos : Position) : positionOf (seatAt k pos) = pos := by
  have hp := pos.isLt
  exact Fin.ext (by simp only [positionOf, seatAt]; omega)

theorem roomOf_framedHall (levels : WallMap) (inputs : Tab 8 (Option Sys2Proof.BoothFrame)) (s : State) (g : Segment) :
    roomOf (framedHall levels inputs s) g = roomOf s g := by
  have rooms : (framedHall levels inputs s).rooms = s.rooms := by rw [(framedHall_frameFrame levels inputs s).rest]; rfl
  rw [roomOf_of_rooms rooms]

/-- Settles O38: the frame is read off `framedHall`, whose trunks differ from the first ones in their channels only. -/
theorem frameSendsDownlinks : Obligations.FrameSendsDownlinks := by
  intro micros levels inputs s k hheld h
  refine ⟨_, exec_frame hheld h, ?_⟩
  intro r a
  have trunk := frameStep_trunk levels inputs s k
  have sent := frameStep_downlink levels inputs s k
  have before := trunk_framedHall levels inputs s k
  have power : ((framedHall levels inputs s).trunks.get k).power = r.power := by rw [before]
  refine ⟨fun hp => ⟨?_, ?_⟩, fun hp => ⟨?_, _, sent.trans (downlinkOf_powered (power.trans_ne hp)), ?_, ?_, fun pos => ?_⟩⟩
  · rw [sent]
    simp only [downlinkOf, power, hp]
  · rw [trunk, afterDownlink_unpowered hp]
  · rw [trunk, afterDownlink_powered hp]
  · simp only [sentWord, before]
    rfl
  · rw [roomOf_framedHall, frameStep_eq, sendDownlinks_rest]
  · have floors : (startTransmitters (frameStep levels inputs s)).floors = (framedHall levels inputs s).floors := by
      rw [frameStep_eq, sendDownlinks_rest]
    have channels : ((startTransmitters (frameStep levels inputs s)).trunks.get k).channels =
        ((framedHall levels inputs s).trunks.get k).channels := by
      rw [trunk, before]
    have queue := ((framedHall_frameFrame levels inputs s).floors a).1
    have room : seatRoom (framedHall levels inputs s) (seatAt k pos) = a := by
      rw [seatRoom, segmentOf_seatAt, roomOf_framedHall]
    simp only [Tab.get_ofFn, seatFields, indicatorOf_eq, channelOf, channelIn, segmentOf_seatAt, room, floors, channels]
    have seats : (framedHall levels inputs s).seats = s.seats := by
      rw [(framedHall_frameFrame levels inputs s).rest]
      rfl
    have sampled_queue : ((sampled levels inputs s).floors.get a).queue = (s.floors.get a).queue := by
      simp [sampled, takeTallies, sampleWalls, advanceClock, Floor.inAgeOrder]
    generalize framedHall levels inputs s = u at queue seats before ⊢
    rw [queue, sampled_queue, seats, before] <;> rfl

end Sys2Proof.Machine
end

section
/-! The operations of a floor with the rooms as they are, each as the state it leaves with the notices it sends (R70, R76 to
R78, R98, R103), and a link that is lost (R35, R45, R61). -/

namespace Sys2Proof.Machine
open Sys2Proof.Safety

/-! ### Notices before an operation -/

@[simp] theorem sendAll_floors (sent : List Sent) (s : State) : (sendAll sent s).floors = s.floors := by
  rw [sendAll_frame]

@[simp] theorem sendAll_seats (sent : List Sent) (s : State) : (sendAll sent s).seats = s.seats := by
  rw [sendAll_frame]

@[simp] theorem sendAll_profiles (sent : List Sent) (s : State) : (sendAll sent s).profiles = s.profiles := by
  rw [sendAll_frame]

@[simp] theorem sendAll_poolFree (sent : List Sent) (s : State) : (sendAll sent s).poolFree = s.poolFree := by
  rw [sendAll_frame]

theorem membersOf_sendAll (sent : List Sent) (s : State) : membersOf (sendAll sent s) = membersOf s := by
  rw [sendAll_frame]; rfl

theorem roomOf_sendAll (sent : List Sent) (s : State) : roomOf (sendAll sent s) = roomOf s := by
  rw [sendAll_frame]; rfl

/-- An operation after notices, where it neither reads nor writes the ports but by its own notices. -/
theorem op_sendAll {op : State → State} {sent : State → List Sent} {after : State → State} {l : List Sent} {s : State}
    (h : op (sendAll l s) = sendAll (sent (sendAll l s)) (after (sendAll l s)))
    (hsent : sent (sendAll l s) = sent s) (hafter : after (sendAll l s) = sendAll l (after s)) :
    op (sendAll l s) = sendAll (l ++ sent s) (after s) := by
  rw [h, hsent, hafter, sendAll_append]

theorem modFloor_sendAll (sent : List Sent) (s : State) (a : Segment) (f : Floor → Floor) :
    (sendAll sent s).modFloor a f = sendAll sent (s.modFloor a f) :=
  eq_sendAll_of_frame (s := s) sent rfl rfl (by rw [sendAll_frame]; rfl)

theorem endRelease_sendAll (sent : List Sent) (s : State) (a : Segment) (i : SeatId) :
    endRelease a i (sendAll sent s) = sendAll sent (endRelease a i s) :=
  eq_sendAll_of_frame (s := s) sent rfl rfl (by rw [sendAll_frame]; rfl)

theorem freeChannel_sendAll (sent : List Sent) (s : State) (i : SeatId) :
    freeChannel i (sendAll sent s) = sendAll sent (freeChannel i s) :=
  eq_sendAll_of_frame (s := s) sent rfl rfl (by rw [sendAll_frame]; rfl)

theorem takeRequest_sendAll (sent : List Sent) (s : State) (a : Segment) (i : SeatId) :
    takeRequest a i (sendAll sent s) = sendAll sent (takeRequest a i s) := by
  simp only [takeRequest_eq, sendAll_floors, sendAll_poolFree, modFloor_sendAll]
  exact eq_sendAll_of_frame (s := s.modFloor a _) sent rfl rfl (by rw [sendAll_frame]; rfl)

/-! ### Channels (R51) -/

theorem freed_eq_withoutSeats (k : TrunkId) (gone : List SeatId) (t : Tab 16 (Option SeatId)) :
    freed k gone t = withoutSeats (fun i => gone.contains i) k t := by
  refine congrArg (fun f => t.map f) (funext fun held => ?_)
  cases held with
  | none => rfl
  | some i => simp only [Option.filter_some]; cases gone.contains i && segmentOf i == k <;> rfl

@[simp] theorem freed_nil (k : TrunkId) (t : Tab 16 (Option SeatId)) : freed k [] t = t := by
  rw [freed_eq_withoutSeats]
  exact withoutSeats_none (by simp) k t

/-- The seats `gone` lose their channels. -/
def State.freeAll (s : State) (gone : List SeatId) : State :=
  { s with trunks := Tab.ofFn fun k => { s.trunks.get k with channels := freed k gone (s.trunks.get k).channels } }

theorem freeAll_nil (s : State) : s.freeAll [] = s := by
  have trunks : (s.freeAll []).trunks = s.trunks := Tab.ext_get fun k => by simp [State.freeAll]
  calc s.freeAll [] = { s with trunks := (s.freeAll []).trunks } := rfl
    _ = s := by rw [trunks]

theorem freeChannel_freeAll (i : SeatId) (gone : List SeatId) (s : State) :
    (freeChannel i s).freeAll gone = s.freeAll (i :: gone) := by
  have trunks : ((freeChannel i s).freeAll gone).trunks = (s.freeAll (i :: gone)).trunks := Tab.ext_get fun k => by
    simp only [State.freeAll, Tab.get_ofFn, freeChannel_trunk, freed_eq_withoutSeats, withoutSeats_comp,
      List.contains_cons]
  calc (freeChannel i s).freeAll gone = { s with trunks := ((freeChannel i s).freeAll gone).trunks } := rfl
    _ = s.freeAll (i :: gone) := by rw [trunks]; rfl

theorem foldl_freeChannel (l : List SeatId) (s : State) :
    l.foldl (fun t i => freeChannel i t) s = s.freeAll l := by
  induction l generalizing s with
  | nil => exact (freeAll_nil s).symm
  | cons i l ih => rw [List.foldl_cons, ih, freeChannel_freeAll]

/-! ### The removal of a speaker entry (R76, R149) -/

/-- The oldest entries beyond six leave a release set (R149). -/
theorem capRelease_eq (a : Segment) (s : State) :
    capRelease a s =
      (s.modMix a fun m => { m with release := m.release.drop ((s.mixes.get a).release.length - 6) }).freeAll
        (((s.mixes.get a).release.take ((s.mixes.get a).release.length - 6)).map Release.seat) := by
  rw [← foldl_freeChannel, List.foldl_map]
  rfl

theorem addRelease_current (a : Segment) (i : SeatId) (gain : Nat) (s : State) :
    addRelease .current a i gain s =
      let grown := (s.mixes.get a).release ++ [{ seat := i, gain := gain, stamp := s.releaseCounter, fresh := true }]
      ({ s with
        releaseCounter := s.releaseCounter + 1
        mixes := s.mixes.modify a fun m => { m with release := grown.drop (grown.length - 6) } }).freeAll
        ((grown.take (grown.length - 6)).map Release.seat) := by
  simp only [addRelease, Sets.roomFor, capRelease_eq, State.setReleaseCounter_mixes, State.modMix_mixes, Tab.get_modify_self]
  refine congrArg (fun m => State.freeAll { s with releaseCounter := s.releaseCounter + 1, mixes := m } _) ?_
  refine Tab.ext_get fun b => ?_
  by_cases hb : a = b
  · subst hb; simp only [Tab.get_modify_self, State.setReleaseCounter_mixes, State.modMix_mixes]
  · simp only [Tab.get_modify_ne _ _ hb, State.setReleaseCounter_mixes, State.modMix_mixes]

/-- A removal that moves the gain to the release set (R76, R149). -/
theorem removeSpeaker_kept {a : Segment} {i : SeatId} {reason : FloorReason} {s : State} {e : Speaker}
    (he : speakerOf (s.floors.get a) i = some e) (hk : keepsGain reason = true) :
    removeSpeaker .current a i reason s = sendAll [floorSent s a i .closed reason] (afterRemoval s a i e.gain) := by
  simp only [removeSpeaker, floorOf, he, hk, if_true, addRelease_current]
  exact eq_sendAll_of_frame (s := s) _ rfl rfl rfl

theorem removeSpeaker_none {sets : Sets} {a : Segment} {i : SeatId} {reason : FloorReason} {s : State}
    (he : speakerOf (s.floors.get a) i = none) : removeSpeaker sets a i reason s = s := by
  simp only [removeSpeaker, floorOf, he]

/-- A removal that drops the gain: the channel is freed (R76). -/
theorem removeSpeaker_dropped {sets : Sets} {a : Segment} {i : SeatId} {reason : FloorReason} {s : State} {e : Speaker}
    (he : speakerOf (s.floors.get a) i = some e) (hk : keepsGain reason = false) :
    removeSpeaker sets a i reason s =
      sendAll [floorSent s a i .closed reason]
        (freeChannel i (s.modFloor a fun f =>
          { f with
            speakers := f.speakers.eraseP fun x => x.seat == i
            holders := f.holders.filter fun h => h.seat != i })) := by
  simp only [removeSpeaker, floorOf, he, hk, Bool.false_eq_true, if_false]
  exact eq_sendAll_of_frame (s := s) _ rfl rfl rfl

theorem hasSpeaker_eq_isSome (f : Floor) (i : SeatId) : hasSpeaker f i = (speakerOf f i).isSome := by
  rw [Bool.eq_iff_iff, hasSpeaker, speakerOf, List.any_eq_true, List.find?_isSome]

/-! ### Everything of a seat leaves (R59, R61, R78, R151) -/

theorem afterDrop_sendAll (sent : List Sent) (s : State) (a : Segment) (i : SeatId) :
    afterDrop (sendAll sent s) a i = sendAll sent (afterDrop s a i) :=
  eq_sendAll_of_frame (s := s) sent rfl rfl (by rw [sendAll_frame]; rfl)

theorem dropSent_sendAll (sent : List Sent) (s : State) : dropSent (sendAll sent s) = dropSent s := by
  rw [sendAll_frame]; rfl

/-- The speaker entry and the hold of a seat leave a floor. -/
def Floor.silenced (i : SeatId) (f : Floor) : Floor :=
  { f with
    speakers := f.speakers.eraseP fun x => x.seat == i
    holders := f.holders.filter fun h => h.seat != i }

theorem eraseP_speakers_of_none {f : Floor} {i : SeatId} (h : speakerOf f i = none) :
    (f.speakers.eraseP fun x => x.seat == i) = f.speakers :=
  List.eraseP_of_forall_not fun e he hi => (List.find?_eq_none.mp h e he) hi

theorem freeChannel_twice (i : SeatId) (s : State) : freeChannel i (freeChannel i s) = freeChannel i s := by
  have trunks : (freeChannel i (freeChannel i s)).trunks = (freeChannel i s).trunks := Tab.ext_get fun k => by
    simp only [freeChannel_trunk, withoutSeats_comp, Bool.or_self]
  calc freeChannel i (freeChannel i s) = { s with trunks := (freeChannel i (freeChannel i s)).trunks } := rfl
    _ = freeChannel i s := by rw [trunks]; rfl

/-- A request that leaves without a mark (R77). -/
theorem removeRequest_unmarked (a : Segment) (i : SeatId) {reason : FloorReason} (s : State)
    (hm : marksRefusal reason = false) :
    removeRequest a i reason s =
      sendAll (if hasRequest (s.floors.get a) i then [floorSent s a i .dequeued reason] else []) (takeRequest a i s) := by
  unfold removeRequest takeRequest floorOf
  by_cases h : hasRequest (s.floors.get a) i = true
  · simp only [if_pos h, hm, Bool.false_eq_true, if_false]
    rfl
  · simp only [if_neg h, sendAll_nil]

/-- What `dropSeat` does after the speaker entry: the request, the hold, the release entry and the channel. -/
def dropRest (a : Segment) (i : SeatId) (s : State) : State :=
  freeChannel i (endRelease a i ((takeRequest a i s).modFloor a fun f =>
    { f with holders := f.holders.filter fun h => h.seat != i }))

theorem dropRest_freeChannel (a : Segment) (i : SeatId) (s : State) : dropRest a i (freeChannel i s) = dropRest a i s := by
  have twice := freeChannel_twice i (endRelease a i ((takeRequest a i s).modFloor a fun f =>
    { f with holders := f.holders.filter fun h => h.seat != i }))
  simp only [dropRest, takeRequest_eq] at twice ⊢
  exact twice

theorem dropRest_silenced (a : Segment) (i : SeatId) (s : State) :
    dropRest a i (s.modFloor a (Floor.silenced i)) = afterDrop s a i := by
  have floors : (dropRest a i (s.modFloor a (Floor.silenced i))).floors = (afterDrop s a i).floors :=
    Tab.ext_get fun b => by
      simp only [dropRest, takeRequest_eq, afterDrop, freeChannel, endRelease, State.modTrunk_floors, State.modMix_floors,
        State.modFloor_floors, State.setPoolFree_floors, Tab.get_modify]
      split
      · simp [Floor.silenced]
      · rfl
  have pool : (dropRest a i (s.modFloor a (Floor.silenced i))).poolFree = (afterDrop s a i).poolFree := by
    simp [dropRest, takeRequest_eq, afterDrop, freeChannel, endRelease, Floor.silenced]
  calc dropRest a i (s.modFloor a (Floor.silenced i)) =
      { freeChannel i (endRelease a i s) with
        floors := (dropRest a i (s.modFloor a (Floor.silenced i))).floors
        poolFree := (dropRest a i (s.modFloor a (Floor.silenced i))).poolFree } := by
        rw [dropRest, takeRequest_eq]; rfl
    _ = afterDrop s a i := by
      rw [floors, pool]
      simp only [freeChannel, endRelease, beq_iff_eq]
      rfl

theorem dropRest_of_none {a : Segment} {i : SeatId} {s : State} (he : speakerOf (s.floors.get a) i = none) :
    dropRest a i s = afterDrop s a i := by
  rw [← dropRest_silenced]
  have floors : (dropRest a i s).floors = (dropRest a i (s.modFloor a (Floor.silenced i))).floors :=
    Tab.ext_get fun b => by
      simp only [dropRest, takeRequest_eq, freeChannel, endRelease, State.modTrunk_floors, State.modMix_floors,
        State.modFloor_floors, State.setPoolFree_floors, Tab.get_modify]
      split
      · next hb => subst hb; simp [Floor.silenced, eraseP_speakers_of_none he]
      · rfl
  have pool : (dropRest a i s).poolFree = (dropRest a i (s.modFloor a (Floor.silenced i))).poolFree := by
    simp [dropRest, takeRequest_eq, freeChannel, endRelease, Floor.silenced]
  calc dropRest a i s =
      { freeChannel i (endRelease a i s) with floors := (dropRest a i s).floors, poolFree := (dropRest a i s).poolFree } := by
        rw [dropRest, takeRequest_eq]; rfl
    _ = dropRest a i (s.modFloor a (Floor.silenced i)) := by
      rw [floors, pool, dropRest, takeRequest_eq]
      rfl

theorem dropRest_sendAll (a : Segment) (i : SeatId) (sent : List Sent) (s : State) :
    dropRest a i (sendAll sent s) = sendAll sent (dropRest a i s) := by
  simp only [dropRest, takeRequest_sendAll, modFloor_sendAll, endRelease_sendAll, freeChannel_sendAll]

/-- The offline reasons drop the gain and leave no mark. -/
theorem dropSeat_eq (a : Segment) (i : SeatId) {reason : FloorReason} (s : State) (hk : keepsGain reason = false)
    (hm : marksRefusal reason = false) :
    dropSeat .current a i reason s = sendAll (dropSent s a i reason) (afterDrop s a i) := by
  have rest (u : State) :
      freeChannel i (endRelease a i ((removeRequest a i reason u).modFloor a fun f =>
        { f with holders := f.holders.filter fun h => h.seat != i })) =
        sendAll (if hasRequest (u.floors.get a) i then [floorSent u a i .dequeued reason] else []) (dropRest a i u) := by
    rw [removeRequest_unmarked a i u hm, dropRest]
    simp only [modFloor_sendAll, endRelease_sendAll, freeChannel_sendAll]
  unfold dropSeat
  simp only [Sets.roomFor]
  rw [rest]
  cases he : speakerOf (s.floors.get a) i with
  | none =>
    have hs : hasSpeaker (s.floors.get a) i = false := by rw [hasSpeaker_eq_isSome, he]; rfl
    rw [removeSpeaker_none he, dropRest_of_none he, dropSent, hs]
    rfl
  | some e =>
    have hs : hasSpeaker (s.floors.get a) i = true := by rw [hasSpeaker_eq_isSome, he]; rfl
    rw [removeSpeaker_dropped he hk, dropRest_sendAll, dropRest_freeChannel, floorSent_sendAll]
    have same := dropRest_silenced a i s
    unfold Floor.silenced at same
    rw [same, ← sendAll_append, dropSent, hs, if_pos rfl]
    refine congrArg (fun l => sendAll l _) (congrArg _ ?_)
    simp [freeChannel, hasRequest]
    rfl

/-! ### Suspension and resumption (R98, R103) -/

theorem foldl_floorNotice (a : Segment) (l : List SeatId) (change : FloorChange) (s : State) :
    floorNotices a l change s = sendAll (l.map fun i => floorSent s a i change .none) s := by
  induction l generalizing s with
  | nil => rfl
  | cons i l ih => exact ih (floorNotice a i change .none s)

theorem suspendEntry_eq (now : Clock) (e : Speaker) : suspendEntry now e = suspended now e := by
  unfold suspendEntry suspended
  cases e.state <;> cases e.chairAtGrant <;> rfl

theorem resumeEntry_eq (now : Clock) (e : Speaker) : resumeEntry now e = resumed now e := by
  unfold resumeEntry resumed
  cases e.state <;> rfl

/-- Every SUSPENDED entry of a room resumes (R103). -/
def resumedIn (s : State) (a : Segment) : State :=
  s.modFloor a fun f => { f with speakers := f.speakers.map (resumed s.clock) }

/-- Every non-chair OPEN entry of a room is suspended (R98). -/
def suspendedIn (s : State) (a : Segment) : State :=
  s.modFloor a fun f => { f with speakers := f.speakers.map (suspended s.clock) }

theorem resumeAll_eq (a : Segment) (s : State) :
    resumeAll a s =
      sendAll (((s.floors.get a).speakers.filter fun e => e.state == .suspended).map
        fun e => floorSent s a e.seat .resumed .none) (resumedIn s a) := by
  simp only [resumeAll, foldl_floorNotice, List.map_map, funext (resumeEntry_eq s.clock)]
  rfl

theorem suspendAll_eq (a : Segment) (s : State) :
    suspendAll a s =
      sendAll (((s.floors.get a).speakers.filter fun e => !e.chairAtGrant && e.state == .opened).map
        fun e => floorSent s a e.seat .suspended .none) (suspendedIn s a) := by
  simp only [suspendAll, foldl_floorNotice, List.map_map, funext (suspendEntry_eq s.clock)]
  rfl

theorem priorityHeld_eq_false {s : State} {a : Segment} : priorityHeld s a = false ↔ (s.floors.get a).holders = [] := by
  simp [priorityHeld, floorOf]

theorem priorityHeld_iff {s : State} {a : Segment} : priorityHeld s a = true ↔ (s.floors.get a).holders ≠ [] := by
  simp [priorityHeld, floorOf]

theorem priorityHeld_sendAll (sent : List Sent) (s : State) (a : Segment) : priorityHeld (sendAll sent s) a = priorityHeld s a := by
  simp only [priorityHeld, floorOf, sendAll_floors]

theorem Tab.modify_twice {n : Nat} {α : Type} (t : Tab n α) (i : Fin n) (f g : α → α) :
    (t.modify i f).modify i g = t.modify i fun x => g (f x) :=
  Tab.ext_get fun j => by by_cases h : i = j <;> simp [Tab.get_modify, h]

/-- A seat joins the holder set (R98, R100, R105). -/
theorem joinHold_eq (a : Segment) (i : SeatId) (s : State) :
    joinHold a i s = sendAll (holdSent s a) (afterHold s a i) := by
  have held : suspendedIn (s.modFloor a fun f =>
      { f with holders := insertBy (holderBefore s.clock) { seat := i, pressTime := s.clock } f.holders }) a =
        afterHold s a i :=
    congrArg s.setFloors (Tab.modify_twice s.floors a _ fun f => { f with speakers := f.speakers.map (suspended s.clock) })
  unfold joinHold
  simp only [suspendAll_eq, held, State.modFloor_floors, Tab.get_modify_self]
  rw [holdSent, sendAll_append]
  cases hh : (s.floors.get a).holders with
  | nil =>
    rw [if_neg (by simp [priorityHeld_eq_false.mpr hh]), if_pos rfl, sendAll_single]
    refine congrArg (fun l => notify l (.priority a true) _) ?_
    exact congrFun (membersOf_sendAll ..) a
  | cons h rest =>
    rw [if_pos (priorityHeld_iff.mpr (by simp [hh])), if_neg (by simp), sendAll_nil]
    rfl

/-! ### The end of the handling (R79, R80, R103) -/

/-- Priority ends where no hold is left: the resumptions and PRIORITY off (R103). -/
theorem resume_eq {a : Segment} {s : State} (h : (s.floors.get a).holders = []) :
    priorityNotice a false (resumeAll a s) = sendAll (priorityEndSent s a) (priorityEnded s a) := by
  have ended : resumedIn s a = priorityEnded s a := by
    refine congrArg s.setFloors (Tab.ext_get fun b => ?_)
    by_cases hb : a = b
    · subst hb; simp [h]
    · simp [Tab.get_modify_ne _ _ hb]
  rw [resumeAll_eq, ended, priorityEndSent, sendAll_append, sendAll_single]
  exact congrArg (fun l => notify l (.priority a false) _) (congrFun (membersOf_sendAll ..) a)

/-- Nothing is granted while priority is held (R79). -/
theorem autoAdvance_held (sets : Sets) {a : Segment} {s : State} (h : priorityHeld s a = true) :
    autoAdvance sets a s = s := by
  unfold autoAdvance
  generalize (floorOf s a).queue.length = n
  cases n with
  | zero => rfl
  | succ n =>
    have may : mayAdvance s a = false := by simp [mayAdvance, h]
    rw [advance, may]
    cases (floorOf s a).queue <;> rfl

/-- Auto-advance of R79 from a state with notices. -/
theorem advanced_autoAdvance {g : State → Host.Outcome State Fault Refusal} {reply : Option (Port × Reply)}
    (hg : ∀ l t, g (sendAll l t) = .next (conclude t l reply)) (s : State) (a : Segment) (sent : List Sent) :
    advanced s a sent (fun _ => reply) (g (autoAdvance .current a (sendAll sent s))) := by
  obtain ⟨n, hn, hadv⟩ := advance_eq a _ s sent le_rfl
  refine ⟨n, hn, ?_⟩
  rw [autoAdvance, floorOf, sendAll_floors, hadv, hg]

/-- The end of the handling from a state with notices, whatever is then made of the state. -/
theorem handled_endHandling {g : State → Host.Outcome State Fault Refusal} {reply : Option (Port × Reply)}
    (hg : ∀ l t, g (sendAll l t) = .next (conclude t l reply)) (before : List Holder) (s : State) (a : Segment)
    (sent : List Sent) (started : Bool) :
    handled before s a sent started reply (g (endHandling .current a (!before.isEmpty) started (sendAll sent s))) := by
  have held : priorityHeld (sendAll sent s) a = priorityHeld s a := priorityHeld_sendAll ..
  refine ⟨fun h => ?_, fun hb hl hs => ?_, fun hb hl => ?_⟩
  · have none_done : endHandling .current a (!before.isEmpty) started (sendAll sent s) = sendAll sent s := by
      rw [endHandling, held]
      rcases h with h | ⟨hb, hs⟩
      · have hp := priorityHeld_iff.mpr h
        have calm := autoAdvance_held .current (held.trans hp)
        rw [hp, Bool.not_true, Bool.and_false, calm, ite_self]
        rfl
      · rw [hb, hs]; rfl
    rw [none_done, hg]
  · subst hb hs
    exact advanced_autoAdvance hg s a sent
  · have wasHeld : (!before.isEmpty) = true := by simpa using hb
    have ended : priorityNotice a false (resumeAll a (sendAll sent s)) =
        sendAll (sent ++ priorityEndSent s a) (priorityEnded s a) := by
      refine op_sendAll (op := fun u => priorityNotice a false (resumeAll a u)) (sent := fun u => priorityEndSent u a)
        (after := fun u => priorityEnded u a) (resume_eq (by simpa using hl)) ?_ ?_
      · rw [sendAll_frame]; rfl
      · exact eq_sendAll_of_frame (s := s) sent rfl rfl (by rw [sendAll_frame]; rfl)
    rw [endHandling, held, wasHeld, priorityHeld_eq_false.mpr hl, ended]
    exact advanced_autoAdvance hg ..

/-! ### A lost link (R35, R45, R61) -/

/-- The seats `l` of trunk `k` are OFFLINE, their toggles unknown and their refusal marks gone. -/
def seatsOff (k : TrunkId) (l : List SeatId) (s : State) : State :=
  { s with
    seats := Tab.ofFn fun i =>
      if l.contains i then { s.seats.get i with online := false, lastToggle := none } else s.seats.get i
    trunks := s.trunks.modify k fun r =>
      { r with refusals := Tab.ofFn fun pos => r.refusals.get pos && !l.contains (seatAt k pos) } }

theorem seatAt_positionOf {k : TrunkId} {i : SeatId} (hi : segmentOf i = k) : seatAt k (positionOf i) = i := by
  subst hi
  exact Fin.ext (by simp only [seatAt, segmentOf, positionOf]; omega)

theorem seatAt_eq_iff {k : TrunkId} {i : SeatId} (hi : segmentOf i = k) (pos : Position) :
    seatAt k pos = i ↔ positionOf i = pos := by
  constructor
  · rintro rfl
    exact positionOf_seatAt k pos
  · rintro rfl
    exact seatAt_positionOf hi

theorem seatsOff_single {k : TrunkId} {i : SeatId} (hi : segmentOf i = k) (s : State) :
    (s.modSeat i fun r => { r with online := false, lastToggle := none }).modTrunk k
      (fun t => { t with refusals := t.refusals.set (positionOf i) false }) = seatsOff k [i] s := by
  have seats : s.seats.modify i (fun r => { r with online := false, lastToggle := none }) = (seatsOff k [i] s).seats :=
    Tab.ext_get fun j => by
      by_cases h : i = j
      · subst h; simp [seatsOff]
      · simp [seatsOff, Tab.get_modify_ne _ _ h, Ne.symm h]
  have marks (r : Trunk) :
      r.refusals.set (positionOf i) false = Tab.ofFn fun pos => (r.refusals.get pos && !([i].contains (seatAt k pos))) :=
    Tab.ext_get fun pos => by
      by_cases h : positionOf i = pos
      · subst h; simp [seatAt_positionOf hi]
      · simp [Tab.get_set_ne _ _ h, mt (seatAt_eq_iff hi pos).mp h]
  calc _ = { s with
        seats := s.seats.modify i fun r => { r with online := false, lastToggle := none }
        trunks := s.trunks.modify k fun t => { t with refusals := t.refusals.set (positionOf i) false } } := rfl
    _ = seatsOff k [i] s := by simp only [seats, marks]; rfl

theorem seatsOff_nil (k : TrunkId) (s : State) : seatsOff k [] s = s := by
  have seats : (seatsOff k [] s).seats = s.seats := Tab.ext_get fun i => by simp [seatsOff]
  have trunks : (seatsOff k [] s).trunks = s.trunks := by
    have marks (t : Tab 40 Bool) : (Tab.ofFn fun pos => t.get pos && !([].contains (seatAt k pos))) = t :=
      Tab.ext_get fun pos => by simp
    simp only [seatsOff, marks]
    exact Tab.modify_of_fixed rfl
  calc seatsOff k [] s = { s with seats := (seatsOff k [] s).seats, trunks := (seatsOff k [] s).trunks } := rfl
    _ = s := by rw [seats, trunks]

theorem seatsOff_comp (k : TrunkId) (l m : List SeatId) (s : State) :
    seatsOff k m (seatsOff k l s) = seatsOff k (l ++ m) s := by
  have seats : (seatsOff k m (seatsOff k l s)).seats = (seatsOff k (l ++ m) s).seats := Tab.ext_get fun j => by
    simp only [seatsOff, Tab.get_ofFn, List.contains_append]
    cases l.contains j <;> cases m.contains j <;> rfl
  have trunks : (seatsOff k m (seatsOff k l s)).trunks = (seatsOff k (l ++ m) s).trunks := by
    simp only [seatsOff, Tab.modify_twice, Tab.get_ofFn, List.contains_append, Bool.not_or, Bool.and_assoc]
  calc seatsOff k m (seatsOff k l s) =
      { s with seats := (seatsOff k m (seatsOff k l s)).seats, trunks := (seatsOff k m (seatsOff k l s)).trunks } := rfl
    _ = seatsOff k (l ++ m) s := by rw [seats, trunks]; rfl

theorem seatsOff_afterDrop (k : TrunkId) (l : List SeatId) (s : State) (a : Segment) (i : SeatId) :
    seatsOff k l (afterDrop s a i) = afterDrop (seatsOff k l s) a i := by
  have trunks : (seatsOff k l (afterDrop s a i)).trunks = (afterDrop (seatsOff k l s) a i).trunks := Tab.ext_get fun j => by
    simp only [seatsOff, afterDrop, Tab.get_modify]
    by_cases hk : k = j <;> by_cases hi : segmentOf i = j <;> simp [hk, hi]
  calc seatsOff k l (afterDrop s a i) =
      { afterDrop s a i with seats := (seatsOff k l s).seats, trunks := (seatsOff k l (afterDrop s a i)).trunks } := rfl
    _ = afterDrop (seatsOff k l s) a i := by rw [trunks]; rfl

theorem seatsOff_sendAll (k : TrunkId) (l : List SeatId) (sent : List Sent) (s : State) :
    seatsOff k l (sendAll sent s) = sendAll sent (seatsOff k l s) :=
  eq_sendAll_of_frame (s := s) sent rfl rfl (by rw [sendAll_frame]; rfl)

theorem takeOffline_eq {k : TrunkId} {i : SeatId} {reason : FloorReason} (s : State) (hi : segmentOf i = k)
    (hk : keepsGain reason = false) (hm : marksRefusal reason = false) :
    takeOffline .current i reason s =
      sendAll (dropSent s (roomOf s k) i reason) (afterDrop (seatsOff k [i] s) (roomOf s k) i) := by
  have off := seatsOff_single hi s
  subst hi
  rw [takeOffline, off, dropSeat_eq _ _ _ hk hm]
  rfl

theorem any_eraseP_ne {α : Type} (seat : α → SeatId) {i j : SeatId} (h : i ≠ j) (l : List α) :
    ((l.eraseP fun x => seat x == i).any fun x => seat x == j) = l.any fun x => seat x == j := by
  rw [Bool.eq_iff_iff, List.any_eq_true, List.any_eq_true]
  refine exists_congr fun x => and_congr_left fun hx => List.mem_eraseP_of_neg ?_
  rw [beq_iff_eq] at hx ⊢
  exact fun hi => h (hi.symm.trans hx)

/-- What other seats leave behind when everything of a seat leaves. -/
theorem dropSent_afterDrop_ne {i j : SeatId} (h : i ≠ j) (s : State) (a : Segment) (reason : FloorReason) :
    dropSent (afterDrop s a i) a j reason = dropSent s a j reason := by
  have speakers : hasSpeaker ((afterDrop s a i).floors.get a) j = hasSpeaker (s.floors.get a) j := by
    simp only [afterDrop, hasSpeaker, Tab.get_modify_self]
    exact any_eraseP_ne Speaker.seat h _
  have requests : hasRequest ((afterDrop s a i).floors.get a) j = hasRequest (s.floors.get a) j := by
    simp only [afterDrop, hasRequest, Tab.get_modify_self]
    exact any_eraseP_ne Request.seat h _
  rw [dropSent, speakers, requests]
  rfl

/-- The seats of a trunk leave one after another (R61). -/
theorem foldl_takeOffline {k : TrunkId} {reason : FloorReason} (hk : keepsGain reason = false)
    (hm : marksRefusal reason = false) (l : List SeatId) (hl : l.Nodup) (home : ∀ i ∈ l, segmentOf i = k) (m : List Sent)
    (s : State) :
    l.foldl (fun t i => takeOffline .current i reason t) (sendAll m s) =
      sendAll (m ++ l.flatMap fun i => dropSent s (roomOf s k) i reason)
        (l.foldl (fun t i => afterDrop t (roomOf s k) i) (seatsOff k l s)) := by
  induction l generalizing m s with
  | nil =>
    rw [seatsOff_nil, List.flatMap_nil, List.append_nil]
    rfl
  | cons i l ih =>
    obtain ⟨hi, hl⟩ := List.nodup_cons.mp hl
    have first : takeOffline .current i reason (sendAll m s) =
        sendAll (m ++ dropSent s (roomOf s k) i reason) (afterDrop (seatsOff k [i] s) (roomOf s k) i) := by
      have plain := takeOffline_eq (sendAll m s) (home i List.mem_cons_self) hk hm
      rw [roomOf_sendAll] at plain
      exact op_sendAll (sent := fun u => dropSent u (roomOf s k) i reason)
        (after := fun u => afterDrop (seatsOff k [i] u) (roomOf s k) i) plain (by rw [dropSent_sendAll])
        (by rw [seatsOff_sendAll, afterDrop_sendAll])
    have rest : (l.flatMap fun j => dropSent (afterDrop (seatsOff k [i] s) (roomOf s k) i) (roomOf s k) j reason) =
        l.flatMap fun j => dropSent s (roomOf s k) j reason := by
      refine List.flatMap_congr fun j hj => ?_
      have hij : i ≠ j := fun h => hi (h ▸ hj)
      exact dropSent_afterDrop_ne hij (seatsOff k [i] s) _ reason
    rw [List.foldl_cons, first, ih hl (fun j hj => home j (List.mem_cons_of_mem _ hj)), seatsOff_afterDrop, seatsOff_comp]
    rw [show roomOf (afterDrop (seatsOff k [i] s) (roomOf s k) i) k = roomOf s k from rfl, rest, List.flatMap_cons,
      List.append_assoc]
    rfl

/-- Whether a list lost an entry when the entries of some seats left. -/
theorem length_foldl_eraseP {α : Type} (seat : α → SeatId) (l : List SeatId) (xs : List α) :
    (l.foldl (fun ys i => ys.eraseP fun x => seat x == i) xs).length ≤ xs.length ∧
      ((l.foldl (fun ys i => ys.eraseP fun x => seat x == i) xs).length < xs.length ↔
        (l.any fun i => xs.any fun x => seat x == i) = true) := by
  induction l generalizing xs with
  | nil => simp
  | cons i l ih =>
    rw [List.foldl_cons, List.any_cons]
    obtain ⟨hle, hlt⟩ := ih (xs.eraseP fun x => seat x == i)
    cases h : xs.any fun x => seat x == i with
    | true =>
      obtain ⟨x, hx, hi⟩ := List.any_eq_true.mp h
      have shorter := List.length_eraseP_of_mem (p := fun x => seat x == i) hx hi
      have pos := List.length_pos_of_mem hx
      exact ⟨by omega, ⟨fun _ => rfl, fun _ => by omega⟩⟩
    | false =>
      have same : (xs.eraseP fun x => seat x == i) = xs :=
        List.eraseP_of_forall_not fun x hx hi => by
          rw [List.any_eq_true.mpr ⟨x, hx, hi⟩] at h; cases h
      rw [same] at hle hlt ⊢
      rw [Bool.false_or]
      exact ⟨hle, hlt⟩

theorem speakers_foldl_afterDrop (a : Segment) (l : List SeatId) (s : State) :
    ((l.foldl (fun t i => afterDrop t a i) s).floors.get a).speakers =
      l.foldl (fun ys i => ys.eraseP fun e => e.seat == i) (s.floors.get a).speakers := by
  induction l generalizing s with
  | nil => rfl
  | cons i l ih => rw [List.foldl_cons, List.foldl_cons, ih]; simp [afterDrop]

theorem trunk_foldl_afterDrop (a : Segment) (l : List SeatId) (s : State) (k : TrunkId) :
    (l.foldl (fun t i => afterDrop t a i) s).trunks.get k =
      { s.trunks.get k with channels := ((l.foldl (fun t i => afterDrop t a i) s).trunks.get k).channels } := by
  induction l generalizing s with
  | nil => rfl
  | cons i l ih =>
    rw [List.foldl_cons, ih]
    simp only [afterDrop, Tab.get_modify]
    split <;> rfl

/-- The record of trunk `k` after its link is lost (R35, R45). -/
def linkGone (change : Trunk → Trunk) (r : Trunk) : Trunk :=
  { change r with holdDeadline := none, linkUp := false, intake := [] }

/-- The state in which the seats of trunk `k` leave the floor when its link is lost. -/
def linkOff (k : TrunkId) (change : Trunk → Trunk) (s : State) : State :=
  seatsOff k (onlineSeats s k) (s.modTrunk k (linkGone change))

theorem onlineSeats_nodup (s : State) (k : TrunkId) : (onlineSeats s k).Nodup := by
  refine ((List.nodup_finRange 40).map fun p q h => ?_).filter _
  rw [← positionOf_seatAt k p, h, positionOf_seatAt]

theorem mem_onlineSeats {s : State} {k : TrunkId} {i : SeatId} :
    i ∈ onlineSeats s k ↔ segmentOf i = k ∧ (s.seats.get i).online = true := by
  rw [onlineSeats, List.mem_filter, List.mem_map]
  refine and_congr_left fun _ => ⟨?_, fun h => ⟨positionOf i, List.mem_finRange _, seatAt_positionOf h⟩⟩
  rintro ⟨pos, -, rfl⟩
  exact segmentOf_seatAt k pos

/-- A lost link: the seats leave in ascending order, the TRUNK notice follows, and then the end of the handling (R35, R45,
R61, R78). -/
theorem loseLink_eq {k : TrunkId} {reason : FloorReason} (hk : keepsGain reason = false)
    (hm : marksRefusal reason = false) (change : Trunk → Trunk) (s : State) :
    let a := roomOf s k
    let t := (onlineSeats s k).foldl (fun t i => afterDrop t a i) (linkOff k change s)
    loseLink k reason change s =
      endHandling .current a (!(s.floors.get a).holders.isEmpty)
        ((onlineSeats s k).any fun i => hasSpeaker (s.floors.get a) i)
        (sendAll (((onlineSeats s k).flatMap fun i => dropSent s a i reason) ++ [trunkSent k (t.trunks.get k)]) t) := by
  intro a t
  have gone := foldl_takeOffline hk hm (onlineSeats s k) (onlineSeats_nodup s k) (fun i hi => (mem_onlineSeats.mp hi).1) []
    (s.modTrunk k (linkGone change))
  rw [sendAll_nil, List.nil_append] at gone
  have taken : takeSeatsOffline k reason (s.modTrunk k (linkGone change)) =
      sendAll ((onlineSeats s k).flatMap fun i => dropSent s a i reason) t := gone
  have notice (u : State) (l : List Sent) : trunkNotice k (sendAll l u) = sendAll (l ++ [trunkSent k (u.trunks.get k)]) u := by
    rw [sendAll_append, trunkNotice, sendAll_trunks]
    rfl
  have lost (l : List Sent) : lostSpeaker a s (sendAll l t) = (onlineSeats s k).any fun i => hasSpeaker (s.floors.get a) i := by
    rw [lostSpeaker, floorOf, sendAll_floors, speakers_foldl_afterDrop, Bool.eq_iff_iff, decide_eq_true_iff]
    exact (length_foldl_eraseP Speaker.seat _ _).2
  unfold loseLink
  dsimp only
  rw [show (fun r => { change r with holdDeadline := none, linkUp := false, intake := [] }) = linkGone change from rfl,
    taken, notice, lost]
  rfl

theorem linkOff_eq (k : TrunkId) {change : Trunk → Trunk} (s : State)
    (h : (change (s.trunks.get k)).refusals = (s.trunks.get k).refusals) :
    linkOff k change s =
      { s with
        trunks :=
          s.trunks.set k
            { change (s.trunks.get k) with
              holdDeadline := none, linkUp := false, intake := []
              refusals := Tab.ofFn fun pos =>
                (s.trunks.get k).refusals.get pos && !(s.seats.get (seatAt k pos)).online }
        seats :=
          Tab.ofFn fun i =>
            if segmentOf i = k ∧ (s.seats.get i).online = true then
              { s.seats.get i with online := false, lastToggle := none }
            else s.seats.get i } := by
  have off (i : SeatId) : (onlineSeats s k).contains i = decide (segmentOf i = k ∧ (s.seats.get i).online = true) := by
    rw [Bool.eq_iff_iff, List.contains_iff_mem, mem_onlineSeats, decide_eq_true_iff]
  have marks : (Tab.ofFn fun pos => (linkGone change (s.trunks.get k)).refusals.get pos &&
      !(onlineSeats s k).contains (seatAt k pos)) =
        Tab.ofFn fun pos => (s.trunks.get k).refusals.get pos && !(s.seats.get (seatAt k pos)).online := by
    refine congrArg Tab.ofFn (funext fun pos => ?_)
    simp only [linkGone, h, off, segmentOf_seatAt, true_and, Bool.decide_eq_true]
  have trunks : (linkOff k change s).trunks =
      s.trunks.set k
        { change (s.trunks.get k) with
          holdDeadline := none, linkUp := false, intake := []
          refusals := Tab.ofFn fun pos =>
            (s.trunks.get k).refusals.get pos && !(s.seats.get (seatAt k pos)).online } := by
    rw [← marks]
    exact Tab.modify_twice s.trunks k (linkGone change) fun r =>
      { r with refusals := Tab.ofFn fun pos => r.refusals.get pos && !(onlineSeats s k).contains (seatAt k pos) }
  have seats : (linkOff k change s).seats =
      Tab.ofFn fun i =>
        if segmentOf i = k ∧ (s.seats.get i).online = true then
          { s.seats.get i with online := false, lastToggle := none }
        else s.seats.get i := by
    refine congrArg Tab.ofFn (funext fun i => ?_)
    rw [off]
    simp only [decide_eq_true_iff]
    rfl
  rw [← trunks, ← seats]
  rfl

/-- Settles O51: the fold of `takeOffline` over the ONLINE seats, its notices, and the end of the handling. -/
theorem linkLossTakesSeats : Obligations.LinkLossTakesSeats := by
  intro k tag b s hheld r a f seats lost
  have loses {reason : FloorReason} (hk : keepsGain reason = false) (hm : marksRefusal reason = false)
      {change : Trunk → Trunk} (hr : (change r).refusals = r.refusals) {g : State → Host.Outcome State Fault Refusal}
      {reply : Option (Port × Reply)} (hg : ∀ l t, g (sendAll l t) = .next (conclude t l reply)) :
      lost (change r) reason reply (g (loseLink k reason change s)) := by
    have h := handled_endHandling hg f.holders
      ((onlineSeats s k).foldl (fun t i => afterDrop t a i) (linkOff k change s)) a
      (((onlineSeats s k).flatMap fun i => dropSent s a i reason) ++
        [trunkSent k (((onlineSeats s k).foldl (fun t i => afterDrop t a i) (linkOff k change s)).trunks.get k)])
      ((onlineSeats s k).any fun i => hasSpeaker f i)
    rw [← loseLink_eq hk hm, trunk_foldl_afterDrop, linkOff_eq k s hr] at h
    simp only [Tab.get_set_self] at h
    exact h
  refine ⟨fun early => ?_, fun d _ hd ht => ?_, fun _ hs hb hp hl => ?_⟩
  · refine exec_event (sent := []) hheld rfl ?_
    unfold expireHold
    split
    · next d hd => rw [reached, if_neg (by simpa using early d hd)]; rfl
    · rfl
  · have expired : expireHold k s = loseLink k .trunkLost id s := by
      rw [expireHold, hd]
      exact if_pos (decide_eq_true ht)
    have h := loses (reason := .trunkLost) rfl rfl (change := id) rfl (reply := none)
      (g := fun u => .next (startTransmitters u)) fun l t => congrArg _ (startTransmitters_sendAll l t)
    rw [← expired] at h
    rw [show exec (.holdExpiry k) s = .next (startTransmitters (expireHold k s)) from carryOut_eq hheld _]
    exact h
  · have off : trunkOff k s = loseLink k .trunkOff powerDown s := by
      simp only [trunkOff, show (s.trunks.get k).power = .live from hp, show (s.trunks.get k).linkUp = true from hl, if_true]
    have h := loses (reason := .trunkOff) rfl rfl (change := powerDown) rfl
      (reply := some (k, { tag := tag, code := .done, results := [0] }))
      (g := fun u => .next (startTransmitters (pushReply k { tag := tag, code := .done, results := [0] } u)))
      fun l t => congrArg _ (startTransmitters_pushReply_sendAll ..)
    rw [← off] at h
    have power : ((trunkOff k s).trunks.get k).power = .unpowered := by
      rw [off, loseLink_eq rfl rfl, (endHandling_floorFrame ..).trunks k, sendAll_trunks, trunk_foldl_afterDrop,
        linkOff_eq k (change := powerDown) s rfl]
      simp only [Tab.get_set_self]
      rfl
    have rule : ruleTrunkPower k b 0 s = { code := .done, results := [0], state := trunkOff k s } := by
      have arg : flagArg 0 = some false := rfl
      simp only [ruleTrunkPower, arg, trunkCommand_own hb, Bool.false_eq_true, if_false, power]
      rfl
    have served : serveTrunkPower k tag b 0 s = pushReply k { tag := tag, code := .done, results := [0] } (trunkOff k s) := by
      rw [serveTrunkPower, serve_taken hs.2.1 (.inr hs.2.2), rule]
    rw [show exec (.trunkPower k tag b 0) s = .next (startTransmitters (serveTrunkPower k tag b 0 s)) from
      carryOut_eq hs.1 _, served]
    exact h

end Sys2Proof.Machine
end

section
/-! What an operation of a floor reads: two runs that agree on it go the same way, with the same notices, wherever their
release sets stand (R188; log entry 4). -/

namespace Sys2Proof.Machine
open Sys2Proof.Safety

/-- The ports after the notices `l` of an event. -/
def delivered (clock : Clock) (l : List Sent) (ports : Tab 6 PortRec) : Tab 6 PortRec :=
  Tab.ofFn fun q => deliverAll clock q l (ports.get q)

theorem delivered_nil (clock : Clock) (ports : Tab 6 PortRec) : delivered clock [] ports = ports :=
  Tab.ext_get fun q => by simp [delivered, deliverAll]

theorem delivered_append (clock : Clock) (l m : List Sent) (ports : Tab 6 PortRec) :
    delivered clock (l ++ m) ports = delivered clock m (delivered clock l ports) :=
  Tab.ext_get fun q => by simp [delivered, deliverAll]

theorem notify_ports (ports : List Port) (body : NoticeBody) (s : State) :
    (notify ports body s).ports = delivered s.clock [(ports, body)] s.ports :=
  Tab.ext_get fun q => by rw [notify_port, delivered, Tab.get_ofFn]; rfl

theorem sendAll_ports (l : List Sent) (s : State) : (sendAll l s).ports = delivered s.clock l s.ports :=
  Tab.ext_get fun q => by rw [sendAll_port, delivered, Tab.get_ofFn]

/-- Notices of the floor controller and the seat table. -/
def isFloorOrSeat (n : Sent) : Bool :=
  isFloorNotice n.2 || isSeatNotice n.2

/-- Two seat records agree on what the floor controller reads, and where `toggles` is true on the last toggle too. -/
structure SeatAlike (toggles : Prop) (x y : Seat) : Prop where
  online : y.online = x.online
  enabled : y.enabled = x.enabled
  chair : y.chair = x.chair
  lastToggle : toggles → y.lastToggle = x.lastToggle

theorem SeatAlike.eq {x y : Seat} (h : SeatAlike True x y) : y = x := by
  obtain ⟨online, enabled, chair, toggle⟩ := h
  cases x; cases y
  exact Seat.mk.injEq .. ▸ ⟨online, enabled, chair, toggle trivial⟩

/-- Two runs agree on what the floor controller reads; the notices since their ports were `ports` and `ports'` are the same;
and, where `sound` is true, so are their release sets and channels, where `toggles` is true, the seats' last toggles. -/
structure Alike (sound toggles : Prop) (ports ports' : Tab 6 PortRec) (s t : State) : Prop where
  clock : t.clock = s.clock
  profiles : t.profiles = s.profiles
  rooms : t.rooms = s.rooms
  seats : ∀ i, SeatAlike toggles (s.seats.get i) (t.seats.get i)
  floors : t.floors = s.floors
  poolFree : t.poolFree = s.poolFree
  stampCounter : t.stampCounter = s.stampCounter
  releaseCounter : t.releaseCounter = s.releaseCounter
  refusals : ∀ k, (t.trunks.get k).refusals = (s.trunks.get k).refusals
  mixes : sound → ∀ a, (t.mixes.get a).release = (s.mixes.get a).release
  channels : sound → ∀ k, (t.trunks.get k).channels = (s.trunks.get k).channels
  heard : ∃ l, (∀ n ∈ l, isFloorOrSeat n = true) ∧ s.ports = delivered s.clock l ports ∧
    t.ports = delivered s.clock l ports'

section
variable {sound toggles : Prop} {ports ports' : Tab 6 PortRec} {s t : State} (h : Alike sound toggles ports ports' s t)
include h

theorem Alike.floorOf_eq (a : Segment) : floorOf t a = floorOf s a := by rw [floorOf, h.floors]; rfl

theorem Alike.profileOf_eq (a : Segment) : profileOf t a = profileOf s a := by rw [profileOf, h.profiles]; rfl

theorem Alike.membersOf_eq (a : Segment) : membersOf t a = membersOf s a := by rw [membersOf_of_rooms h.rooms]

theorem Alike.seatRoom_eq (i : SeatId) : seatRoom t i = seatRoom s i := by rw [seatRoom, roomOf_of_rooms h.rooms]; rfl

theorem Alike.isDraining_eq (a : Segment) : isDraining t a = isDraining s a := by rw [isDraining, h.rooms]; rfl

theorem Alike.placeFree_eq (a : Segment) (i : SeatId) : placeFree t a i = placeFree s a i := by
  simp only [placeFree, h.floorOf_eq, h.profileOf_eq, (h.seats i).chair]

theorem Alike.priorityHeld_eq (a : Segment) : priorityHeld t a = priorityHeld s a := by
  simp only [priorityHeld, h.floorOf_eq]

theorem Alike.mayAdvance_eq (a : Segment) : mayAdvance t a = mayAdvance s a := by
  simp only [mayAdvance, h.floorOf_eq, h.profileOf_eq, h.priorityHeld_eq, h.isDraining_eq]

/-- The same two halls, to be followed from here on. -/
theorem Alike.restart : Alike sound toggles s.ports t.ports s t :=
  { h with heard := ⟨[], nofun, (delivered_nil ..).symm, (delivered_nil ..).symm⟩ }

omit h in
theorem Alike.refl (s : State) : Alike sound toggles s.ports s.ports s s where
  clock := rfl
  profiles := rfl
  rooms := rfl
  seats _ := ⟨rfl, rfl, rfl, fun _ => rfl⟩
  floors := rfl
  poolFree := rfl
  stampCounter := rfl
  releaseCounter := rfl
  refusals _ := rfl
  mixes _ _ := rfl
  channels _ _ := rfl
  heard := ⟨[], nofun, (delivered_nil ..).symm, (delivered_nil ..).symm⟩

/-! ### Notices -/

theorem notify_alike (who : List Port) {body : NoticeBody} (hb : isFloorOrSeat (who, body) = true) :
    Alike sound toggles ports ports' (notify who body s) (notify who body t) where
  clock := h.clock
  profiles := h.profiles
  rooms := h.rooms
  seats := h.seats
  floors := h.floors
  poolFree := h.poolFree
  stampCounter := h.stampCounter
  releaseCounter := h.releaseCounter
  refusals := h.refusals
  mixes := h.mixes
  channels := h.channels
  heard := by
    obtain ⟨l, hl, hs, ht⟩ := h.heard
    refine ⟨l ++ [(who, body)], fun n hn => ?_, ?_, ?_⟩
    · exact (List.mem_append.mp hn).elim (hl n) fun hn => List.mem_singleton.mp hn ▸ hb
    · rw [notify_ports, hs, delivered_append]; rfl
    · rw [notify_ports, ht, delivered_append, h.clock]; rfl

theorem floorNotice_alike (a : Segment) (i : SeatId) (change : FloorChange) (reason : FloorReason) :
    Alike sound toggles ports ports' (floorNotice a i change reason s) (floorNotice a i change reason t) := by
  rw [floorNotice, floorNotice, notifyRoom, notifyRoom, h.membersOf_eq]
  exact notify_alike h _ rfl

theorem priorityNotice_alike (a : Segment) (held : Bool) :
    Alike sound toggles ports ports' (priorityNotice a held s) (priorityNotice a held t) := by
  rw [priorityNotice, priorityNotice, notifyRoom, notifyRoom, h.membersOf_eq]
  exact notify_alike h _ rfl

theorem floorNotices_alike (a : Segment) (l : List SeatId) (change : FloorChange) :
    Alike sound toggles ports ports' (floorNotices a l change s) (floorNotices a l change t) := by
  induction l generalizing s t with
  | nil => exact h
  | cons i l ih => exact ih (floorNotice_alike h a i change .none)

theorem seatNotice_alike (i : SeatId) (cause : SeatCause) :
    Alike sound toggles ports ports' (seatNotice i cause s) (seatNotice i cause t) := by
  rw [seatNotice, seatNotice, (h.seats i).online, (h.seats i).enabled, (h.seats i).chair]
  exact notify_alike h _ rfl

/-! ### The parts of the state -/

theorem modFloor_alike (a : Segment) (f : Floor → Floor) : Alike sound toggles ports ports' (s.modFloor a f) (t.modFloor a f) :=
  { h with floors := by rw [State.modFloor_floors, State.modFloor_floors, h.floors] }

theorem setPoolFree_alike (n : Nat) : Alike sound toggles ports ports' (s.setPoolFree n) (t.setPoolFree n) :=
  { h with poolFree := rfl }

theorem setStampCounter_alike (c : Clock) : Alike sound toggles ports ports' (s.setStampCounter c) (t.setStampCounter c) :=
  { h with stampCounter := rfl }

theorem setReleaseCounter_alike (c : Clock) : Alike sound toggles ports ports' (s.setReleaseCounter c) (t.setReleaseCounter c) :=
  { h with releaseCounter := rfl }

theorem modSeat_alike (i : SeatId) {f : Seat → Seat}
    (hf : ∀ x y, SeatAlike toggles x y → SeatAlike toggles (f x) (f y)) :
    Alike sound toggles ports ports' (s.modSeat i f) (t.modSeat i f) :=
  { h with
    seats := fun j => by
      rw [State.modSeat_seats, State.modSeat_seats, Tab.get_modify, Tab.get_modify]
      split
      · exact hf _ _ (h.seats j)
      · exact h.seats j }

/-- Changes of release sets, alike where the sets are to stay alike. -/
theorem modMix_alike {a b : Segment} {f g : MixRoom → MixRoom}
    (hf : sound → a = b ∧ ∀ m m', m.release = m'.release → (f m).release = (g m').release) :
    Alike sound toggles ports ports' (s.modMix a f) (t.modMix b g) :=
  { h with
    mixes := fun hs c => by
      obtain ⟨rfl, same⟩ := hf hs
      rw [State.modMix_mixes, State.modMix_mixes, Tab.get_modify, Tab.get_modify]
      split
      · exact (same _ _ (h.mixes hs c).symm).symm
      · exact h.mixes hs c }

theorem modTrunk_alike (k : TrunkId) {f : Trunk → Trunk}
    (hr : ∀ r r', r.refusals = r'.refusals → (f r).refusals = (f r').refusals)
    (hc : ∀ r r', r.channels = r'.channels → (f r).channels = (f r').channels) :
    Alike sound toggles ports ports' (s.modTrunk k f) (t.modTrunk k f) :=
  { h with
    refusals := fun j => by
      rw [State.modTrunk_trunks, State.modTrunk_trunks, Tab.get_modify, Tab.get_modify]
      split
      · exact hr _ _ (h.refusals j)
      · exact h.refusals j
    channels := fun hs j => by
      rw [State.modTrunk_trunks, State.modTrunk_trunks, Tab.get_modify, Tab.get_modify]
      split
      · exact hc _ _ (h.channels hs j)
      · exact h.channels hs j }

theorem markRefusal_alike (i : SeatId) : Alike sound toggles ports ports' (markRefusal i s) (markRefusal i t) :=
  modTrunk_alike h _ (fun _ _ hr => congrArg (fun x => Tab.set x _ true) hr) fun _ _ hc => hc

theorem freeChannel_alike (i : SeatId) : Alike sound toggles ports ports' (freeChannel i s) (freeChannel i t) :=
  modTrunk_alike h _ (fun _ _ hr => hr) fun _ _ hc => congrArg (Tab.map _) hc

theorem claimChannel_alike (i : SeatId) : Alike sound toggles ports ports' (claimChannel i s) (claimChannel i t) := by
  rw [claimChannel_eq, claimChannel_eq]
  exact modTrunk_alike h _ (fun _ _ hr => hr) fun _ _ hc => congrArg (claimed · i) hc

end

/-! ### Release sets (R148 to R151) -/

section
variable {sound toggles : Prop} {ports ports' : Tab 6 PortRec} {s t : State} (h : Alike sound toggles ports ports' s t)
include h

theorem endRelease_alike {a b : Segment} (hab : sound → a = b) (i : SeatId) :
    Alike sound toggles ports ports' (endRelease a i s) (endRelease b i t) :=
  modMix_alike h fun hs => ⟨hab hs, fun _ _ hm => congrArg (List.filter _) hm⟩

/-- Release sets and channels may be changed at will where they need not stay alike. -/
theorem Alike.of_unsound (hn : ¬sound) {s' t' : State} (hs : s' = { s with mixes := s'.mixes, trunks := s'.trunks })
    (ht : t' = { t with mixes := t'.mixes, trunks := t'.trunks })
    (hsr : ∀ k, (s'.trunks.get k).refusals = (s.trunks.get k).refusals)
    (htr : ∀ k, (t'.trunks.get k).refusals = (t.trunks.get k).refusals) : Alike sound toggles ports ports' s' t' := by
  rw [hs, ht] 
  exact
    { clock := h.clock, profiles := h.profiles, rooms := h.rooms, seats := h.seats, floors := h.floors
      poolFree := h.poolFree, stampCounter := h.stampCounter, releaseCounter := h.releaseCounter
      refusals := fun k => (htr k).trans ((h.refusals k).trans (hsr k).symm)
      mixes := fun hs => absurd hs hn
      channels := fun hs => absurd hs hn
      heard := h.heard }

theorem freeAll_alike {l m : List SeatId} (hl : l = m) : Alike sound toggles ports ports' (s.freeAll l) (t.freeAll m) := by
  subst hl
  exact
    { h with
      refusals := fun k => by simp only [State.freeAll, Tab.get_ofFn]; exact h.refusals k
      channels := fun hs k => by simp only [State.freeAll, Tab.get_ofFn, h.channels hs k] }

theorem capRelease_alike (hs : sound) (a : Segment) : Alike sound toggles ports ports' (capRelease a s) (capRelease a t) := by
  rw [capRelease_eq, capRelease_eq, h.mixes hs a]
  exact freeAll_alike (modMix_alike h fun _ => ⟨rfl, fun _ _ hm => congrArg (List.drop _) hm⟩) rfl

theorem capPart_alike (hs : sound) (a o : Segment) : Alike sound toggles ports ports' (capPart a o s) (capPart a o t) := by
  rw [capPart, capPart, h.mixes hs o, h.membersOf_eq, foldl_freeChannel, foldl_freeChannel]
  exact freeAll_alike (modMix_alike h fun _ => ⟨rfl, fun _ _ hm => congrArg (List.filter _) hm⟩) rfl

omit h in
/-- A new release entry touches release sets, channels and the release counter. -/
theorem addRelease_rest (sets : Sets) (a : Segment) (i : SeatId) (gain : Nat) (s : State) :
    addRelease sets a i gain s =
        { s.setReleaseCounter (s.releaseCounter + 1) with
          mixes := (addRelease sets a i gain s).mixes
          trunks := (addRelease sets a i gain s).trunks } ∧
      ∀ k, ((addRelease sets a i gain s).trunks.get k).refusals = (s.trunks.get k).refusals := by
  cases sets with
  | current =>
    simp only [addRelease, capRelease_eq]
    exact ⟨rfl, fun k => by simp [State.freeAll]⟩
  | before room =>
    simp only [addRelease, capPart, foldl_freeChannel]
    exact ⟨rfl, fun k => by simp [State.freeAll]⟩

variable {sets sets' : Sets} (hsets : sound → sets = sets')
include hsets

theorem addRelease_alike (a : Segment) (i : SeatId) (gain : Nat) :
    Alike sound toggles ports ports' (addRelease sets a i gain s) (addRelease sets' a i gain t) := by
  have counted := setReleaseCounter_alike h (s.releaseCounter + 1)
  by_cases hs : sound
  · obtain rfl := hsets hs
    have grown : Alike sound toggles ports ports'
        ((s.modMix (sets.roomFor a i) fun m =>
          { m with release := m.release ++ [{ seat := i, gain := gain, stamp := s.releaseCounter, fresh := true }] }).setReleaseCounter
          (s.releaseCounter + 1))
        ((t.modMix (sets.roomFor a i) fun m =>
          { m with release := m.release ++ [{ seat := i, gain := gain, stamp := t.releaseCounter, fresh := true }] }).setReleaseCounter
          (t.releaseCounter + 1)) := by
      rw [h.releaseCounter]
      exact setReleaseCounter_alike (modMix_alike h fun _ => ⟨rfl, fun _ _ hm => congrArg (· ++ _) hm⟩) _
    cases sets with
    | current => exact capRelease_alike grown hs a
    | before room => exact capPart_alike grown hs a _
  · obtain ⟨rest, refusals⟩ := addRelease_rest sets a i gain s
    obtain ⟨rest', refusals'⟩ := addRelease_rest sets' a i gain t
    rw [h.releaseCounter] at rest'
    exact counted.of_unsound hs rest rest' refusals refusals'

/-! ### Grants and removals (R75 to R77) -/

omit hsets in
theorem takeRequest_alike (a : Segment) (i : SeatId) :
    Alike sound toggles ports ports' (takeRequest a i s) (takeRequest a i t) := by
  rw [takeRequest_eq, takeRequest_eq, h.floors, h.poolFree]
  exact setPoolFree_alike (modFloor_alike h ..) _

omit h in
theorem roomFor_alike (a : Segment) (i : SeatId) : sound → sets.roomFor a i = sets'.roomFor a i :=
  fun hs => by rw [hsets hs]

theorem grantSeat_alike (a : Segment) (i : SeatId) (reason : FloorReason) (byPriority : Bool) :
    Alike sound toggles ports ports' (grantSeat sets a i reason byPriority s) (grantSeat sets' a i reason byPriority t) := by
  have entry : newSpeaker t a i byPriority = newSpeaker s a i byPriority := by
    simp only [newSpeaker, h.clock, (h.seats i).chair, h.profileOf_eq]
  rw [grantSeat, grantSeat, entry, h.clock]
  exact floorNotice_alike (claimChannel_alike (endRelease_alike (modFloor_alike (takeRequest_alike h a i) ..)
    (roomFor_alike hsets a i) i) i) ..

theorem removeSpeaker_alike (a : Segment) (i : SeatId) (reason : FloorReason) :
    Alike sound toggles ports ports' (removeSpeaker sets a i reason s) (removeSpeaker sets' a i reason t) := by
  rw [removeSpeaker, removeSpeaker, h.floorOf_eq]
  cases speakerOf (floorOf s a) i with
  | none => exact h
  | some e =>
    have noticed := floorNotice_alike (modFloor_alike h a fun f =>
      { f with
        speakers := f.speakers.eraseP fun x => x.seat == i
        holders := f.holders.filter fun h => h.seat != i }) a i .closed reason
    dsimp only
    split
    · exact addRelease_alike noticed hsets a i e.gain
    · exact freeChannel_alike noticed i

omit hsets in
theorem removeRequest_alike (a : Segment) (i : SeatId) (reason : FloorReason) :
    Alike sound toggles ports ports' (removeRequest a i reason s) (removeRequest a i reason t) := by
  rw [removeRequest, removeRequest, h.floorOf_eq]
  have noticed := floorNotice_alike (takeRequest_alike h a i) a i .dequeued reason
  split
  · dsimp only
    split
    · exact markRefusal_alike noticed i
    · exact noticed
  · exact h

omit hsets in
theorem enqueueSeat_alike (a : Segment) (i : SeatId) (reason : FloorReason) :
    Alike sound toggles ports ports' (enqueueSeat a i reason s) (enqueueSeat a i reason t) := by
  rw [enqueueSeat, enqueueSeat, h.stampCounter, h.poolFree]
  exact floorNotice_alike (setStampCounter_alike (setPoolFree_alike (modFloor_alike h ..) _) _) ..

/-! ### Priority and auto-advance (R79, R80, R98, R103) -/

omit hsets in
theorem suspendAll_alike (a : Segment) : Alike sound toggles ports ports' (suspendAll a s) (suspendAll a t) := by
  rw [suspendAll, suspendAll, h.floorOf_eq, h.clock]
  exact floorNotices_alike (modFloor_alike h ..) ..

omit hsets in
theorem resumeAll_alike (a : Segment) : Alike sound toggles ports ports' (resumeAll a s) (resumeAll a t) := by
  rw [resumeAll, resumeAll, h.floorOf_eq, h.clock]
  exact floorNotices_alike (modFloor_alike h ..) ..

theorem advance_alike (n : Nat) (a : Segment) : Alike sound toggles ports ports' (advance sets n a s) (advance sets' n a t) := by
  induction n generalizing s t with
  | zero => exact h
  | succ n ih =>
    rw [advance, advance, h.floorOf_eq, h.mayAdvance_eq]
    cases (floorOf s a).queue with
    | nil => exact h
    | cons q rest =>
      dsimp only
      split
      · exact ih (grantSeat_alike h hsets a q.seat .none false)
      · exact h

theorem autoAdvance_alike (a : Segment) : Alike sound toggles ports ports' (autoAdvance sets a s) (autoAdvance sets' a t) := by
  rw [autoAdvance, autoAdvance, h.floorOf_eq]
  exact advance_alike h hsets _ a

theorem endHandling_alike (a : Segment) (wasHeld started : Bool) :
    Alike sound toggles ports ports' (endHandling sets a wasHeld started s) (endHandling sets' a wasHeld started t) := by
  rw [endHandling, endHandling, h.priorityHeld_eq]
  split
  · exact autoAdvance_alike (priorityNotice_alike (resumeAll_alike h a) a false) hsets a
  · split
    · exact autoAdvance_alike h hsets a
    · exact h

omit hsets in
theorem joinHold_alike (a : Segment) (i : SeatId) : Alike sound toggles ports ports' (joinHold a i s) (joinHold a i t) := by
  rw [joinHold, joinHold, h.priorityHeld_eq, h.clock]
  have joined := suspendAll_alike (modFloor_alike h a fun f =>
    { f with holders := insertBy (holderBefore s.clock) { seat := i, pressTime := s.clock } f.holders }) a
  split
  · exact joined
  · exact priorityNotice_alike joined a true

theorem leaveHold_alike (a : Segment) (i : SeatId) :
    Alike sound toggles ports ports' (leaveHold sets a i s) (leaveHold sets' a i t) := by
  rw [leaveHold, leaveHold, h.floorOf_eq]
  have left := modFloor_alike h a fun f => { f with holders := f.holders.filter fun h => h.seat != i }
  split
  · exact removeSpeaker_alike left hsets a i .priorityEnd
  · exact left

theorem dropSeat_alike (a : Segment) (i : SeatId) (reason : FloorReason) :
    Alike sound toggles ports ports' (dropSeat sets a i reason s) (dropSeat sets' a i reason t) :=
  freeChannel_alike (endRelease_alike (modFloor_alike
    (removeRequest_alike (removeSpeaker_alike h hsets a i reason) a i reason) ..) (roomFor_alike hsets a i) i) i

/-! ### Seat events (R59 to R61, R71 to R74, R99 to R101) -/

omit hsets in
theorem talkEnqueue_alike (a : Segment) (i : SeatId) :
    Alike sound toggles ports ports' (talkEnqueue a i s) (talkEnqueue a i t) := by
  rw [talkEnqueue, talkEnqueue, h.floorOf_eq, h.profileOf_eq, h.poolFree]
  split
  · exact markRefusal_alike h i
  · exact enqueueSeat_alike h a i .bySeat

theorem talkByMode_alike (a : Segment) (i : SeatId) :
    Alike sound toggles ports ports' (talkByMode sets a i s) (talkByMode sets' a i t) := by
  rw [talkByMode, talkByMode, h.profileOf_eq, h.placeFree_eq, h.priorityHeld_eq, h.floorOf_eq]
  cases (profileOf s a).floorMode with
  | direct =>
    dsimp only
    split
    · exact grantSeat_alike h hsets a i .bySeat false
    · exact markRefusal_alike h i
  | autoQueue =>
    dsimp only
    split
    · exact grantSeat_alike h hsets a i .bySeat false
    · exact talkEnqueue_alike h a i
  | chair => exact talkEnqueue_alike h a i

theorem talk_alike (a : Segment) (i : SeatId) : Alike sound toggles ports ports' (talk sets a i s) (talk sets' a i t) := by
  rw [talk, talk, h.floorOf_eq, h.priorityHeld_eq, (h.seats i).chair]
  split
  · exact endHandling_alike (removeSpeaker_alike h hsets a i .bySeat) hsets a _ true
  · split
    · exact removeRequest_alike h a i .cancelled
    · split
      · split
        · exact grantSeat_alike h hsets a i .bySeat false
        · exact markRefusal_alike h i
      · exact talkByMode_alike h hsets a i

/-- What two grants answer. -/
inductive GrantAlike (sound toggles : Prop) (ports ports' : Tab 6 PortRec) : GrantResult → GrantResult → Prop
  | refused (code : ReplyCode) : GrantAlike sound toggles ports ports' (.refused code) (.refused code)
  | granted (i : SeatId) {s t : State} (h : Alike sound toggles ports ports' s t) :
      GrantAlike sound toggles ports ports' (.granted i s) (.granted i t)

theorem grantOrReplace_alike (a : Segment) (i : SeatId) (replace : Bool) :
    GrantAlike sound toggles ports ports' (grantOrReplace sets a i replace s) (grantOrReplace sets' a i replace t) := by
  rw [grantOrReplace, grantOrReplace, h.placeFree_eq, h.floorOf_eq]
  split
  · exact .granted i (grantSeat_alike h hsets a i .byCommand false)
  · split
    · split
      · next e _ =>
        exact .granted i (autoAdvance_alike (grantSeat_alike (removeSpeaker_alike h hsets a e.seat .replaced) hsets a i
          .byCommand false) hsets a)
      · exact .refused _
    · exact .refused _

theorem grantHead_alike (a : Segment) (replace : Bool) :
    GrantAlike sound toggles ports ports' (grantHead sets a replace s) (grantHead sets' a replace t) := by
  rw [grantHead, grantHead, h.priorityHeld_eq, h.profileOf_eq, h.floorOf_eq]
  split
  · exact .refused _
  · split
    · exact .refused _
    · cases (floorOf s a).queue with
      | nil => exact .refused _
      | cons q rest => exact grantOrReplace_alike h hsets a q.seat replace

theorem nextKey_alike (a : Segment) (i : SeatId) : Alike sound toggles ports ports' (nextKey sets a i s) (nextKey sets' a i t) := by
  have head := grantHead_alike h hsets a false
  rw [nextKey, nextKey]
  generalize grantHead sets a false s = g at head ⊢
  generalize grantHead sets' a false t = g' at head ⊢
  cases head with
  | refused code => exact markRefusal_alike h i
  | granted j hu => exact hu

theorem priorityDown_alike (a : Segment) (i : SeatId) :
    Alike sound toggles ports ports' (priorityDown sets a i s) (priorityDown sets' a i t) := by
  rw [priorityDown, priorityDown, h.floorOf_eq]
  dsimp only
  split
  · exact h
  · split
    · exact markRefusal_alike h i
    · split
      · exact joinHold_alike h a i
      · split
        · exact joinHold_alike (grantSeat_alike h hsets a i .bySeat true) a i
        · split
          · next e _ =>
            exact autoAdvance_alike (joinHold_alike (grantSeat_alike
              (removeSpeaker_alike h hsets a e.seat .priorityBump) hsets a i .bySeat true) a i) hsets a
          · exact markRefusal_alike h i

theorem priorityUp_alike (a : Segment) (i : SeatId) :
    Alike sound toggles ports ports' (priorityUp sets a i s) (priorityUp sets' a i t) := by
  rw [priorityUp, priorityUp, h.floorOf_eq]
  split
  · exact endHandling_alike (leaveHold_alike h hsets a i) hsets a true _
  · exact h

theorem takeOffline_alike (i : SeatId) (reason : FloorReason) :
    Alike sound toggles ports ports' (takeOffline sets i reason s) (takeOffline sets' i reason t) := by
  have off := modTrunk_alike (modSeat_alike h i
    (f := fun r => { r with online := false, lastToggle := none }) fun _ _ hx => ⟨rfl, hx.enabled, hx.chair, fun _ => rfl⟩) (segmentOf i)
    (f := fun r => { r with refusals := r.refusals.set (positionOf i) false })
    (fun _ _ hr => congrArg (fun x => Tab.set x _ false) hr) fun _ _ hc => hc
  rw [takeOffline, takeOffline, off.seatRoom_eq]
  exact dropSeat_alike off hsets _ i reason

omit hsets in
theorem lostSpeaker_alike {a : Segment} {s' t' : State} (h' : Alike sound toggles ports ports' s' t') :
    lostSpeaker a t t' = lostSpeaker a s s' := by
  rw [lostSpeaker, lostSpeaker, h.floorOf_eq, h'.floorOf_eq]

theorem hello_alike (i : SeatId) : Alike sound toggles ports ports' (hello sets i s) (hello sets' i t) := by
  rw [hello, hello, (h.seats i).online, h.seatRoom_eq]
  split
  · have dropped := dropSeat_alike h hsets (seatRoom s i) i .seatOffline
    dsimp only
    rw [lostSpeaker_alike h dropped, h.priorityHeld_eq]
    exact endHandling_alike (seatNotice_alike dropped i .restart) hsets ..
  · exact seatNotice_alike (modSeat_alike h i (f := fun r => { r with online := true })
      fun _ _ hx => ⟨rfl, hx.enabled, hx.chair, hx.lastToggle⟩) i .online

theorem bye_alike (i : SeatId) : Alike sound toggles ports ports' (bye sets i s) (bye sets' i t) := by
  rw [bye, bye, (h.seats i).online, h.seatRoom_eq]
  split
  · have dropped := takeOffline_alike h hsets i .seatOffline
    dsimp only
    rw [lostSpeaker_alike h dropped, h.priorityHeld_eq]
    exact endHandling_alike (seatNotice_alike dropped i .offline) hsets ..
  · exact h

/-- A seat event goes the same way in two runs that agree on what it reads. -/
theorem seatEvent_alike (i : SeatId) (kind : EventKind) :
    Alike sound toggles ports ports' (seatEvent sets i kind s) (seatEvent sets' i kind t) := by
  unfold seatEvent
  dsimp only
  rw [(h.seats i).online, (h.seats i).enabled, (h.seats i).chair, h.seatRoom_eq]
  cases kind with
  | hello => exact hello_alike h hsets i
  | bye => exact bye_alike h hsets i
  | talk =>
    dsimp only
    split
    · exact h
    · split
      · exact talk_alike h hsets _ i
      · exact markRefusal_alike h i
  | priorityDown =>
    dsimp only
    split
    · exact h
    · split
      · exact priorityDown_alike h hsets _ i
      · exact markRefusal_alike h i
  | priorityUp =>
    dsimp only
    split
    · exact h
    · exact priorityUp_alike h hsets _ i
  | nextKey =>
    dsimp only
    split
    · exact h
    · split
      · exact nextKey_alike h hsets _ i
      · exact markRefusal_alike h i

end

end Sys2Proof.Machine
end

section
/-! The events of an uplink frame: their order, and each as if it came alone (R53 to R56). -/

namespace Sys2Proof.Machine
open Sys2Proof.Safety

/-! ### The order of a frame's events (R54) -/

/-- The order by position. -/
def positionBefore (x y : UplinkEvent) : Bool :=
  decide (x.position < y.position)

theorem eventsInOrder_eq (l : List UplinkEvent) : eventsInOrder l = sortBy positionBefore l := rfl

theorem eventsInOrder_pairwise (l : List UplinkEvent) :
    (eventsInOrder l).Pairwise fun x y => x.position ≤ y.position := by
  rw [eventsInOrder_eq]
  refine sortBy_pairwise (r := fun x y => x.position ≤ y.position) (fun x y h => ?_) (fun x y h => ?_) (fun x y z => Nat.le_trans) l
  · exact Nat.le_of_lt (by simpa [positionBefore] using h)
  · exact Nat.not_lt.mp (by simpa [positionBefore] using h)

/-- An event inserted into an ordered list stands where it stands among those of them that count. -/
theorem filter_insertBy {p : UplinkEvent → Bool} (e : UplinkEvent) {l : List UplinkEvent}
    (h : l.Pairwise fun x y => x.position ≤ y.position) :
    (insertBy positionBefore e l).filter p =
      if p e then insertBy positionBefore e (l.filter p) else l.filter p := by
  have first (m : List UplinkEvent) (hm : ∀ y ∈ m, e.position < y.position) : insertBy positionBefore e m = e :: m := by
    cases m with
    | nil => rfl
    | cons y m => exact if_pos (decide_eq_true (hm y List.mem_cons_self))
  induction l with
  | nil => cases he : p e <;> simp [insertBy, he]
  | cons y l ih =>
    obtain ⟨hy, hl⟩ := List.pairwise_cons.mp h
    by_cases hlt : e.position < y.position
    · have before : positionBefore e y = true := decide_eq_true hlt
      rw [insertBy, before, if_pos rfl, List.filter_cons]
      split
      · refine (first _ fun z hz => ?_).symm
        rcases List.mem_cons.mp (List.mem_of_mem_filter hz) with rfl | hz
        · exact hlt
        · exact Nat.lt_of_lt_of_le hlt (hy z hz)
      · rfl
    · have after : positionBefore e y = false := decide_eq_false hlt
      rw [insertBy, after, if_neg Bool.false_ne_true, List.filter_cons, List.filter_cons, ih hl]
      cases hpy : p y <;> cases he : p e
      · rfl
      · rfl
      · rfl
      · simp [insertBy, after]

/-- The events that count keep their order when the others are left out first. -/
theorem filter_eventsInOrder (p : UplinkEvent → Bool) (l : List UplinkEvent) :
    (eventsInOrder l).filter p = eventsInOrder (l.filter p) := by
  induction l using List.reverseRecOn with
  | nil => rfl
  | append_singleton l e ih =>
    have snoc (m : List UplinkEvent) (x : UplinkEvent) :
        eventsInOrder (m ++ [x]) = insertBy positionBefore x (eventsInOrder m) := by
      rw [eventsInOrder_eq, sortBy, List.foldl_append]; rfl
    rw [snoc, filter_insertBy e (eventsInOrder_pairwise l), ih, List.filter_append]
    cases he : p e
    · simp [he]
    · simp [he, snoc]

/-- Where no two events have the same position, the order does not depend on that in the frame. -/
theorem eventsInOrder_of_perm {l m : List UplinkEvent} (hm : (m.map UplinkEvent.position).Nodup) (h : l.Perm m) :
    eventsInOrder l = eventsInOrder m := by
  have perm : (eventsInOrder l).Perm (eventsInOrder m) := (sortBy_perm _ l).trans (h.trans (sortBy_perm _ m).symm)
  refine perm.eq_of_pairwise (fun x y hx hy hxy hyx => ?_) (eventsInOrder_pairwise l) (eventsInOrder_pairwise m)
  have hx : x ∈ m := h.mem_iff.mp (mem_sortBy.mp hx)
  exact List.inj_on_of_nodup_map hm hx (mem_sortBy.mp hy) (Nat.le_antisymm hxy hyx)

/-- The first event comes first. -/
theorem eventsInOrder_cons {e : UplinkEvent} {l : List UplinkEvent} (h : ∀ x ∈ l, e.position < x.position) :
    eventsInOrder (e :: l) = e :: eventsInOrder l := by
  have behind (m : List UplinkEvent) : ∀ acc : List UplinkEvent, (∀ x ∈ m, e.position < x.position) →
      m.foldl (fun acc x => insertBy positionBefore x acc) (e :: acc) =
        e :: m.foldl (fun acc x => insertBy positionBefore x acc) acc := by
    induction m with
    | nil => exact fun _ _ => rfl
    | cons x m ih =>
      intro acc hx
      have after : positionBefore x e = false := decide_eq_false (Nat.lt_asymm (hx x List.mem_cons_self))
      rw [List.foldl_cons, List.foldl_cons, insertBy, after, if_neg Bool.false_ne_true]
      exact ih _ fun y hy => hx y (List.mem_cons_of_mem _ hy)
  exact behind l [] h

/-- Events at positions outside 1 to 40 do nothing. -/
theorem foldl_uplinkEvent_filter (k : TrunkId) (l : List UplinkEvent) (s : State) :
    (l.filter fun e => decide (1 ≤ e.position ∧ e.position ≤ 40)).foldl (uplinkEvent k) s = l.foldl (uplinkEvent k) s := by
  induction l generalizing s with
  | nil => rfl
  | cons e l ih =>
    by_cases he : 1 ≤ e.position ∧ e.position ≤ 40
    · rw [List.filter_cons, if_pos (decide_eq_true he), List.foldl_cons, ih]; rfl
    · rw [List.filter_cons, if_neg (by simpa using he), List.foldl_cons, ih]
      rw [show uplinkEvent k s e = s from dif_neg he]

/-! ### Runs that differ in their ports only -/

/-- Two runs differ in their ports only, and have sent the same notices since their ports were `ports` and `ports'`. -/
def Echo (ports ports' : Tab 6 PortRec) (s t : State) : Prop :=
  t = { s with ports := t.ports } ∧ ∃ l, s.ports = delivered s.clock l ports ∧ t.ports = delivered s.clock l ports'

section
variable {ports ports' : Tab 6 PortRec} {s t : State}

theorem Echo.start (s : State) (ports' : Tab 6 PortRec) : Echo s.ports ports' s { s with ports := ports' } :=
  ⟨rfl, [], (delivered_nil ..).symm, (delivered_nil ..).symm⟩

theorem Echo.alike (h : Echo ports ports' s t) : Alike True True s.ports t.ports s t := by
  have heard : ∃ l : List Sent, (∀ n ∈ l, isFloorOrSeat n = true) ∧ s.ports = delivered s.clock l s.ports ∧
      t.ports = delivered s.clock l t.ports := ⟨[], nofun, (delivered_nil ..).symm, (delivered_nil ..).symm⟩
  obtain ⟨rest, -⟩ := h
  refine ⟨?_, ?_, ?_, fun _ => ?_, ?_, ?_, ?_, ?_, ?_, ?_, ?_, heard⟩
  case refine_4 => rw [rest]; exact ⟨rfl, rfl, rfl, fun _ => rfl⟩
  all_goals rw [rest]
  all_goals intros
  all_goals rfl

/-- An operation that neither reads nor writes the ports. -/
theorem Echo.step {op : State → State} (hop : ∀ (u : State) (q : Tab 6 PortRec), op { u with ports := q } = { op u with ports := q })
    (hports : ∀ u, (op u).ports = u.ports) (hclock : ∀ u, (op u).clock = u.clock) (h : Echo ports ports' s t) :
    Echo ports ports' (op s) (op t) := by
  obtain ⟨rest, l, hs, ht⟩ := h
  refine ⟨?_, l, ?_, ?_⟩
  · rw [rest, hop]
  · rw [hports, hclock, hs]
  · rw [hports, hclock, ht]

theorem seatEvent_echo (i : SeatId) (kind : EventKind) (h : Echo ports ports' s t) :
    Echo ports ports' (seatEvent .current i kind s) (seatEvent .current i kind t) := by
  have alike := seatEvent_alike h.alike (sets := .current) (sets' := .current) (fun _ => rfl) i kind
  have frame := seatEvent_seatFrame .current i kind s
  have frame' := seatEvent_seatFrame .current i kind t
  have seats : (seatEvent .current i kind t).seats = (seatEvent .current i kind s).seats := Tab.ext_get fun j => (alike.seats j).eq
  have clock : (seatEvent .current i kind s).clock = s.clock := by rw [frame.rest]
  have heard : ∃ l, (seatEvent .current i kind s).ports = delivered (seatEvent .current i kind s).clock l ports ∧
      (seatEvent .current i kind t).ports = delivered (seatEvent .current i kind s).clock l ports' := by
    obtain ⟨-, l, hs, ht⟩ := h
    obtain ⟨m, -, hs', ht'⟩ := alike.heard
    rw [clock] at hs' ht' ⊢
    exact ⟨l ++ m, by rw [hs', hs, delivered_append], by rw [ht', ht, delivered_append]⟩
  refine ⟨?_, heard⟩
  have trunks : (seatEvent .current i kind t).trunks = (seatEvent .current i kind s).trunks := Tab.ext_get fun k => by
    rw [frame'.trunks k, frame.trunks k, alike.channels trivial k, alike.refusals k, h.1]
  have mixes : (seatEvent .current i kind t).mixes = (seatEvent .current i kind s).mixes := Tab.ext_get fun a => by
    rw [frame'.mixes a, frame.mixes a, alike.mixes trivial a, h.1]
  have rest' := frame'.rest
  rw [seats, trunks, mixes, alike.floors, alike.releaseCounter, alike.poolFree, alike.stampCounter] at rest'
  calc seatEvent .current i kind t = _ := rest'
    _ = { { s with
            seats := (seatEvent .current i kind s).seats
            ports := (seatEvent .current i kind s).ports
            trunks := (seatEvent .current i kind s).trunks
            mixes := (seatEvent .current i kind s).mixes
            floors := (seatEvent .current i kind s).floors
            releaseCounter := (seatEvent .current i kind s).releaseCounter
            poolFree := (seatEvent .current i kind s).poolFree
            stampCounter := (seatEvent .current i kind s).stampCounter } with
          ports := (seatEvent .current i kind t).ports } := by
      generalize (seatEvent .current i kind t).ports = q
      rw [h.1]
    _ = _ := by rw [← frame.rest]

theorem acceptEvent_echo (k : TrunkId) (pos : Position) (kind : EventKind) (toggle : Bool) (h : Echo ports ports' s t) :
    Echo ports ports' (acceptEvent k pos kind toggle s) (acceptEvent k pos kind toggle t) := by
  have seats : t.seats = s.seats := by rw [h.1]
  have trunks : t.trunks = s.trunks := by rw [h.1]
  have noted : Echo ports ports' (acknowledge k pos toggle (storeToggle (seatAt k pos) toggle s))
      (acknowledge k pos toggle (storeToggle (seatAt k pos) toggle t)) :=
    h.step (op := fun u => acknowledge k pos toggle (storeToggle (seatAt k pos) toggle u)) (fun _ _ => rfl) (fun _ => rfl)
      fun _ => rfl
  unfold acceptEvent
  dsimp only
  rw [seats, trunks]
  split
  · exact h.step (op := acknowledge k pos toggle) (fun _ _ => rfl) (fun _ => rfl) fun _ => rfl
  · split
    · split
      · exact noted.step (op := fun u => u.modTrunk k fun r =>
          { r with intake := r.intake ++ [{ seat := seatAt k pos, kind := kind, toggle := toggle }] })
          (fun _ _ => rfl) (fun _ => rfl) fun _ => rfl
      · exact h
    · exact seatEvent_echo _ kind noted

theorem uplinkEvent_echo (k : TrunkId) (e : UplinkEvent) (h : Echo ports ports' s t) :
    Echo ports ports' (uplinkEvent k s e) (uplinkEvent k t e) := by
  unfold uplinkEvent
  split
  · exact acceptEvent_echo _ _ _ _ h
  · exact h

theorem foldl_uplinkEvent_echo (k : TrunkId) (l : List UplinkEvent) (h : Echo ports ports' s t) :
    Echo ports ports' (l.foldl (uplinkEvent k) s) (l.foldl (uplinkEvent k) t) := by
  induction l generalizing s t with
  | nil => exact h
  | cons e l ih => exact ih (uplinkEvent_echo k e h)

/-! ### A transmitter that starts in between (R186) -/

theorem deliverAll_cons (clock : Clock) (q : Port) (n : Sent) (l : List Sent) (r : PortRec) :
    deliverAll clock q (n :: l) r =
      deliverAll clock q l (if n.1.contains q then r.deliver { clock := clock, body := n.2 } else r) := rfl

@[simp] theorem deliverAll_transmitter (clock : Clock) (q : Port) (l : List Sent) (r : PortRec) :
    (deliverAll clock q l r).transmitter = r.transmitter := by
  induction l generalizing r with
  | nil => rfl
  | cons n l ih =>
    rw [deliverAll_cons, ih]
    split
    · exact PortRec.deliver_transmitter ..
    · rfl

theorem PortRec.deliver_withTransmitter (n : Notice) (r : PortRec) (x : Transmitter) :
    { r with transmitter := x }.deliver n = { r.deliver n with transmitter := x } := by
  unfold PortRec.deliver PortRec.enqueue
  dsimp only
  repeat' split
  all_goals rfl

theorem deliverAll_withTransmitter (clock : Clock) (q : Port) (l : List Sent) (r : PortRec) (x : Transmitter) :
    deliverAll clock q l { r with transmitter := x } = { deliverAll clock q l r with transmitter := x } := by
  induction l generalizing r with
  | nil => rfl
  | cons n l ih =>
    rw [deliverAll_cons, deliverAll_cons, PortRec.deliver_withTransmitter]
    split
    · exact ih _
    · exact ih _

/-- Notices are queued behind those that wait. -/
theorem deliverAll_notices (clock : Clock) (q : Port) (l : List Sent) (r : PortRec) :
    ∃ m, (deliverAll clock q l r).notices = r.notices ++ m := by
  induction l generalizing r with
  | nil => exact ⟨[], (List.append_nil _).symm⟩
  | cons n l ih =>
    have one (r : PortRec) (x : Notice) : ∃ m, (r.deliver x).notices = r.notices ++ m := by
      have nothing : ∃ m, r.notices = r.notices ++ m := ⟨[], (List.append_nil _).symm⟩
      unfold PortRec.deliver PortRec.enqueue
      split
      · split
        · exact nothing
        · split
          · exact ⟨_, rfl⟩
          · split
            · exact ⟨_, rfl⟩
            · exact nothing
      · exact nothing
    rw [deliverAll_cons]
    split
    · obtain ⟨m, hm⟩ := one r { clock := clock, body := n.2 }
      obtain ⟨m', hm'⟩ := ih (r.deliver { clock := clock, body := n.2 })
      exact ⟨m ++ m', by rw [hm', hm, List.append_assoc]⟩
    · exact ih r

theorem PortRec.startSending_busy {r : PortRec} (h : r.transmitter ≠ .idle) : r.startSending = r := by
  unfold PortRec.startSending
  split
  · next hi => exact absurd hi h
  · rfl
  · rfl

theorem PortRec.startSending_notice {r : PortRec} {n : Notice} {rest : List Notice} (hi : r.transmitter = .idle)
    (hr : r.replies = []) (hn : r.notices = n :: rest) :
    r.startSending = { r with transmitter := .notice (noticeBytes n) } := by
  rw [PortRec.startSending, hi, hr, hn]

/-- An idle transmitter without replies takes the oldest notice, which later notices do not change. -/
theorem startSending_deliverAll (clock : Clock) (q : Port) (l : List Sent) {r : PortRec}
    (h : r.transmitter = .idle → r.replies = []) :
    (deliverAll clock q l r.startSending).startSending = (deliverAll clock q l r).startSending := by
  by_cases hi : r.transmitter = .idle
  · have hr := h hi
    cases hn : r.notices with
    | nil => rw [show r.startSending = r by rw [PortRec.startSending, hi, hr, hn]]
    | cons n rest =>
      obtain ⟨m, hm⟩ := deliverAll_notices clock q l r
      rw [hn] at hm
      rw [PortRec.startSending_notice hi hr hn, deliverAll_withTransmitter,
        PortRec.startSending_notice (r := deliverAll clock q l r) (by simpa using hi) (by simpa using hr) hm]
      exact PortRec.startSending_busy (by simp)
  · rw [PortRec.startSending_busy hi]

end

/-! ### A frame with the expected word (R41, R47, R54) -/

theorem bitErrors_self (w : BitVec 16) : bitErrors w w = 0 := by
  simp [bitErrors]

/-- The record of a LOCKED trunk after a frame with the expected word. -/
def matched (audio : Tab 16 Audio) (r : Trunk) : Trunk :=
  { r with
    predictor := (nextWord r.predictor).1
    live := { r.live with
      lockedFrames := min 4294967295 (r.live.lockedFrames + 1)
      erroredFrames := min 4294967295 r.live.erroredFrames
      bitErrors := min 4294967295 r.live.bitErrors
      syncLosses := min 4294967295 r.live.syncLosses }
    blockPos := if 63 ≤ r.blockPos then 0 else r.blockPos + 1
    blockErrors := if 63 ≤ r.blockPos then 0 else r.blockErrors
    audio := some audio }

theorem framed_matched {r : Trunk} (hsup : r.supervision = some .locked) (hb : r.blockErrors < 6) (s : State)
    (events : List UplinkEvent) (audio : Tab 16 Audio) :
    framed s (some { word := (nextWord r.predictor).2, events := events, audio := audio }) r = matched audio r := by
  have was : isLocked r = true := by rw [isLocked, hsup]; rfl
  have none_wrong : frameErrors (nextWord r.predictor).2 (some (nextWord r.predictor).2) = 0 := bitErrors_self _
  simp only [framed, Option.map_some, was, if_true, supervise_locked hsup, lockedWord, none_wrong, Nat.add_zero,
    if_neg (Nat.not_le.mpr hb), addCounts_eq, decide_eq_false (Nat.not_le.mpr hb), Bool.false_eq_true, if_false]
  by_cases hp : 63 ≤ r.blockPos
  · simp only [matched, if_pos hp, if_pos (Nat.succ_le_succ hp)]
  · simp only [matched, if_neg hp, if_neg (show ¬64 ≤ r.blockPos + 1 by omega)]

theorem takeUplink_matched {k : TrunkId} {s : State} (hp : (s.trunks.get k).power = .live)
    (hsup : (s.trunks.get k).supervision = some .locked) (hb : (s.trunks.get k).blockErrors < 6)
    (events : List UplinkEvent) (audio : Tab 16 Audio) :
    takeUplink k { word := (nextWord (s.trunks.get k).predictor).2, events := events, audio := audio } s =
      (eventsInOrder events).foldl (uplinkEvent k) (s.putTrunk k (matched audio (s.trunks.get k))) := by
  have was : isLocked (s.trunks.get k) = true := by rw [isLocked, hsup]; rfl
  have accepts : acceptsEvents (s.trunks.get k) (nextWord (s.trunks.get k).predictor).2 = true := by
    rw [acceptsEvents, was, frameErrors, bitErrors_self]; rfl
  have stays : isLocked (matched audio (s.trunks.get k)) = true := was
  simp only [takeUplink, hp, accepts, if_true, takeFrame_eq, framed_matched hsup hb, was, stays, sendAll_nil]

/-- Settles O49, the order of the events. -/
theorem events_order (k : TrunkId) (word : BitVec 16) (events : List UplinkEvent) (audio : Tab 16 Audio) (s : State) :
    let frame := fun l : List UplinkEvent => exec (.uplinkFrame k { word := word, events := l, audio := audio }) s
    frame events = frame (events.filter fun e => decide (1 ≤ e.position ∧ e.position ≤ 40)) ∧
      ((events.map UplinkEvent.position).Nodup → ∀ l, l.Perm events → frame l = frame events) := by
  intro frame
  have same {l m : List UplinkEvent}
      (h : ∀ t, (eventsInOrder l).foldl (uplinkEvent k) t = (eventsInOrder m).foldl (uplinkEvent k) t) :
      frame l = frame m := by
    have taken : takeUplink k { word := word, events := l, audio := audio } =
        takeUplink k { word := word, events := m, audio := audio } := funext fun t => by
      simp only [takeUplink, h]
      rfl
    exact congrArg (fun e => carryOut e s) taken
  refine ⟨same fun t => ?_, fun hn l hl => same fun t => by rw [eventsInOrder_of_perm hn hl]⟩
  rw [← filter_eventsInOrder, foldl_uplinkEvent_filter]

/-! ### A frame with several events (R54) -/

/-- What an event of a frame leaves alone: most of the state, and most of the record of its trunk. -/
structure EventFrame (k : TrunkId) (s t : State) : Prop where
  rest : t =
    { s with
      seats := t.seats
      ports := t.ports
      trunks := t.trunks
      mixes := t.mixes
      floors := t.floors
      releaseCounter := t.releaseCounter
      poolFree := t.poolFree
      stampCounter := t.stampCounter }
  trunk : t.trunks.get k =
    { s.trunks.get k with
      channels := (t.trunks.get k).channels
      intake := (t.trunks.get k).intake
      acks := (t.trunks.get k).acks
      refusals := (t.trunks.get k).refusals }

theorem EventFrame.refl (k : TrunkId) (s : State) : EventFrame k s s := ⟨rfl, rfl⟩

theorem EventFrame.trans {k : TrunkId} {s t u : State} (h : EventFrame k s t) (h' : EventFrame k t u) : EventFrame k s u :=
  ⟨by rw [h'.rest, h.rest], by rw [h'.trunk, h.trunk]⟩

theorem seatEvent_eventFrame (k : TrunkId) (i : SeatId) (kind : EventKind) (s : State) :
    EventFrame k s (seatEvent .current i kind s) :=
  have h := seatEvent_seatFrame .current i kind s
  ⟨h.rest, by rw [h.trunks k]⟩

theorem acknowledge_eventFrame (k : TrunkId) (pos : Position) (toggle : Bool) (s : State) :
    EventFrame k s (acknowledge k pos toggle s) :=
  ⟨rfl, by simp [acknowledge]⟩

theorem uplinkEvent_frame (k : TrunkId) (e : UplinkEvent) (s : State) : EventFrame k s (uplinkEvent k s e) := by
  unfold uplinkEvent
  split
  · next he =>
    generalize (⟨e.position - 1, by omega⟩ : Position) = pos
    have stored : EventFrame k s (storeToggle (seatAt k pos) e.toggle s) := ⟨rfl, rfl⟩
    have noted := stored.trans (acknowledge_eventFrame k pos e.toggle _)
    unfold acceptEvent
    dsimp only
    split
    · exact acknowledge_eventFrame k pos e.toggle s
    · split
      · split
        · exact noted.trans ⟨rfl, by simp⟩
        · exact .refl k s
      · exact noted.trans (seatEvent_eventFrame ..)
  · exact .refl k s

/-- Transmitters that start between two runs of events change nothing, where none was idle beside a reply. -/
theorem startTransmitters_foldl (k : TrunkId) (l : List UplinkEvent) {u : State}
    (h : ∀ q, (u.ports.get q).transmitter = .idle → (u.ports.get q).replies = []) :
    startTransmitters (l.foldl (uplinkEvent k) (startTransmitters u)) = startTransmitters (l.foldl (uplinkEvent k) u) := by
  have echo : Echo u.ports (startTransmitters u).ports (l.foldl (uplinkEvent k) u)
      (l.foldl (uplinkEvent k) (startTransmitters u)) :=
    foldl_uplinkEvent_echo k l (Echo.start u (startTransmitters u).ports)
  obtain ⟨rest, sent, hs, ht⟩ := echo
  generalize l.foldl (uplinkEvent k) u = a at *
  generalize l.foldl (uplinkEvent k) (startTransmitters u) = b at *
  rw [startTransmitters_frame b, rest, startTransmitters_frame a]
  refine congrArg (fun ports => { a with ports := ports }) (Tab.ext_get fun q => ?_)
  dsimp only
  rw [ht, hs, Tab.get_map, Tab.get_map, delivered, delivered, Tab.get_ofFn, Tab.get_ofFn, startTransmitters_frame,
    Tab.get_map]
  exact startSending_deliverAll _ q sent (h q)

/-- The first of several events acts as in a frame of its own; the frame itself counts once (R54). -/
theorem events_split (k : TrunkId) (e : UplinkEvent) (rest : List UplinkEvent) (audio : Tab 16 Audio) (s s1 : State) :
    let r := s.trunks.get k
    let frame := fun l : List UplinkEvent =>
      Instr.uplinkFrame k { word := (nextWord r.predictor).2, events := l, audio := audio }
    s.held = false → r.power = .live → r.supervision = some .locked → r.blockErrors < 6 → transmittersOk s →
    (∀ x ∈ rest, e.position < x.position) → exec (frame [e]) s = .next s1 →
    exec (frame (e :: rest)) s =
      exec (frame rest)
        { s1 with
          trunks :=
            s1.trunks.set k
              { s1.trunks.get k with
                predictor := r.predictor, live := r.live, blockPos := r.blockPos, blockErrors := r.blockErrors } } := by
  intro r frame hheld hp hsup hb hidle hfirst hone
  have taken (l : List UplinkEvent) : exec (frame l) s =
      .next (startTransmitters ((eventsInOrder l).foldl (uplinkEvent k) (s.putTrunk k (matched audio r)))) := by
    rw [show exec (frame l) s = .next (startTransmitters (takeUplink k _ s)) from carryOut_eq hheld _,
      takeUplink_matched hp hsup hb]
  have first := uplinkEvent_frame k e (s.putTrunk k (matched audio r))
  have echo := uplinkEvent_echo k e (Echo.start (s.putTrunk k (matched audio r)) s.ports)
  rw [taken, show eventsInOrder [e] = [e] from rfl] at hone
  rw [taken, eventsInOrder_cons hfirst, List.foldl_cons]
  change Host.Outcome.next (startTransmitters (uplinkEvent k (s.putTrunk k (matched audio r)) e)) = .next s1 at hone
  injection hone with hone
  generalize uplinkEvent k (s.putTrunk k (matched audio r)) e = u at *
  subst hone
  have idle (q : Port) (hi : (u.ports.get q).transmitter = .idle) : (u.ports.get q).replies = [] := by
    obtain ⟨-, l, hl, -⟩ := echo
    change u.ports = delivered u.clock l s.ports at hl
    rw [hl, delivered, Tab.get_ofFn] at hi ⊢
    rw [deliverAll_transmitter] at hi
    rw [deliverAll_replies]
    exact (hidle hheld q hi).1
  have record := first.trunk
  rw [putTrunk_get] at record
  have restored : (matched audio { u.trunks.get k with
      predictor := r.predictor, live := r.live, blockPos := r.blockPos, blockErrors := r.blockErrors }) = u.trunks.get k := by
    conv_rhs => rw [record]
    rw [record]
    rfl
  have held : u.held = false := by rw [first.rest]; exact hheld
  have power : (u.trunks.get k).power = .live := by rw [record]; exact hp
  have locked : (u.trunks.get k).supervision = some .locked := by rw [record]; exact hsup
  generalize hx : { u.trunks.get k with
    predictor := r.predictor, live := r.live, blockPos := r.blockPos, blockErrors := r.blockErrors } = x at restored
  have again (X : State) (hX : X = { startTransmitters u with trunks := u.trunks.set k x }) :
      exec (frame rest) X = .next (startTransmitters ((eventsInOrder rest).foldl (uplinkEvent k) (startTransmitters u))) := by
    have record : X.trunks.get k = x := by rw [hX]; exact Tab.get_set_self ..
    have back : X.putTrunk k (matched audio x) = startTransmitters u := by
      rw [restored, hX]
      have trunks : (u.trunks.set k x).set k (u.trunks.get k) = u.trunks := Tab.ext_get fun j => by
        by_cases hj : k = j
        · subst hj; simp
        · simp [Tab.get_set_ne _ _ hj]
      calc _ = { startTransmitters u with trunks := (u.trunks.set k x).set k (u.trunks.get k) } := rfl
        _ = startTransmitters u := by rw [trunks]; rfl
    have h := takeUplink_matched (k := k) (s := X) (by rw [record, ← hx]; exact power) (by rw [record, ← hx]; exact locked)
      (by rw [record, ← hx]; exact hb) rest audio
    rw [record, back, ← hx] at h
    rw [show exec (frame rest) X = .next (startTransmitters (takeUplink k _ X)) from
      carryOut_eq (by rw [hX]; exact held) _]
    exact congrArg (fun t => Host.Outcome.next (startTransmitters t)) h
  rw [again _ (by rw [← hx]; rfl), startTransmitters_foldl k _ idle]

/-! ### What each kind of event does (R59, R60, R71 to R74, R98 to R103) -/

section
variable {s : State} {i : SeatId}

theorem mem_speakers_of_speakerOf {f : Floor} {e : Speaker} (h : speakerOf f i = some e) : e ∈ f.speakers ∧ e.seat = i :=
  ⟨List.mem_of_find?_eq_some h, by simpa using List.find?_some h⟩

/-- Where no seat has two entries, a seat's speaker entry is the one in the list. -/
theorem speakerOf_of_mem {f : Floor} (hf : (entrySeats f).Nodup) {e : Speaker} (he : e ∈ f.speakers) (hi : e.seat = i) :
    speakerOf f i = some e := by
  have nodup : (f.speakers.map Speaker.seat).Nodup := (List.nodup_append.mp hf).1
  cases hs : speakerOf f i with
  | none => exact absurd (by simpa using hi) (List.find?_eq_none.mp hs e he)
  | some e' =>
    obtain ⟨he', hi'⟩ := mem_speakers_of_speakerOf hs
    rw [List.inj_on_of_nodup_map nodup he' he (hi'.trans hi.symm)]

/-- Everything of a seat leaves: a speaker entry is lost exactly where there was one. -/
theorem lostSpeaker_afterDrop (s : State) (a : Segment) (i : SeatId) (l : List Sent) :
    lostSpeaker a s (sendAll l (afterDrop s a i)) = hasSpeaker (s.floors.get a) i := by
  rw [lostSpeaker, floorOf, sendAll_floors, Bool.eq_iff_iff, decide_eq_true_iff]
  have h := (length_foldl_eraseP Speaker.seat [i] (s.floors.get a).speakers).2
  rw [List.any_cons, List.any_nil, Bool.or_false] at h
  simp only [afterDrop, Tab.get_modify_self]
  exact h

theorem hello_online (h : (s.seats.get i).online = true) :
    hello .current i s =
      endHandling .current (seatRoom s i) (!(s.floors.get (seatRoom s i)).holders.isEmpty)
        (hasSpeaker (s.floors.get (seatRoom s i)) i)
        (sendAll (dropSent s (seatRoom s i) i .seatOffline ++
            [([segmentOf i], .seat i true (s.seats.get i).enabled (s.seats.get i).chair .restart)])
          (afterDrop s (seatRoom s i) i)) := by
  rw [hello, if_pos h]
  dsimp only
  rw [dropSeat_eq _ _ _ rfl rfl, lostSpeaker_afterDrop, sendAll_append, seatNotice, sendAll_seats]
  simp only [afterDrop, h]
  rfl

theorem bye_online (h : (s.seats.get i).online = true) :
    bye .current i s =
      endHandling .current (seatRoom s i) (!(s.floors.get (seatRoom s i)).holders.isEmpty)
        (hasSpeaker (s.floors.get (seatRoom s i)) i)
        (sendAll (dropSent s (seatRoom s i) i .seatOffline ++
            [([segmentOf i], .seat i false (s.seats.get i).enabled (s.seats.get i).chair .offline)])
          (afterDrop (seatsOff (segmentOf i) [i] s) (seatRoom s i) i)) := by
  rw [bye, if_pos h]
  dsimp only
  rw [takeOffline_eq s rfl rfl rfl]
  have lost (l : List Sent) : lostSpeaker (seatRoom s i) s (sendAll l (afterDrop (seatsOff (segmentOf i) [i] s) (roomOf s (segmentOf i)) i)) =
      hasSpeaker (s.floors.get (seatRoom s i)) i := lostSpeaker_afterDrop (seatsOff (segmentOf i) [i] s) (seatRoom s i) i l
  have offline : (seatsOff (segmentOf i) [i] s).seats.get i = { s.seats.get i with online := false, lastToggle := none } := by
    simp [seatsOff]
  rw [lost, sendAll_append, seatNotice, sendAll_seats]
  simp only [afterDrop, offline]
  rfl

section
variable {a : Segment}

theorem talk_closes {e : Speaker} (he : speakerOf (s.floors.get a) i = some e) :
    talk .current a i s =
      endHandling .current a (!(s.floors.get a).holders.isEmpty) true
        (sendAll [floorSent s a i .closed .bySeat] (afterRemoval s a i e.gain)) := by
  have speaks : hasSpeaker (floorOf s a) i = true := by rw [hasSpeaker_eq_isSome, floorOf, he]; rfl
  rw [talk, if_pos speaks, removeSpeaker_kept he rfl]
  rfl

theorem talk_cancels (hs : hasSpeaker (s.floors.get a) i = false) (hr : hasRequest (s.floors.get a) i = true) :
    talk .current a i s = sendAll [floorSent s a i .dequeued .cancelled] (afterDequeue s a i false) := by
  rw [talk, floorOf, hs, hr]
  exact removeRequest_eq .cancelled hr

/-- A TALK of a seat without an entry, chair or not (R71 to R73). -/
theorem talk_new (hs : hasSpeaker (s.floors.get a) i = false) (hr : hasRequest (s.floors.get a) i = false) :
    talk .current a i s =
      if (s.seats.get i).chair then
        (if listHasRoom (floorOf s a) then grantSeat .current a i .bySeat false s else markRefusal i s)
      else talkByMode .current a i s := by
  rw [talk, floorOf, hs, hr]
  rfl

theorem placeFree_iff : placeFree s a i = true ↔
    (s.floors.get a).speakers.length < 10 ∧
      ((s.seats.get i).chair = true ∨ openCount (s.floors.get a) < (s.profiles.get a).maxOpen) := by
  simp only [placeFree, listHasRoom, Bool.and_eq_true, Bool.or_eq_true, decide_eq_true_eq]
  rfl

theorem talkByMode_direct (hm : (s.profiles.get a).floorMode = .direct) :
    talkByMode .current a i s =
      if placeFree s a i && !priorityHeld s a then grantSeat .current a i .bySeat false s else markRefusal i s := by
  rw [talkByMode, profileOf, hm]

theorem talkByMode_auto (hm : (s.profiles.get a).floorMode = .autoQueue) :
    talkByMode .current a i s =
      if placeFree s a i && (floorOf s a).queue.isEmpty && !priorityHeld s a then grantSeat .current a i .bySeat false s
      else talkEnqueue a i s := by
  rw [talkByMode, profileOf, hm]

theorem talkByMode_chair (hm : (s.profiles.get a).floorMode = .chair) : talkByMode .current a i s = talkEnqueue a i s := by
  rw [talkByMode, profileOf, hm]

theorem talkEnqueue_eq :
    talkEnqueue a i s =
      if (s.floors.get a).queue.length < (s.profiles.get a).requestCap ∧ 0 < s.poolFree then
        sendAll [floorSent s a i .queued .bySeat] (afterEnqueue s a i)
      else markRefusal i s := by
  unfold talkEnqueue
  by_cases h : (s.floors.get a).queue.length < (s.profiles.get a).requestCap ∧ 0 < s.poolFree
  · rw [if_pos h, if_neg]
    · rfl
    · simp only [Bool.or_eq_true, decide_eq_true_eq, beq_iff_eq]
      simp only [floorOf, profileOf]
      omega
  · rw [if_neg h, if_pos]
    simp only [Bool.or_eq_true, decide_eq_true_eq, beq_iff_eq]
    simp only [floorOf, profileOf]
    omega

/-- PRIORITY_DOWN of a seat that is no holder, where the holder set has room (R99, R100). -/
theorem priorityDown_speaking (hh : isHolder (s.floors.get a) i = false) (hn : (s.floors.get a).holders.length < 4)
    (hs : hasSpeaker (s.floors.get a) i = true) :
    priorityDown .current a i s = sendAll (holdSent s a) (afterHold s a i) := by
  have room : ¬Config.holderCap ≤ (floorOf s a).holders.length := Nat.not_le.mpr hn
  rw [priorityDown]
  dsimp only
  rw [if_neg (by rw [floorOf, hh]; exact Bool.false_ne_true), if_neg room, if_pos (show hasSpeaker (floorOf s a) i = true from hs),
    joinHold_eq]

theorem afterHold_sendAll (l : List Sent) (s : State) (a : Segment) (i : SeatId) :
    afterHold (sendAll l s) a i = sendAll l (afterHold s a i) :=
  eq_sendAll_of_frame (s := s) l rfl rfl (by rw [sendAll_frame]; rfl)

theorem holdSent_sendAll (l : List Sent) (s : State) : holdSent (sendAll l s) = holdSent s := by
  rw [sendAll_frame]; rfl

theorem joinHold_sendAll (a : Segment) (i : SeatId) (l : List Sent) (s : State) :
    joinHold a i (sendAll l s) = sendAll (l ++ holdSent s a) (afterHold s a i) :=
  op_sendAll (op := joinHold a i) (sent := fun u => holdSent u a) (after := fun u => afterHold u a i) (joinHold_eq ..)
    (by rw [holdSent_sendAll]) (afterHold_sendAll ..)

theorem grantSeat_sendAll (a : Segment) (i : SeatId) (reason : FloorReason) (byPriority : Bool) (l : List Sent) (s : State) :
    grantSeat .current a i reason byPriority (sendAll l s) =
      sendAll (l ++ [floorSent s a i .granted reason]) (afterGrant s a i byPriority) :=
  op_sendAll (op := grantSeat .current a i reason byPriority) (sent := fun u => [floorSent u a i .granted reason])
    (after := fun u => afterGrant u a i byPriority) (grantSeat_eq ..) (by rw [floorSent_sendAll]) (afterGrant_sendAll ..)

theorem priorityDown_opens (hh : isHolder (s.floors.get a) i = false) (hn : (s.floors.get a).holders.length < 4)
    (hs : hasSpeaker (s.floors.get a) i = false) (hl : (s.floors.get a).speakers.length < 10) :
    priorityDown .current a i s =
      sendAll (floorSent s a i .granted .bySeat :: holdSent (afterGrant s a i true) a)
        (afterHold (afterGrant s a i true) a i) := by
  have room : ¬Config.holderCap ≤ (floorOf s a).holders.length := Nat.not_le.mpr hn
  have list : listHasRoom (floorOf s a) = true := decide_eq_true hl
  rw [priorityDown]
  dsimp only
  rw [if_neg (by rw [floorOf, hh]; exact Bool.false_ne_true), if_neg room, if_neg (by rw [floorOf, hs]; exact Bool.false_ne_true),
    if_pos list, grantSeat_eq, joinHold_sendAll]
  rfl

/-- PRIORITY_DOWN at a full list bumps the latest non-chair speaker (R100). -/
theorem priorityDown_bumps {e : Speaker} (hh : isHolder (s.floors.get a) i = false)
    (hn : (s.floors.get a).holders.length < 4) (hs : hasSpeaker (s.floors.get a) i = false)
    (hl : 10 ≤ (s.floors.get a).speakers.length)
    (he : ((s.floors.get a).speakers.filter fun e => !e.chairAtGrant).getLast? = some e)
    (hf : (entrySeats (s.floors.get a)).Nodup) :
    priorityDown .current a i s =
      sendAll ([floorSent s a e.seat .closed .priorityBump, floorSent s a i .granted .bySeat] ++
          holdSent (afterGrant (afterRemoval s a e.seat e.gain) a i true) a)
        (afterHold (afterGrant (afterRemoval s a e.seat e.gain) a i true) a i) := by
  have room : ¬Config.holderCap ≤ (floorOf s a).holders.length := Nat.not_le.mpr hn
  have list : ¬listHasRoom (floorOf s a) = true := by
    rw [listHasRoom, decide_eq_true_eq]; exact Nat.not_lt.mpr hl
  have entry : speakerOf (s.floors.get a) e.seat = some e :=
    speakerOf_of_mem hf (List.mem_of_mem_filter (List.mem_of_getLast? he)) rfl
  have held (l : List Sent) (u : State) : priorityHeld (sendAll l (afterHold u a i)) a = true := by
    rw [priorityHeld_sendAll, priorityHeld_iff]
    simp only [afterHold, Tab.get_modify_self]
    exact List.ne_nil_of_mem (mem_insertBy.mpr (.inl rfl))
  rw [priorityDown]
  dsimp only
  rw [if_neg (by rw [floorOf, hh]; exact Bool.false_ne_true), if_neg room,
    if_neg (by rw [floorOf, hs]; exact Bool.false_ne_true), if_neg list, floorOf, he]
  dsimp only
  rw [removeSpeaker_kept entry rfl, grantSeat_sendAll, joinHold_sendAll, autoAdvance_held .current (held _ _)]
  rfl

theorem priorityDown_full (hh : isHolder (s.floors.get a) i = false)
    (hn : (s.floors.get a).holders.length < 4) (hs : hasSpeaker (s.floors.get a) i = false)
    (hl : 10 ≤ (s.floors.get a).speakers.length)
    (he : ((s.floors.get a).speakers.filter fun e => !e.chairAtGrant).getLast? = none) :
    priorityDown .current a i s = markRefusal i s := by
  have room : ¬Config.holderCap ≤ (floorOf s a).holders.length := Nat.not_le.mpr hn
  have list : ¬listHasRoom (floorOf s a) = true := by
    rw [listHasRoom, decide_eq_true_eq]; exact Nat.not_lt.mpr hl
  rw [priorityDown]
  dsimp only
  rw [if_neg (by rw [floorOf, hh]; exact Bool.false_ne_true), if_neg room,
    if_neg (by rw [floorOf, hs]; exact Bool.false_ne_true), if_neg list, floorOf, he]

/-! PRIORITY_UP (R101). -/

theorem priorityUp_idle (hh : isHolder (s.floors.get a) i = false) : priorityUp .current a i s = s := by
  rw [priorityUp, floorOf, hh]; rfl

/-- The hold of a seat ends. -/
def holdLeft (s : State) (a : Segment) (i : SeatId) : State :=
  s.modFloor a fun f => { f with holders := f.holders.filter fun h => h.seat != i }

theorem priorityUp_leaves (hh : isHolder (s.floors.get a) i = true)
    (ho : openedByPriority (s.floors.get a) i = false) :
    priorityUp .current a i s = endHandling .current a true false (holdLeft s a i) := by
  rw [priorityUp, if_pos (show isHolder (floorOf s a) i = true from hh), leaveHold]
  rw [show openedByPriority (floorOf s a) i = false from ho]
  rfl

theorem afterRemoval_holdLeft (s : State) (a : Segment) (i : SeatId) (gain : Nat) :
    afterRemoval (holdLeft s a i) a i gain = afterRemoval s a i gain := by
  have floors : (afterRemoval (holdLeft s a i) a i gain).floors = (afterRemoval s a i gain).floors := Tab.ext_get fun b => by
    by_cases hb : a = b
    · subst hb; simp [afterRemoval, holdLeft]
    · simp [afterRemoval, holdLeft, Tab.get_modify_ne _ _ hb]
  calc afterRemoval (holdLeft s a i) a i gain =
      { afterRemoval s a i gain with floors := (afterRemoval (holdLeft s a i) a i gain).floors } := rfl
    _ = afterRemoval s a i gain := by rw [floors]

theorem priorityUp_closes {e : Speaker} (hh : isHolder (s.floors.get a) i = true)
    (he : speakerOf (s.floors.get a) i = some e) (hb : e.byPriority = true) :
    priorityUp .current a i s =
      endHandling .current a true true
        (sendAll [floorSent s a i .closed .priorityEnd] (afterRemoval s a i e.gain)) := by
  obtain ⟨hm, hi⟩ := mem_speakers_of_speakerOf he
  have opened : openedByPriority (floorOf s a) i = true := List.any_eq_true.mpr ⟨e, hm, by simp [hi, hb]⟩
  have entry : speakerOf ((holdLeft s a i).floors.get a) i = some e := by
    simp only [holdLeft, State.modFloor_floors, Tab.get_modify_self]
    exact he
  rw [priorityUp, if_pos (show isHolder (floorOf s a) i = true from hh), leaveHold]
  rw [if_pos opened, opened]
  have removed := removeSpeaker_kept (reason := .priorityEnd) entry rfl
  rw [afterRemoval_holdLeft] at removed
  exact congrArg (endHandling .current a true true) removed

/-! NEXT (R74). -/

theorem nextKey_refused (h : (s.floors.get a).holders ≠ [] ∨ (s.profiles.get a).floorMode = .direct ∨ (s.floors.get a).queue = []) :
    nextKey .current a i s = markRefusal i s := by
  have refused : ∃ code, grantHead .current a false s = .refused code := by
    rw [grantHead]
    by_cases hp : priorityHeld s a = true
    · exact ⟨_, if_pos hp⟩
    · rw [if_neg hp]
      by_cases hm : ((profileOf s a).floorMode == .direct) = true
      · exact ⟨_, if_pos hm⟩
      · have hq : (floorOf s a).queue = [] := by
          rcases h with h | h | h
          · exact absurd (priorityHeld_iff.mpr h) hp
          · exact absurd (beq_iff_eq.mpr h) hm
          · exact h
        rw [if_neg hm, hq]
        exact ⟨_, rfl⟩
  obtain ⟨code, hc⟩ := refused
  rw [nextKey, hc]

theorem nextKey_head {q : Request} (hh : (s.floors.get a).holders = []) (hm : (s.profiles.get a).floorMode ≠ .direct)
    (hq : (s.floors.get a).queue.head? = some q) :
    nextKey .current a i s =
      if placeFree s a q.seat then sendAll [floorSent s a q.seat .granted .byCommand] (afterGrant s a q.seat false)
      else markRefusal i s := by
  obtain ⟨rest, hq⟩ := List.head?_eq_some_iff.mp hq
  have mode : ((profileOf s a).floorMode == .direct) = false := beq_eq_false_iff_ne.mpr hm
  rw [nextKey, grantHead, priorityHeld_eq_false.mpr hh, mode, floorOf, hq]
  simp only [Bool.false_eq_true, if_false, grantOrReplace]
  by_cases hp : placeFree s a q.seat = true
  · rw [if_pos hp, if_pos hp]
    exact grantSeat_eq ..
  · rw [if_neg hp, if_neg hp]

end

end

/-! ### One event (R53 to R56) -/

/-- A frame with one event and the expected word: the event at its position, after the frame is counted. -/
theorem exec_oneEvent {k : TrunkId} {s : State} (hheld : s.held = false) (hp : (s.trunks.get k).power = .live)
    (hsup : (s.trunks.get k).supervision = some .locked) (hb : (s.trunks.get k).blockErrors < 6) (pos : Position)
    (kind : EventKind) (toggle : Bool) (audio : Tab 16 Audio) :
    exec (.uplinkFrame k
        { word := (nextWord (s.trunks.get k).predictor).2
          events := [{ position := pos.val + 1, kind := kind, toggle := toggle }], audio := audio }) s =
      .next (startTransmitters (acceptEvent k pos kind toggle (s.putTrunk k (matched audio (s.trunks.get k))))) := by
  have inside : 1 ≤ pos.val + 1 ∧ pos.val + 1 ≤ 40 := ⟨by omega, pos.isLt⟩
  have event (u : State) : uplinkEvent k u { position := pos.val + 1, kind := kind, toggle := toggle } =
      acceptEvent k pos kind toggle u := dif_pos inside
  refine (carryOut_eq hheld _).trans (congrArg (fun t => Host.Outcome.next (startTransmitters t)) ?_)
  rw [takeUplink_matched hp hsup hb]
  exact event _

/-! The validation of R59 and R60. -/

section
variable {s : State} {i : SeatId} {kind : EventKind}

theorem seatEvent_offline (hk : kind ≠ .hello) (h : (s.seats.get i).online = false) : seatEvent .current i kind s = s := by
  cases kind with
  | hello => exact absurd rfl hk
  | bye => simp [seatEvent, bye, h]
  | talk => simp [seatEvent, h]
  | priorityDown => simp [seatEvent, h]
  | priorityUp => simp [seatEvent, h]
  | nextKey => simp [seatEvent, h]

theorem seatEvent_notChair (hk : kind = .priorityDown ∨ kind = .priorityUp ∨ kind = .nextKey)
    (h : (s.seats.get i).chair = false) : seatEvent .current i kind s = s := by
  rcases hk with rfl | rfl | rfl <;> simp [seatEvent, h]

theorem seatEvent_disabled
    (hk : kind = .talk ∨ kind = .priorityDown ∧ (s.seats.get i).chair = true ∨ kind = .nextKey ∧ (s.seats.get i).chair = true)
    (hon : (s.seats.get i).online = true) (h : (s.seats.get i).enabled = false) :
    seatEvent .current i kind s = markRefusal i s := by
  rcases hk with rfl | ⟨rfl, hc⟩ | ⟨rfl, hc⟩
  · simp [seatEvent, hon, h]
  · simp [seatEvent, hon, h, hc]
  · simp [seatEvent, hon, h, hc]

theorem seatEvent_talk (hon : (s.seats.get i).online = true) (he : (s.seats.get i).enabled = true) :
    seatEvent .current i .talk s = talk .current (seatRoom s i) i s := by
  simp [seatEvent, hon, he]

variable (hon : (s.seats.get i).online = true) (hc : (s.seats.get i).chair = true)
include hon hc

theorem seatEvent_priorityDown (he : (s.seats.get i).enabled = true) :
    seatEvent .current i .priorityDown s = priorityDown .current (seatRoom s i) i s := by
  simp [seatEvent, hon, hc, he]

theorem seatEvent_priorityUp : seatEvent .current i .priorityUp s = priorityUp .current (seatRoom s i) i s := by
  simp [seatEvent, hon, hc]

theorem seatEvent_nextKey (he : (s.seats.get i).enabled = true) :
    seatEvent .current i .nextKey s = nextKey .current (seatRoom s i) i s := by
  simp [seatEvent, hon, hc, he]

end

theorem modTrunk_putTrunk (s : State) (k : TrunkId) (r : Trunk) (f : Trunk → Trunk) :
    (s.putTrunk k r).modTrunk k f = s.putTrunk k (f r) := by
  have trunks : (s.trunks.set k r).modify k f = s.trunks.set k (f r) := Tab.ext_get fun j => by
    by_cases hj : k = j
    · subst hj; simp
    · simp [Tab.get_modify_ne _ _ hj, Tab.get_set_ne _ _ hj]
  exact congrArg (fun t => { s with trunks := t }) trunks

/-- Settles O49: the frame's events are taken in order, each as if it came alone, and each by the table of its kind. -/
theorem eventsAccepted : Obligations.EventsAccepted := by
  refine ⟨events_order, events_split, ?_⟩
  intro k pos kind toggle audio s r p i x a f hheld hp hsup hb locked acked taken outcome becomes noted refused s1
  have outcome_eq : outcome = .next (startTransmitters (acceptEvent k pos kind toggle (s.putTrunk k locked))) :=
    exec_oneEvent hheld hp hsup hb pos kind toggle audio
  have ends {t : State} {l : List Sent} (h : acceptEvent k pos kind toggle (s.putTrunk k locked) = sendAll l t) :
      becomes t l := by
    have e := outcome_eq
    rw [h, startTransmitters_sendAll] at e
    exact e
  have trunk : (s.putTrunk k locked).trunks.get k = locked := putTrunk_get ..
  have seat : (s.putTrunk k locked).seats.get (seatAt k pos) = x := rfl
  have accepted (hnew : x.lastToggle ≠ some toggle) : acceptEvent k pos kind toggle (s.putTrunk k locked) =
      if locked.holding then
        if locked.intake.length < Config.intakeCap then
          s1.modTrunk k fun r => { r with intake := r.intake ++ [{ seat := i, kind := kind, toggle := toggle }] }
        else s.putTrunk k locked
      else seatEvent .current i kind s1 := by
    have stored : acknowledge k pos toggle (storeToggle i toggle (s.putTrunk k locked)) = s1 :=
      modTrunk_putTrunk (storeToggle i toggle s) k locked _
    rw [acceptEvent, seat, if_neg hnew, trunk, stored]
  refine ⟨fun hdup => ends (l := []) ?_, fun hnew hhold hroom => ends (l := []) ?_,
    fun hnew hhold hfull => ends (l := []) ?_, fun hnew hfree => ?_⟩
  · rw [acceptEvent, seat, if_pos hdup]
    exact modTrunk_putTrunk ..
  · rw [accepted hnew, if_pos hhold, if_pos (show locked.intake.length < Config.intakeCap from hroom)]
    exact modTrunk_putTrunk (storeToggle i toggle s) k acked _
  · rw [accepted hnew, if_pos hhold,
      if_neg (show ¬locked.intake.length < Config.intakeCap from Nat.not_lt.mpr hfull)]
    rfl
  have acts : outcome = .next (startTransmitters (seatEvent .current i kind s1)) := by
    rw [outcome_eq, accepted hnew, if_neg (by rw [show locked.holding = r.holding from rfl, hfree]; exact Bool.false_ne_true)]
  have ends {t : State} {l : List Sent} (h : seatEvent .current i kind s1 = sendAll l t) : becomes t l := by
    have e := acts
    rw [h, startTransmitters_sendAll] at e
    exact e
  have marked : markRefusal i s1 = taken refused noted := by
    rw [markRefusal, segmentOf_seatAt, positionOf_seatAt]
    exact modTrunk_putTrunk (storeToggle i toggle s) k acked _
  have turned (h : seatEvent .current i kind s1 = markRefusal i s1) : becomes (taken refused noted) [] :=
    ends (l := []) (h.trans marked)
  have record : s1.seats.get i = noted := Tab.get_set_self ..
  have room : seatRoom s1 i = a := by rw [seatRoom, segmentOf_seatAt]; rfl
  have online : (s1.seats.get i).online = x.online := by rw [record]
  have enabled : (s1.seats.get i).enabled = x.enabled := by rw [record]
  have chair : (s1.seats.get i).chair = x.chair := by rw [record]
  have seated (g : Seat → Seat) : s1.modSeat i g = taken acked (g noted) :=
    congrArg (fun t => { s1 with seats := t }) (Tab.ext_get fun j => by
      by_cases hj : i = j
      · subst hj; simp [s1, taken]
      · simp [s1, taken, Tab.get_modify_ne _ _ hj, Tab.get_set_ne _ _ hj])
  refine ⟨fun hk hoff => ends ?_, fun hk hoff => ends (l := []) ?_, fun hk hc => ends (l := []) ?_,
    fun hk hon hd => turned ?_, fun hon hn => ?_⟩
  · subst hk
    have off : (s1.seats.get i).online = false := online.trans hoff
    rw [seatEvent, hello, off, if_neg Bool.false_ne_true]
    rw [seated, seatNotice, segmentOf_seatAt, show (taken acked { noted with online := true }).seats.get i =
      { noted with online := true } from Tab.get_set_self ..]
    rfl
  · exact seatEvent_offline hk (online.trans hoff)
  · exact seatEvent_notChair hk (chair.trans hc)
  · refine seatEvent_disabled ?_ (online.trans hon) (enabled.trans hd)
    rw [chair]
    exact hk
  intro entry turnedBack gone
  have handled_of {u : State} {l : List Sent} {started : Bool} (before : List Holder)
      (h : seatEvent .current i kind s1 = endHandling .current a (!before.isEmpty) started (sendAll l u)) :
      handled before u a l started none outcome := by
    rw [acts, h]
    exact handled_endHandling (g := fun u => .next (startTransmitters u))
      (fun l t => congrArg _ (startTransmitters_sendAll l t)) before u a l started
  refine ⟨fun hk => handled_of f.holders ?_, fun hk => handled_of f.holders ?_, fun hk he => ?_, fun hk he hc => ?_,
    fun hk hc => ?_, fun hk he hc => ?_⟩
  · subst hk
    have h := hello_online (online.trans hon)
    rw [room, enabled, chair, segmentOf_seatAt] at h
    exact h
  · subst hk
    have h := bye_online (online.trans hon)
    have off := seatsOff_single (segmentOf_seatAt k pos) s1
    rw [seated, positionOf_seatAt] at off
    have off : seatsOff k [i] s1 = taken { acked with refusals := r.refusals.set pos false }
        { x with online := false, lastToggle := none } :=
      off.symm.trans (modTrunk_putTrunk { s with seats := s.seats.set i { x with online := false, lastToggle := none } } k acked _)
    rw [room, enabled, chair, segmentOf_seatAt, off] at h
    exact h
  · subst hk
    have h := seatEvent_talk (online.trans hon) (enabled.trans he)
    rw [room] at h
    refine ⟨fun e he hi => handled_of f.holders (h.trans (talk_closes (speakerOf_of_mem hn he hi))),
      fun hs hr => ends (h.trans (talk_cancels hs hr)), fun hs hr => ?_⟩
    intro granted
    rw [talk_new (s := s1) hs hr, chair] at h
    have opens (ht : seatEvent .current i .talk s1 = grantSeat .current a i .bySeat false s1) : granted :=
      ends (ht.trans (grantSeat_eq ..))
    refine ⟨fun hc hl => opens ?_, fun hc hl => turned ?_, fun hc => ?_⟩
    · rw [h, if_pos hc, if_pos (show listHasRoom (floorOf s1 a) = true from decide_eq_true hl)]
    · rw [h, if_pos hc, if_neg]
      rw [listHasRoom, decide_eq_true_eq]
      exact Nat.not_lt.mpr hl
    · intro mode free space queued
      rw [hc, if_neg Bool.false_ne_true] at h
      have place : placeFree s1 a i = true ∧ priorityHeld s1 a = false ↔ free := by
        rw [placeFree_iff, priorityHeld_eq_false, chair, hc]
        change (f.speakers.length < 10 ∧ (false = true ∨ openCount f < (s.profiles.get a).maxOpen)) ∧ f.holders = [] ↔ _
        simp only [Bool.false_eq_true, false_or, free]
        tauto
      have auto_test (ht : (placeFree s1 a i && (floorOf s1 a).queue.isEmpty && !priorityHeld s1 a) = true) :
          free ∧ f.queue = [] := by
        rw [Bool.and_eq_true, Bool.and_eq_true, Bool.not_eq_true', List.isEmpty_iff] at ht
        exact ⟨place.mp ⟨ht.1.1, ht.2⟩, ht.1.2⟩
      have enqueue (ht : seatEvent .current i .talk s1 = talkEnqueue a i s1) : (space → queued) ∧ (¬space → turnedBack) := by
        rw [talkEnqueue_eq] at ht
        exact ⟨fun hr => ends (ht.trans (if_pos hr)), fun hr => turned (ht.trans (if_neg hr))⟩
      refine ⟨fun hm hf => opens ?_, fun hm hf => turned ?_, fun hm hf hq => opens ?_, fun hm hf hr => ?_,
        fun hm hf hr => ?_, fun hm hr => ?_, fun hm hr => ?_⟩
      · obtain ⟨hp, hh⟩ := place.mpr hf
        rw [h, talkByMode_direct (s := s1) hm, hp, hh]; rfl
      · rw [h, talkByMode_direct (s := s1) hm, if_neg]
        rw [Bool.and_eq_true, Bool.not_eq_true']
        exact fun hp => hf (place.mp hp)
      · obtain ⟨hp, hh⟩ := place.mpr hf
        have empty : (floorOf s1 a).queue.isEmpty = true := List.isEmpty_iff.mpr hq
        rw [h, talkByMode_auto (s := s1) hm, hp, hh, empty]; rfl
      · refine (enqueue (h.trans ((talkByMode_auto (s := s1) hm).trans (if_neg ?_)))).1 hr
        exact fun ht => hf (auto_test ht)
      · refine (enqueue (h.trans ((talkByMode_auto (s := s1) hm).trans (if_neg ?_)))).2 hr
        exact fun ht => hf (auto_test ht)
      · exact (enqueue (h.trans (talkByMode_chair (s := s1) hm))).1 hr
      · exact (enqueue (h.trans (talkByMode_chair (s := s1) hm))).2 hr
  · subst hk
    have h := seatEvent_priorityDown (online.trans hon) (chair.trans hc) (enabled.trans he)
    rw [room] at h
    intro opened last
    refine ⟨fun hh => ends (l := []) ?_, fun hh hl => turned ?_, fun hh hl => ⟨fun hs => ends ?_, fun hs hl' => ends ?_,
      fun hs hl' hlast => turned ?_, fun e hs hl' hlast => ends ?_⟩⟩
    · rw [h, priorityDown, if_pos (show isHolder (floorOf s1 a) i = true from hh)]; rfl
    · have full : Config.holderCap ≤ (floorOf s1 a).holders.length := hl
      rw [h, priorityDown, if_neg (by rw [show isHolder (floorOf s1 a) i = false from hh]; exact Bool.false_ne_true), if_pos full]
    · exact h.trans (priorityDown_speaking hh hl hs)
    · exact h.trans (priorityDown_opens hh hl hs hl')
    · exact h.trans (priorityDown_full hh hl hs hl' hlast)
    · exact h.trans (priorityDown_bumps hh hl hs hl' hlast hn)
  · subst hk
    have h := seatEvent_priorityUp (online.trans hon) (chair.trans hc)
    rw [room] at h
    have held (hh : isHolder f i = true) : (!f.holders.isEmpty) = true := by
      obtain ⟨x, hx, -⟩ := List.any_eq_true.mp hh
      cases hf : f.holders with
      | nil => rw [hf] at hx; cases hx
      | cons y l => rfl
    refine ⟨fun hh => ends (l := []) (h.trans (priorityUp_idle hh)), fun hh hb => ?_, fun e he hh hi hb => ?_⟩
    · have ho : openedByPriority f i = false := by
        rw [openedByPriority, Bool.eq_false_iff]
        intro h
        obtain ⟨e, he, heb⟩ := List.any_eq_true.mp h
        obtain ⟨hi, hbp⟩ := Bool.and_eq_true_iff.mp heb
        rw [hb e he (by simpa using hi)] at hbp
        exact Bool.false_ne_true hbp
      have left : holdLeft s1 a i =
          { s1 with floors := s.floors.set a { f with holders := f.holders.filter fun h => h.seat != i } } := rfl
      refine handled_of (l := []) f.holders ?_
      rw [held hh, sendAll_nil, ← left]
      exact h.trans (priorityUp_leaves hh ho)
    · refine handled_of f.holders ?_
      rw [held hh]
      exact h.trans (priorityUp_closes hh (speakerOf_of_mem hn he hi) hb)
  · subst hk
    have h := seatEvent_nextKey (online.trans hon) (chair.trans hc) (enabled.trans he)
    rw [room] at h
    refine ⟨fun hr => turned (h.trans (nextKey_refused hr)), fun q hh hm hq => ?_⟩
    intro place
    have h := h.trans (nextKey_head hh hm hq)
    have test : placeFree s1 a q.seat = true ↔ place := by
      have chair_q : (s1.seats.get q.seat).chair = (s.seats.get q.seat).chair := by
        by_cases hqi : i = q.seat
        · rw [← hqi, chair]
        · simp only [s1, taken, Tab.get_set_ne _ _ hqi]
      rw [placeFree_iff, chair_q]
    exact ⟨fun hp => ends (h.trans (if_pos (test.mpr hp))), fun hp => turned (h.trans (if_neg (mt test.mp hp)))⟩

end Sys2Proof.Machine
end


section
/-! What an event may change of a trunk record, and the events that leave floors, release sets and channels alone. -/

namespace Sys2Proof.Machine
open Sys2Proof.Safety

/-! ### Trunk records (R32, R44, R56) -/

/-- A change of the record of trunk `k` that keeps it in order and holds no event of another trunk's seat. -/
structure TrunkMove (k : TrunkId) (r r' : Trunk) : Prop where
  ok : trunkOk r → trunkOk r'
  intake : ∀ e ∈ r'.intake, e ∈ r.intake ∨ segmentOf e.seat = k

section
variable {k : TrunkId} {r r' r'' : Trunk}

theorem TrunkMove.refl (r : Trunk) : TrunkMove k r r :=
  ⟨id, fun _ => .inl⟩

theorem TrunkMove.trans (h : TrunkMove k r r') (h' : TrunkMove k r' r'') : TrunkMove k r r'' where
  ok := h'.ok ∘ h.ok
  intake e he := (h'.intake e he).elim (h.intake e) .inr

/-- A change that keeps the intake queue. -/
theorem TrunkMove.of_ok (h : trunkOk r → trunkOk r') (hi : r'.intake = r.intake) : TrunkMove k r r' :=
  ⟨h, fun _ he => .inl (hi ▸ he)⟩

/-- Only channels and refusal marks differ. -/
theorem TrunkMove.of_floor (h : r' = { r with channels := r'.channels, refusals := r'.refusals }) : TrunkMove k r r' := by
  rw [h]
  exact ⟨id, fun _ => .inl⟩

/-- A trunk that starts to hold (R56). -/
theorem TrunkMove.of_holding (h : r' = { r with holding := r'.holding }) (hh : r'.holding = false → r.holding = false) :
    TrunkMove k r r' := by
  rw [h]
  refine .of_ok ?_ rfl
  rintro ⟨live, warming, link, locked, hold, count, confirm, pos, errors, cap, kept⟩
  exact ⟨live, warming, link, locked, hold, count, confirm, pos, errors, cap, fun h => kept (hh h)⟩

theorem leaveLocked_ok (now : Clock) (hold : Nat) (h : r.supervision = some .locked) (hr : trunkOk r) :
    trunkOk (leaveLocked now hold r) := by
  obtain ⟨live, warming, link, locked, holds, count, confirm, pos, errors, cap, kept⟩ := hr
  simp_all [trunkOk, leaveLocked]

/-- A trunk in CONFIRM or HUNT that goes on in HUNT (R39, R40, R42). -/
theorem hunting_ok (h : r.supervision = some .hunt ∨ r.supervision = some .confirm) (hr : trunkOk r) :
    trunkOk { r with supervision := some .hunt } := by
  obtain ⟨live, warming, link, locked, holds, count, confirm, pos, errors, cap, kept⟩ := hr
  rcases h with h | h <;> simp_all [trunkOk]

theorem huntWord_ok (w : BitVec 16) (h : r.supervision = some .hunt ∨ r.supervision = some .confirm) (hr : trunkOk r) :
    trunkOk (huntWord w r) := by
  unfold huntWord
  split
  · exact hunting_ok h hr
  · obtain ⟨live, warming, link, locked, holds, count, confirm, pos, errors, cap, kept⟩ := hr
    rcases h with h | h <;> simp_all [trunkOk]

theorem confirmWord_ok (w : BitVec 16) (h : r.supervision = some .confirm) (hr : trunkOk r) : trunkOk (confirmWord w r) := by
  unfold confirmWord
  dsimp only
  split
  · obtain ⟨live, warming, link, locked, holds, count, confirm, pos, errors, cap, kept⟩ := hr
    have := confirm h
    split <;> simp_all [trunkOk, enterLocked] <;> omega
  · exact huntWord_ok (r := { r with predictor := (nextWord r.predictor).1 }) w (.inr h) hr

theorem lockedWord_ok (now : Clock) (hold : Nat) (word : Option (BitVec 16)) (h : r.supervision = some .locked)
    (hr : trunkOk r) : trunkOk (lockedWord now hold word r) := by
  unfold lockedWord
  extract_lets p errors blockErrors r1
  split
  · exact leaveLocked_ok (r := r1) now hold h hr
  · obtain ⟨live, warming, link, locked, holds, count, confirm, pos, errs, cap, kept⟩ := hr
    split
    · exact ⟨live, warming, link, locked, holds, count, confirm, Nat.zero_le _, Nat.zero_le _, cap, kept⟩
    · exact ⟨live, warming, link, locked, holds, count, confirm, by dsimp only; omega, by dsimp only; omega, cap, kept⟩

theorem supervise_ok (now : Clock) (hold : Nat) (word : Option (BitVec 16)) (hr : trunkOk r) :
    trunkOk (supervise now hold word r) := by
  unfold supervise
  split
  · next h => exact huntWord_ok _ (.inl h) hr
  · exact hr
  · next h => exact confirmWord_ok _ h hr
  · next h => exact hunting_ok (.inr h) hr
  · next h => exact lockedWord_ok _ _ _ h hr
  · exact hr

theorem supervise_intake (now : Clock) (hold : Nat) (word : Option (BitVec 16)) (r : Trunk) :
    (supervise now hold word r).intake = r.intake := by
  unfold supervise lockedWord confirmWord huntWord leaveLocked enterLocked
  dsimp only
  repeat' split
  all_goals rfl

theorem TrunkMove.supervised (now : Clock) (hold : Nat) (word : Option (BitVec 16)) (audio : Option (Tab 16 Audio))
    (r : Trunk) : TrunkMove k r { supervise now hold word r with audio := audio } :=
  .of_ok (fun h => supervise_ok now hold word h) (supervise_intake now hold word r)

/-- The end of the warming time (R34). -/
theorem TrunkMove.warmed (h : r.power = .warming) (hr' : r' =
    { r with
      power := .live
      warmDeadline := none
      supervision := some .hunt
      confirmCount := 0
      blockPos := 0
      blockErrors := 0 }) : TrunkMove k r r' := by
  subst hr'
  refine .of_ok ?_ rfl
  rintro ⟨live, warming, link, locked, holds, count, confirm, pos, errors, cap, kept⟩
  simp_all [trunkOk]

/-- A trunk switched ON (R33). -/
theorem TrunkMove.switchedOn (h : r.power = .unpowered) (d : Clock) :
    TrunkMove k r { r with power := .warming, warmDeadline := some d } := by
  refine .of_ok ?_ rfl
  rintro ⟨live, warming, link, locked, holds, count, confirm, pos, errors, cap, kept⟩
  simp_all [trunkOk]

/-- A trunk switched OFF that is WARMING, or whose link view is DOWN (R33, R35). -/
theorem TrunkMove.switchedOff (h : r.power = .warming ∨ r.linkUp = false) : TrunkMove k r (powerDown r) := by
  refine .of_ok ?_ rfl
  rintro ⟨live, warming, link, locked, holds, count, confirm, pos, errors, cap, kept⟩
  have down : r.linkUp = false := h.elim (fun hp => Bool.eq_false_iff.mpr fun hl => by simp_all) id
  simp_all [trunkOk, powerDown]

/-- A lost link: the hold ends, the link view is DOWN, and the intake queue is empty (R45). -/
theorem TrunkMove.linkLost (h : r.holdDeadline.isSome = true) :
    TrunkMove k r { r with holdDeadline := none, linkUp := false, intake := [] } := by
  refine ⟨?_, nofun⟩
  rintro ⟨live, warming, link, locked, holds, count, confirm, pos, errors, cap, kept⟩
  simp_all [trunkOk]

/-- A trunk switched OFF whose link view is UP (R35). -/
theorem TrunkMove.linkOff (r : Trunk) :
    TrunkMove k r { powerDown r with holdDeadline := none, linkUp := false, intake := [] } := by
  refine ⟨?_, nofun⟩
  rintro ⟨live, warming, link, locked, holds, count, confirm, pos, errors, cap, kept⟩
  simp_all [trunkOk, powerDown]

/-- TRUNK_RESTART in CONFIRM (R42). -/
theorem TrunkMove.restarted (h : r.supervision = some .confirm) :
    TrunkMove k r { r with supervision := some .hunt, confirmCount := 0 } := by
  refine .of_ok ?_ rfl
  rintro ⟨live, warming, link, locked, holds, count, confirm, pos, errors, cap, kept⟩
  simp_all [trunkOk]

/-- TRUNK_RESTART in LOCKED (R42). -/
theorem TrunkMove.unlocked (now : Clock) (hold : Nat) (h : r.supervision = some .locked) :
    TrunkMove k r (leaveLocked now hold r) :=
  .of_ok (leaveLocked_ok now hold h) rfl

/-- An event of the trunk's own seat is held (R56). -/
theorem TrunkMove.heldEvent {e : HeldEvent} (he : segmentOf e.seat = k) (hc : r.intake.length < Config.intakeCap)
    (hh : r.holding = true) : TrunkMove k r { r with intake := r.intake ++ [e] } where
  ok := by
    rintro ⟨live, warming, link, locked, holds, count, confirm, pos, errors, cap, kept⟩
    refine ⟨live, warming, link, locked, holds, count, confirm, pos, errors, ?_, fun h => ?_⟩
    · rw [List.length_append]
      exact hc
    · rw [hh] at h; cases h
  intake x hx := (List.mem_append.mp hx).imp id fun hx => by rw [List.mem_singleton.mp hx, he]

/-- A trunk stops holding, its queue replayed (R57). -/
theorem TrunkMove.replayed (r : Trunk) : TrunkMove k r { r with holding := false, intake := [] } := by
  refine ⟨?_, nofun⟩
  rintro ⟨live, warming, link, locked, holds, count, confirm, pos, errors, cap, kept⟩
  simp_all [trunkOk]

/-- The supply switch is held off (R197). -/
theorem TrunkMove.supplyOff (r : Trunk) : TrunkMove k r r.supplyOff := by
  refine .of_ok ?_ rfl
  rintro ⟨live, warming, link, locked, holds, count, confirm, pos, errors, cap, kept⟩
  simp_all [trunkOk, Trunk.supplyOff]

end

/-! ### What leaves the floor alone -/

/-- Floors, release sets, channels, stamps, the members of the rooms and the chairs stay, and every trunk record moves as
`TrunkMove` allows. -/
structure Idle (s t : State) : Prop where
  floors : t.floors = s.floors
  releases : ∀ a, (t.mixes.get a).release = (s.mixes.get a).release
  channels : ∀ k, (t.trunks.get k).channels = (s.trunks.get k).channels
  releaseCounter : t.releaseCounter = s.releaseCounter
  stampCounter : t.stampCounter = s.stampCounter
  clock : t.clock = s.clock
  members : ∀ a, membersOf t a = membersOf s a
  chairs : ∀ i, (t.seats.get i).chair = (s.seats.get i).chair
  trunks : ∀ k, TrunkMove k (s.trunks.get k) (t.trunks.get k)

theorem Idle.refl (s : State) : Idle s s :=
  ⟨rfl, fun _ => rfl, fun _ => rfl, rfl, rfl, rfl, fun _ => rfl, fun _ => rfl, fun _ => .refl _⟩

theorem Idle.trans {s t u : State} (h : Idle s t) (h' : Idle t u) : Idle s u where
  floors := h'.floors.trans h.floors
  releases a := (h'.releases a).trans (h.releases a)
  channels k := (h'.channels k).trans (h.channels k)
  releaseCounter := h'.releaseCounter.trans h.releaseCounter
  stampCounter := h'.stampCounter.trans h.stampCounter
  clock := h'.clock.trans h.clock
  members a := (h'.members a).trans (h.members a)
  chairs i := (h'.chairs i).trans (h.chairs i)
  trunks k := (h.trunks k).trans (h'.trunks k)

theorem Idle.foldl {α : Type} {f : State → α → State} (h : ∀ s x, Idle s (f s x)) (l : List α) (s : State) :
    Idle s (l.foldl f s) := by
  induction l generalizing s with
  | nil => exact .refl s
  | cons x l ih => exact (h s x).trans (ih _)

theorem Idle.roomOf {s t : State} (h : Idle s t) : roomOf t = roomOf s :=
  roomOf_congr h.members

theorem Idle.seatRoom {s t : State} (h : Idle s t) (i : SeatId) : seatRoom t i = seatRoom s i :=
  congrFun h.roomOf _

theorem notify_idle (ports : List Port) (body : NoticeBody) (s : State) : Idle s (notify ports body s) :=
  ⟨rfl, fun _ => rfl, fun _ => rfl, rfl, rfl, rfl, fun _ => rfl, fun _ => rfl, fun _ => .refl _⟩

theorem modPort_idle (p : Port) (f : PortRec → PortRec) (s : State) : Idle s (s.modPort p f) :=
  ⟨rfl, fun _ => rfl, fun _ => rfl, rfl, rfl, rfl, fun _ => rfl, fun _ => rfl, fun _ => .refl _⟩

theorem startTransmitters_idle (s : State) : Idle s (startTransmitters s) :=
  ⟨rfl, fun _ => rfl, fun _ => rfl, rfl, rfl, rfl, fun _ => rfl, fun _ => rfl, fun _ => .refl _⟩

theorem pending_idle (s : State) (l : List Instr) : Idle s { s with pending := l } :=
  ⟨rfl, fun _ => rfl, fun _ => rfl, rfl, rfl, rfl, fun _ => rfl, fun _ => rfl, fun _ => .refl _⟩

theorem sendAll_idle (sent : List Sent) (s : State) : Idle s (sendAll sent s) := by
  induction sent generalizing s with
  | nil => exact .refl s
  | cons n sent ih => exact (notify_idle n.1 n.2 s).trans (ih _)

theorem modTrunk_idle {k : TrunkId} {f : Trunk → Trunk} {s : State}
    (h : TrunkMove k (s.trunks.get k) (f (s.trunks.get k)))
    (hc : (f (s.trunks.get k)).channels = (s.trunks.get k).channels) : Idle s (s.modTrunk k f) := by
  have other {j : TrunkId} (hj : j ≠ k) : (s.modTrunk k f).trunks.get j = s.trunks.get j := Tab.get_modify_ne _ _ hj.symm
  have self : (s.modTrunk k f).trunks.get k = f (s.trunks.get k) := Tab.get_modify_self ..
  refine ⟨rfl, fun _ => rfl, fun j => ?_, rfl, rfl, rfl, fun _ => rfl, fun _ => rfl, fun j => ?_⟩
  · by_cases hj : j = k
    · subst hj; rw [self, hc]
    · rw [other hj]
  · by_cases hj : j = k
    · subst hj; rw [self]; exact h
    · rw [other hj]; exact .refl _

theorem modMix_idle {a : Segment} {f : MixRoom → MixRoom} (h : ∀ m, (f m).release = m.release) (s : State) :
    Idle s (s.modMix a f) := by
  refine ⟨rfl, fun b => ?_, fun _ => rfl, rfl, rfl, rfl, fun _ => rfl, fun _ => rfl, fun _ => .refl _⟩
  rw [State.modMix_mixes, Tab.get_modify]
  split
  · exact h _
  · rfl

theorem modSeat_idle {i : SeatId} {f : Seat → Seat} (h : ∀ r, (f r).chair = r.chair) (s : State) :
    Idle s (s.modSeat i f) := by
  refine ⟨rfl, fun _ => rfl, fun _ => rfl, rfl, rfl, rfl, fun _ => rfl, fun j => ?_, fun _ => .refl _⟩
  rw [State.modSeat_seats, Tab.get_modify]
  split
  · exact h _
  · rfl

theorem BoothFrame.idle {s t : State} (h : BoothFrame s t) : Idle s t := by
  rw [h.rest]
  exact ⟨rfl, fun _ => rfl, fun _ => rfl, rfl, rfl, rfl, fun _ => rfl, fun _ => rfl, fun _ => .refl _⟩

/-- What the partition controller changes, where the rooms keep their members and no trunk stops holding. -/
theorem WallFrame.idle {s t : State} (h : WallFrame s t) (hm : ∀ a, membersOf t a = membersOf s a)
    (hk : ∀ k, (t.trunks.get k).holding = false → (s.trunks.get k).holding = false) : Idle s t where
  floors := by rw [h.rest]
  releases a := by rw [h.mixes a]
  channels k := by rw [h.trunks k]
  releaseCounter := by rw [h.rest]
  stampCounter := by rw [h.rest]
  clock := by rw [h.rest]
  members := hm
  chairs i := by rw [h.rest]
  trunks k := .of_holding (h.trunks k) (hk k)

/-! ### The partition controller -/

theorem membersOf_congr {s t : State} (h : ∀ a, (t.rooms.get a).map Room.members = (s.rooms.get a).map Room.members)
    (a : Segment) : membersOf t a = membersOf s a := by
  rw [membersOf_eq_getD, h, ← membersOf_eq_getD]

theorem drainBegunBut_idle (uncreated : List Segment) (s : State) (affected : List Segment) :
    Idle s (drainBegunBut uncreated s affected) where
  floors := rfl
  releases a := by
    simp only [drainBegunBut, Tab.get_ofFn]
    split <;> rfl
  channels k := by simp only [drainBegunBut, Tab.get_ofFn]
  releaseCounter := rfl
  stampCounter := rfl
  clock := rfl
  members := membersOf_congr (membersOf_drainBegunBut uncreated s affected)
  chairs _ := rfl
  trunks k := by
    simp only [drainBegunBut, Tab.get_ofFn]
    exact .of_holding rfl fun h => (Bool.or_eq_false_iff.mp h).1

theorem commitLoop_idle (s : State) : Idle s (commitLoop s) :=
  (commitLoop_wallFrame s).idle (fun _ => rfl) fun _ h => h

theorem putWall_idle (s : State) (w : WallId) (r : Wall) : Idle s (s.putWall w r) :=
  (modWall_wallFrame w (fun _ => r) s).idle (fun _ => rfl) fun _ h => h

theorem startTest_idle (uncreated : List Segment) (s : State) : Idle s (startTest uncreated s) := by
  by_cases hn : NothingToStart s
  · rw [startTest_nothing hn]
    exact .refl s
  · by_cases ha : affectedRooms s (effectiveMap s) = []
    · rw [startTest_loop hn ha]
      exact (commitLoop_idle s).trans (sendAll_idle ..)
    · rw [startTest_drain hn ha]
      exact (drainBegunBut_idle ..).trans (sendAll_idle ..)

theorem wallChanged_idle (s : State) (w : WallId) (r : Wall) : Idle s (wallChanged s w r).1 := by
  by_cases hk : r.effective = (s.walls.get w).effective ∨ NothingToStart (s.putWall w r)
  · rw [wallChanged_kept hk]
    exact putWall_idle ..
  · obtain ⟨he, hn⟩ := not_or.mp hk
    by_cases ha : affectedRooms (s.putWall w r) (effectiveMap (s.putWall w r)) = []
    · rw [wallChanged_loop he hn ha]
      exact (putWall_idle ..).trans (commitLoop_idle _)
    · rw [wallChanged_drain he hn ha]
      dsimp only
      rw [← drainBegunBut_nil]
      exact (putWall_idle ..).trans (drainBegunBut_idle ..)

theorem WallMoved.idle {s t : State} (h : WallMoved s t) : Idle s t := by
  rcases h with rfl | ⟨w, r, sent, -, rfl | rfl⟩
  · exact .refl _
  · exact (putWall_idle ..).trans (sendAll_idle ..)
  · exact (wallChanged_idle ..).trans (sendAll_idle ..)

theorem recomputeLead_idle (a : Segment) (s : State) : Idle s (recomputeLead a s) := by
  rw [recomputeLead_eq]
  refine .trans (t := leadElected s a) ?_ (sendAll_idle ..)
  refine ⟨rfl, fun _ => rfl, fun _ => rfl, rfl, rfl, rfl, membersOf_congr fun b => ?_, fun _ => rfl, fun _ => .refl _⟩
  simp only [leadElected, Tab.get_modify]
  split
  · cases s.rooms.get b <;> rfl
  · rfl

theorem cancelConsent_idle (w : WallId) (s : State) : Idle s (cancelConsent w s) := by
  unfold cancelConsent
  split
  · exact (putWall_idle ..).trans (notify_idle ..)
  · exact .refl s

theorem portLeft_idle (p : Port) (s : State) : Idle s (portLeft p s) :=
  (Idle.foldl (fun s w => cancelConsent_idle w s) _ s).trans (recomputeLead_idle ..)

theorem leaveByReset_idle (p : Port) (s : State) : Idle s (leaveByReset p s) := by
  unfold leaveByReset
  dsimp only
  split
  · exact (modPort_idle ..).trans (portLeft_idle ..)
  · exact modPort_idle ..

theorem reportReady_idle (a : Segment) (s : State) : Idle s (reportReady a s) :=
  (reportReady_wallFrame a s).idle
    (fun b => by
      unfold reportReady
      repeat' split
      all_goals rfl)
    fun k => by
      unfold reportReady
      repeat' split
      all_goals exact id

theorem becomeSilent_idle (a : Segment) (s : State) : Idle s (becomeSilent a s) := by
  unfold becomeSilent
  dsimp only
  split
  · exact (modMix_idle (f := fun m => { m with phase := .silent }) (fun _ => rfl) s).trans (reportReady_idle ..)
  · exact .refl s

/-! ### Trunks (R33 to R45) -/

theorem trunkNotice_idle (k : TrunkId) (s : State) : Idle s (trunkNotice k s) :=
  notify_idle ..

theorem supervise_channels (now : Clock) (hold : Nat) (word : Option (BitVec 16)) (r : Trunk) :
    (supervise now hold word r).channels = r.channels := by
  unfold supervise lockedWord confirmWord huntWord leaveLocked enterLocked
  dsimp only
  repeat' split
  all_goals rfl

theorem takeFrame_idle (k : TrunkId) (frame : Option UplinkFrame) (s : State) : Idle s (takeFrame k frame s) := by
  unfold takeFrame
  extract_lets before after audio s1
  have framed : Idle s s1 := modTrunk_idle (.supervised ..) (supervise_channels ..)
  split
  · exact framed
  · exact framed.trans (trunkNotice_idle ..)

theorem takeMissing_idle (k : TrunkId) (s : State) : Idle s (takeMissing k s) := by
  unfold takeMissing
  split
  · exact takeFrame_idle ..
  · exact .refl s

theorem acknowledge_idle (k : TrunkId) (pos : Position) (toggle : Bool) (s : State) :
    Idle s (acknowledge k pos toggle s) :=
  modTrunk_idle (.of_ok id rfl) rfl

theorem storeToggle_idle (i : SeatId) (toggle : Bool) (s : State) : Idle s (storeToggle i toggle s) :=
  modSeat_idle (f := fun r => { r with lastToggle := some toggle }) (fun _ => rfl) s

theorem markRefusal_idle (i : SeatId) (s : State) : Idle s (markRefusal i s) :=
  modTrunk_idle (.of_ok id rfl) rfl

theorem endWarming_idle (k : TrunkId) (s : State) : Idle s (endWarming k s) := by
  unfold endWarming
  dsimp only
  split
  · next hp _ =>
    split
    · exact (modTrunk_idle (.warmed hp rfl) rfl).trans (trunkNotice_idle ..)
    · exact .refl s
  · exact .refl s

theorem trunkOn_idle (k : TrunkId) (s : State) : Idle s (trunkOn k s) := by
  unfold trunkOn
  split
  · next hp => exact (modTrunk_idle (.switchedOn hp _) rfl).trans (trunkNotice_idle ..)
  · exact .refl s

end Sys2Proof.Machine
end


section
/-! What a condition must survive to be kept by the floor controller, and by every event but the commit. -/

namespace Sys2Proof.Machine
open Sys2Proof.Safety

/-! ### The guards of the floor controller -/

/-- The seat is of the room with anchor `a`. -/
def Resident (s : State) (a : Segment) (i : SeatId) : Prop :=
  a = seatRoom s i ∨ segmentOf i ∈ membersOf s a

/-- The seats that the floor controller grants in the room with anchor `a`: of the queue, or of the room without a speaker
entry (R71, R79, R82 to R84, R100). -/
def MayGrant (s : State) (a : Segment) (i : SeatId) : Prop :=
  (∃ q ∈ (floorOf s a).queue, q.seat = i) ∨ (Resident s a i ∧ hasSpeaker (floorOf s a) i = false)

/-- A condition, with the stamps `m` and `n` that may have been taken from the release and the request counter, that the
operations of the floor controller keep. `H a w` is what is left of it while an event of the room with anchor `a` is
handled, where priority was held before the event as `w` says. -/
structure FloorCondition (sets : Sets) (P : Nat → Nat → State → Prop) (H : Segment → Bool → Nat → Nat → State → Prop) :
    Prop where
  idle : ∀ {m n s t}, Idle s t → P m n s → P m n t
  waits : ∀ {a w m n s t}, Idle s t → H a w m n s → H a w m n t
  mono : ∀ {m n m' n' s}, m ≤ m' → n ≤ n' → P m n s → P m' n' s
  spares : ∀ {a w m n s}, H a w m n s → H a w (m + 1) n s
  opens : ∀ {a m n s}, P m n s → H a (priorityHeld s a) m n s
  closes : ∀ {a w m n s}, H a w m n s → (w = true → priorityHeld s a = true) → P m n s
  resumes : ∀ {a m n s}, H a true m n s → priorityHeld s a = false → P m n (resumeAll a s)
  removes : ∀ {a w m n s} i {reason}, keepsGain reason = true → H a w m n s →
    H a w (m + 1) n (removeSpeaker sets a i reason s)
  dequeues : ∀ {a w m n s} i, H a w m n s → H a w m n (takeRequest a i s)
  leaves : ∀ {a w m n s} i, H a w m n s →
    H a w m n (s.modFloor a fun f => { f with holders := f.holders.filter fun h => h.seat != i })
  drops : ∀ {w m n s i reason}, keepsGain reason = false → H (seatRoom s i) w m n s →
    H (seatRoom s i) w m n (dropSeat sets (seatRoom s i) i reason s)
  grants : ∀ {a m n s i} reason byPriority, MayGrant s a i → listHasRoom (floorOf s a) = true →
    ((s.seats.get i).chair = true ∨ priorityHeld s a = false) → P m n s → P m n (grantSeat sets a i reason byPriority s)
  enqueues : ∀ {a m n s i} reason, Resident s a i → hasSpeaker (floorOf s a) i = false →
    hasRequest (floorOf s a) i = false → P m n s → P m (n + 1) (enqueueSeat a i reason s)
  joins : ∀ {a m n s i}, (s.seats.get i).chair = true → isHolder (floorOf s a) i = false →
    (floorOf s a).holders.length < Config.holderCap → hasSpeaker (floorOf s a) i = true → P m n s → P m n (joinHold a i s)
  replaces : ∀ {a m n s i e} reason reason', keepsGain reason = true → priorityHeld s a = false → MayGrant s a i →
    e ∈ (floorOf s a).speakers → e.chairAtGrant = false → P m n s →
    P (m + 1) n (grantSeat sets a i reason' false (removeSpeaker sets a e.seat reason s))
  bumps : ∀ {m n s i e}, (s.seats.get i).chair = true → isHolder (floorOf s (seatRoom s i)) i = false →
    (floorOf s (seatRoom s i)).holders.length < Config.holderCap → hasSpeaker (floorOf s (seatRoom s i)) i = false →
    e ∈ (floorOf s (seatRoom s i)).speakers → e.chairAtGrant = false → P m n s →
    P (m + 1) n (joinHold (seatRoom s i) i (grantSeat sets (seatRoom s i) i .bySeat true
      (removeSpeaker sets (seatRoom s i) e.seat .priorityBump s)))

theorem takeRequest_holders (a b : Segment) (i : SeatId) (s : State) :
    ((takeRequest a i s).floors.get b).holders = (s.floors.get b).holders := by
  unfold takeRequest
  split
  · rw [State.setPoolFree_floors, State.modFloor_floors, Tab.get_modify]
    split <;> rfl
  · rfl

theorem priorityHeld_takeRequest (a b : Segment) (i : SeatId) (s : State) :
    priorityHeld (takeRequest a i s) b = priorityHeld s b := by
  rw [priorityHeld, floorOf, takeRequest_holders, ← floorOf, ← priorityHeld]

theorem queue_resident {s : State} {a : Segment} {q : Request} {rest : List Request} (h : (floorOf s a).queue = q :: rest) :
    MayGrant s a q.seat :=
  .inl ⟨q, by rw [h]; exact List.mem_cons_self, rfl⟩

theorem priorityHeld_of_isHolder {s : State} {a : Segment} {i : SeatId} (h : isHolder (floorOf s a) i = true) :
    priorityHeld s a = true := by
  obtain ⟨x, hx, -⟩ := List.any_eq_true.mp h
  unfold priorityHeld
  cases hh : (floorOf s a).holders with
  | nil => rw [hh] at hx; cases hx
  | cons => rfl

theorem listHasRoom_of_placeFree {s : State} {a : Segment} {i : SeatId} (h : placeFree s a i = true) :
    listHasRoom (floorOf s a) = true :=
  (Bool.and_eq_true_iff.mp h).1

theorem joins_guards {s : State} {a : Segment} {i : SeatId} {sets : Sets} {reason : FloorReason} (hh : isHolder (floorOf s a) i = false)
    (hc : (floorOf s a).holders.length < Config.holderCap) :
    isHolder (floorOf (grantSeat sets a i reason true s) a) i = false ∧
      (floorOf (grantSeat sets a i reason true s) a).holders.length < Config.holderCap ∧
      hasSpeaker (floorOf (grantSeat sets a i reason true s) a) i = true := by
  have floor : floorOf (grantSeat sets a i reason true s) a =
      { floorOf (takeRequest a i s) a with
        speakers := insertBy (speakerBefore s.clock) (newSpeaker s a i true) (floorOf (takeRequest a i s) a).speakers } :=
    Tab.get_modify_self ..
  rw [floor]
  simp only [isHolder, floorOf, takeRequest_holders]
  refine ⟨hh, hc, List.any_eq_true.mpr ⟨_, mem_insertBy.mpr (.inl rfl), by simp [newSpeaker]⟩⟩

theorem takeOffline_idle (i : SeatId) (s : State) :
    Idle s ((s.modSeat i fun r => { r with online := false, lastToggle := none }).modTrunk (segmentOf i) fun t =>
      { t with refusals := t.refusals.set (positionOf i) false }) :=
  (modSeat_idle (f := fun r => { r with online := false, lastToggle := none }) (fun _ => rfl) s).trans
    (modTrunk_idle (.of_ok id rfl) rfl)

section
variable {sets : Sets} {P : Nat → Nat → State → Prop} {H : Segment → Bool → Nat → Nat → State → Prop}
  (h : FloorCondition sets P H) {a : Segment} {w : Bool} {m n : Nat} {s : State}
include h

/-! ### Shared operations -/

theorem FloorCondition.takesRequest (i : SeatId) (hs : P m n s) : P m n (takeRequest a i s) :=
  h.closes (h.dequeues i (h.opens (a := a) hs)) fun hw => (priorityHeld_takeRequest ..).trans hw

theorem FloorCondition.removesRequest (i : SeatId) (reason : FloorReason) (hs : P m n s) :
    P m n (removeRequest a i reason s) := by
  have taken : P m n (floorNotice a i .dequeued reason (takeRequest a i s)) :=
    h.idle (notify_idle ..) (h.takesRequest i hs)
  unfold removeRequest
  split
  · dsimp only
    split
    · exact h.idle (markRefusal_idle ..) taken
    · exact taken
  · exact hs

theorem FloorCondition.removesRequests (seats : List SeatId) (reason : FloorReason) (hs : P m n s) :
    P m n (removeRequests a seats reason s) := by
  unfold removeRequests
  induction seats generalizing s with
  | nil => exact hs
  | cons i seats ih => exact ih (h.removesRequest i reason hs)

/-- A dequeue while an event is handled. -/
theorem FloorCondition.dequeueRequest (i : SeatId) (reason : FloorReason) (hs : H a w m n s) :
    H a w m n (removeRequest a i reason s) := by
  have taken : H a w m n (floorNotice a i .dequeued reason (takeRequest a i s)) :=
    h.waits (notify_idle ..) (h.dequeues i hs)
  unfold removeRequest
  split
  · dsimp only
    split
    · exact h.waits (markRefusal_idle ..) taken
    · exact taken
  · exact hs

theorem FloorCondition.dequeueRequests (seats : List SeatId) (reason : FloorReason) (hs : H a w m n s) :
    H a w m n (removeRequests a seats reason s) := by
  unfold removeRequests
  induction seats generalizing s with
  | nil => exact hs
  | cons i seats ih => exact ih (h.dequeueRequest i reason hs)

theorem FloorCondition.advance (k : Nat) (hs : P m n s) : P m n (advance sets k a s) := by
  induction k generalizing s with
  | zero => exact hs
  | succ k ih =>
    unfold Machine.advance
    split
    · exact hs
    · next q rest hq =>
      split
      · next hm =>
        simp only [mayAdvance, Bool.and_eq_true, Bool.not_eq_true'] at hm
        obtain ⟨⟨⟨-, room⟩, free⟩, -⟩ := hm
        exact ih (h.grants _ _ (queue_resident hq) room (.inr free) hs)
      · exact hs

theorem FloorCondition.autoAdvance (hs : P m n s) : P m n (autoAdvance sets a s) :=
  h.advance _ hs

/-- The end of the handling: where the last hold has gone, the suspended entries resume (R103). -/
theorem FloorCondition.endHandling (started : Bool) (hs : H a w m n s) : P m n (endHandling sets a w started s) := by
  unfold Machine.endHandling
  split
  · next hw =>
    simp only [Bool.and_eq_true, Bool.not_eq_true'] at hw
    obtain ⟨rfl, free⟩ := hw
    exact h.autoAdvance (h.idle (notify_idle ..) (h.resumes hs free))
  · next hw =>
    have done : P m n s := h.closes hs fun hw' => by simpa [hw'] using hw
    split
    · exact h.autoAdvance done
    · exact done

theorem FloorCondition.refuses (i : SeatId) (hs : P m n s) : P (m + 1) (n + 1) (markRefusal i s) :=
  h.mono (Nat.le_succ m) (Nat.le_succ n) (h.idle (markRefusal_idle ..) hs)

/-! ### Seat events (R71 to R74, R99 to R101) -/

section
variable {i : SeatId}

theorem FloorCondition.talkEnqueue (hr : Resident s a i) (hk : hasSpeaker (floorOf s a) i = false)
    (hq : hasRequest (floorOf s a) i = false) (hs : P m n s) : P (m + 1) (n + 1) (talkEnqueue a i s) := by
  unfold Machine.talkEnqueue
  split
  · exact h.refuses i hs
  · exact h.mono (Nat.le_succ m) le_rfl (h.enqueues _ hr hk hq hs)

theorem FloorCondition.talkByMode (hr : Resident s a i) (hk : hasSpeaker (floorOf s a) i = false)
    (hq : hasRequest (floorOf s a) i = false) (hs : P m n s) : P (m + 1) (n + 1) (talkByMode sets a i s) := by
  have opened (hf : placeFree s a i = true) (free : priorityHeld s a = false) :
      P (m + 1) (n + 1) (grantSeat sets a i .bySeat false s) :=
    h.mono (Nat.le_succ m) (Nat.le_succ n)
      (h.grants _ _ (.inr ⟨hr, hk⟩) (listHasRoom_of_placeFree hf) (.inr free) hs)
  unfold Machine.talkByMode
  split
  · split
    · next hc =>
      simp only [Bool.and_eq_true, Bool.not_eq_true'] at hc
      exact opened hc.1 hc.2
    · exact h.refuses i hs
  · split
    · next hc =>
      simp only [Bool.and_eq_true, Bool.not_eq_true'] at hc
      exact opened hc.1.1 hc.2
    · exact h.talkEnqueue hr hk hq hs
  · exact h.talkEnqueue hr hk hq hs

theorem FloorCondition.talk (hr : Resident s a i) (hs : P m n s) : P (m + 1) (n + 1) (talk sets a i s) := by
  unfold Machine.talk
  split
  · exact h.mono le_rfl (Nat.le_succ n) (h.endHandling true (h.removes i rfl (h.opens hs)))
  · next hk =>
    have hk := Bool.not_eq_true _ ▸ hk
    split
    · exact h.mono (Nat.le_succ m) (Nat.le_succ n) (h.removesRequest i _ hs)
    · next hq =>
      have hq := Bool.not_eq_true _ ▸ hq
      split
      · next hc =>
        split
        · next room =>
          exact h.mono (Nat.le_succ m) (Nat.le_succ n) (h.grants _ _ (.inr ⟨hr, hk⟩) room (.inl hc) hs)
        · exact h.refuses i hs
      · exact h.talkByMode hr hk hq hs

/-- What a grant answers keeps the condition. -/
def GrantKeeps (P : Nat → Nat → State → Prop) (m n : Nat) : GrantResult → Prop
  | .refused _ => True
  | .granted _ t => P (m + 1) n t

theorem FloorCondition.grantOrReplace (replace : Bool) (hg : MayGrant s a i) (free : priorityHeld s a = false)
    (hs : P m n s) : GrantKeeps P m n (grantOrReplace sets a i replace s) := by
  unfold Machine.grantOrReplace
  split
  · next hf =>
    exact h.mono (Nat.le_succ m) le_rfl (h.grants _ _ hg (listHasRoom_of_placeFree hf) (.inr free) hs)
  · split
    · split
      · next e he =>
        exact h.autoAdvance
          (h.replaces _ _ rfl free hg (List.mem_of_find?_eq_some he) (by simpa using List.find?_some he) hs)
      · trivial
    · trivial

theorem FloorCondition.grantHead (replace : Bool) (hs : P m n s) : GrantKeeps P m n (grantHead sets a replace s) := by
  unfold Machine.grantHead
  split
  · trivial
  · next free =>
    split
    · trivial
    · split
      · trivial
      · next q rest hq => exact h.grantOrReplace replace (queue_resident hq) (Bool.not_eq_true _ ▸ free) hs

theorem FloorCondition.nextKey (hs : P m n s) : P (m + 1) (n + 1) (nextKey sets a i s) := by
  have kept := h.grantHead (a := a) false hs
  unfold Machine.nextKey
  split
  · exact h.refuses i hs
  · next heq =>
    rw [heq] at kept
    exact h.mono le_rfl (Nat.le_succ n) kept

theorem FloorCondition.priorityDown (hchair : (s.seats.get i).chair = true) (hs : P m n s) :
    P (m + 1) (n + 1) (priorityDown sets (seatRoom s i) i s) := by
  have more {t : State} (ht : P m n t) : P (m + 1) (n + 1) t := h.mono (Nat.le_succ m) (Nat.le_succ n) ht
  unfold Machine.priorityDown
  dsimp only
  split
  · exact more hs
  · next hh =>
    have hh := Bool.not_eq_true _ ▸ hh
    split
    · exact h.refuses i hs
    · next hc =>
      have hc := Nat.lt_of_not_le hc
      split
      · next hk => exact more (h.joins hchair hh hc hk hs)
      · next hk =>
        have hk := Bool.not_eq_true _ ▸ hk
        split
        · next room =>
          obtain ⟨hh', hc', hk'⟩ := joins_guards (sets := sets) (reason := .bySeat) hh hc
          have chairs : ((grantSeat sets (seatRoom s i) i .bySeat true s).seats.get i).chair = true := by
            rw [(grantSeat_floorFrame ..).seats]
            exact hchair
          exact more (h.joins chairs hh' hc' hk' (h.grants _ _ (.inr ⟨.inl rfl, hk⟩) room (.inl hchair) hs))
        · split
          · next e he =>
            obtain ⟨hmem, hn⟩ := List.mem_filter.mp (List.mem_of_getLast? he)
            exact h.mono le_rfl (Nat.le_succ n)
              (h.autoAdvance (h.bumps hchair hh hc hk hmem (by simpa using hn) hs))
          · exact h.refuses i hs

theorem FloorCondition.leaveHold (hs : H a w m n s) : H a w (m + 1) n (leaveHold sets a i s) := by
  unfold Machine.leaveHold
  dsimp only
  split
  · exact h.removes i rfl (h.leaves i hs)
  · exact h.spares (h.leaves i hs)

theorem FloorCondition.priorityUp (hs : P m n s) : P (m + 1) (n + 1) (priorityUp sets a i s) := by
  unfold Machine.priorityUp
  split
  · next hh =>
    have opened : H a true m n s := priorityHeld_of_isHolder hh ▸ h.opens hs
    exact h.mono le_rfl (Nat.le_succ n) (h.endHandling _ (h.leaveHold opened))
  · exact h.mono (Nat.le_succ m) (Nat.le_succ n) hs

theorem FloorCondition.takeOffline {reason : FloorReason} (hr : keepsGain reason = false)
    (hs : H (seatRoom s i) w m n s) : H (seatRoom s i) w m n (takeOffline sets i reason s) := by
  have idle := takeOffline_idle i s
  rw [← idle.seatRoom i] at hs ⊢
  exact h.drops hr (h.waits idle hs)

theorem FloorCondition.hello (hs : P m n s) : P m n (hello sets i s) := by
  unfold Machine.hello
  split
  · exact h.endHandling _ (h.waits (notify_idle ..) (h.drops rfl (h.opens hs)))
  · exact h.idle ((modSeat_idle (f := fun r => { r with online := true }) (fun _ => rfl) s).trans (notify_idle ..)) hs

theorem FloorCondition.bye (hs : P m n s) : P m n (bye sets i s) := by
  unfold Machine.bye
  split
  · exact h.endHandling _ (h.waits (notify_idle ..) (h.takeOffline rfl (h.opens hs)))
  · exact hs

/-- An event of a seat takes at most one stamp of each kind. -/
theorem FloorCondition.seatEvent (kind : EventKind) (hs : P m n s) : P (m + 1) (n + 1) (seatEvent sets i kind s) := by
  have more {t : State} (ht : P m n t) : P (m + 1) (n + 1) t := h.mono (Nat.le_succ m) (Nat.le_succ n) ht
  cases kind with
  | hello => exact more (h.hello hs)
  | bye => exact more (h.bye hs)
  | talk =>
    unfold Machine.seatEvent
    dsimp only
    split
    · exact more hs
    · split
      · exact h.talk (.inl rfl) hs
      · exact h.refuses i hs
  | priorityDown =>
    unfold Machine.seatEvent
    dsimp only
    split
    · exact more hs
    · next hc =>
      split
      · exact h.priorityDown (by simp_all) hs
      · exact h.refuses i hs
  | priorityUp =>
    unfold Machine.seatEvent
    dsimp only
    split
    · exact more hs
    · exact h.priorityUp hs
  | nextKey =>
    unfold Machine.seatEvent
    dsimp only
    split
    · exact more hs
    · split
      · exact h.nextKey hs
      · exact h.refuses i hs

end

end

end Sys2Proof.Machine
end


section
/-! A condition that the floor controller, SET_SEAT, release ends and the frame event keep is kept by every event but
power-on reset and the commit. -/

namespace Sys2Proof.Machine
open Sys2Proof.Safety

/-! ### The stamps that an event may take -/

/-- An event of an uplink frame that is not discarded (R54). -/
def positionOk (e : UplinkEvent) : Bool :=
  decide (1 ≤ e.position ∧ e.position ≤ 40)

/-- At most `k` entries are removed or created by the event `c` in state `s`. -/
structure CostWithin (k : Nat) (c : Instr) (s : State) : Prop where
  one : 1 ≤ k
  speakers : ∀ a, (s.floors.get a).speakers.length ≤ k
  holders : ∀ a, (s.floors.get a).holders.length ≤ k
  events : ∀ j frame, c = .uplinkFrame j frame → frame.events.countP positionOk ≤ k

/-- A condition as in `FloorCondition` that the other events keep, too. -/
structure EventCondition (P : Nat → Nat → State → Prop) (H : Segment → Bool → Nat → Nat → State → Prop) : Prop extends
    FloorCondition .current P H where
  setSeat : ∀ {m n s i} enabled chair, hasSpeaker (floorOf s (seatRoom s i)) i = false → P m n s →
    P m n (s.modSeat i fun r => { r with enabled := enabled, chair := chair })
  releaseEnd : ∀ {m n s} i, P m n s → P m n (releaseEndOf (seatRoom s i) i s)
  frame : ∀ {m n s} levels inputs, P m n s → P m n (frameStep levels inputs s)

section
variable {P : Nat → Nat → State → Prop} {H : Segment → Bool → Nat → Nat → State → Prop} (h : EventCondition P H)
  {m n k : Nat} {s : State}
include h

/-! ### Uplink frames (R54 to R56) -/

theorem EventCondition.more {t : State} (hk : 1 ≤ k) (ht : P (m + 1) (n + 1) t) : P (m + k) (n + k) t :=
  h.mono (Nat.add_le_add_left hk m) (Nat.add_le_add_left hk n) ht

theorem EventCondition.spare {t : State} (ht : P m n t) : P (m + k) (n + k) t :=
  h.mono (Nat.le_add_right m k) (Nat.le_add_right n k) ht

theorem EventCondition.acceptEvent (j : TrunkId) (pos : Position) (kind : EventKind) (toggle : Bool) (hs : P m n s) :
    P (m + 1) (n + 1) (acceptEvent j pos kind toggle s) := by
  have noted (i : SeatId) : Idle s (acknowledge j pos toggle (storeToggle i toggle s)) :=
    (storeToggle_idle ..).trans (acknowledge_idle ..)
  unfold Machine.acceptEvent
  dsimp only
  split
  · exact h.spare (h.idle (acknowledge_idle ..) hs)
  · split
    · next hh =>
      split
      · next hc =>
        have record : (acknowledge j pos toggle (storeToggle (seatAt j pos) toggle s)).trunks.get j =
            { s.trunks.get j with acks := (s.trunks.get j).acks.set pos (some toggle) } := Tab.get_modify_self ..
        refine h.spare (h.idle ((noted _).trans (modTrunk_idle ?_ ?_)) hs)
        · rw [record]
          exact .heldEvent (segmentOf_seatAt j pos) hc hh
        · rw [record]
      · exact h.spare hs
    · exact h.seatEvent kind (h.idle (noted _) hs)

theorem EventCondition.uplinkEvents (j : TrunkId) (events : List UplinkEvent) (hs : P m n s) :
    P (m + events.countP positionOk) (n + events.countP positionOk) (events.foldl (uplinkEvent j) s) := by
  induction events generalizing m n s with
  | nil => exact hs
  | cons e events ih =>
    by_cases he : 1 ≤ e.position ∧ e.position ≤ 40
    · have ok : positionOk e = true := decide_eq_true he
      have step : P (m + 1) (n + 1) (uplinkEvent j s e) := by
        rw [uplinkEvent, dif_pos he]
        exact h.acceptEvent j _ e.kind e.toggle hs
      rw [List.countP_cons_of_pos ok, ← Nat.add_assoc, Nat.add_right_comm m, ← Nat.add_assoc, Nat.add_right_comm n]
      exact ih step
    · have ok : ¬positionOk e = true := fun hp => he (of_decide_eq_true hp)
      rw [List.countP_cons_of_neg ok, List.foldl_cons, uplinkEvent, dif_neg he]
      exact ih hs

theorem EventCondition.takeUplink (j : TrunkId) {frame : UplinkFrame} (hk : frame.events.countP positionOk ≤ k)
    (hs : P m n s) : P (m + k) (n + k) (takeUplink j frame s) := by
  have framed : P m n (takeFrame j (some frame) s) := h.idle (takeFrame_idle ..) hs
  unfold Machine.takeUplink
  dsimp only
  split
  · split
    · have count : (eventsInOrder frame.events).countP positionOk = frame.events.countP positionOk :=
        (sortBy_perm _ _).countP_eq _
      refine h.mono ?_ ?_ (h.uplinkEvents j (eventsInOrder frame.events) framed)
      · exact Nat.add_le_add_left (count ▸ hk) m
      · exact Nat.add_le_add_left (count ▸ hk) n
    · exact h.spare framed
  · exact h.spare hs

/-! ### Link loss (R35, R45) -/

theorem takesOffline_stays {a : Segment} {w : Bool} {j : TrunkId} {reason : FloorReason} (hr : keepsGain reason = false)
    (seats : List SeatId) (hseats : ∀ i ∈ seats, segmentOf i = j) (ha : roomOf s j = a) (hs : H a w m n s) :
    H a w m n (seats.foldl (fun s i => takeOffline .current i reason s) s) := by
  induction seats generalizing s with
  | nil => exact hs
  | cons i seats ih =>
    have room : seatRoom s i = a := by rw [seatRoom, hseats i List.mem_cons_self, ha]
    have rooms : (takeOffline .current i reason s).rooms = s.rooms := by rw [(takeOffline_seatFrame ..).rest]
    refine ih (fun x hx => hseats x (List.mem_cons_of_mem i hx)) ((congrFun (roomOf_of_rooms rooms) j).trans ha) ?_
    rw [← room] at hs ⊢
    exact h.takeOffline hr hs

theorem EventCondition.loseLink {j : TrunkId} {reason : FloorReason} {change : Trunk → Trunk}
    (hr : keepsGain reason = false)
    (hc : TrunkMove j (s.trunks.get j) { change (s.trunks.get j) with holdDeadline := none, linkUp := false, intake := [] })
    (hch : (change (s.trunks.get j)).channels = (s.trunks.get j).channels)
    (hs : P m n s) : P m n (loseLink j reason change s) := by
  unfold Machine.loseLink takeSeatsOffline
  extract_lets a s1
  have lost : Idle s s1 := modTrunk_idle hc hch
  have offline := takesOffline_stays h (a := a) (w := priorityHeld s a) (m := m) (n := n) hr (onlineSeats s1 j)
    (fun i hi => by
      obtain ⟨pos, -, rfl⟩ := List.mem_map.mp (List.mem_filter.mp hi).1
      exact segmentOf_seatAt j pos)
    (congrFun lost.roomOf j) (h.waits lost (h.opens hs))
  exact h.endHandling _ (h.waits (trunkNotice_idle ..) offline)

theorem EventCondition.expireHold (j : TrunkId) (hs : P m n s) : P m n (expireHold j s) := by
  unfold Machine.expireHold
  split
  · next d hd =>
    split
    · exact h.loseLink rfl (.linkLost (by rw [hd]; rfl)) rfl hs
    · exact hs
  · exact hs

theorem EventCondition.trunkOff (j : TrunkId) (hs : P m n s) : P m n (trunkOff j s) := by
  have off (hp : (s.trunks.get j).power = .warming ∨ (s.trunks.get j).linkUp = false) :
      P m n (trunkNotice j (s.modTrunk j powerDown)) :=
    h.idle ((modTrunk_idle (.switchedOff hp) rfl).trans (trunkNotice_idle ..)) hs
  unfold Machine.trunkOff
  dsimp only
  split
  · exact hs
  · next hp => exact off (.inl hp)
  · split
    · exact h.loseLink rfl (.linkOff _) rfl hs
    · next hl => exact off (.inr (Bool.not_eq_true _ ▸ hl))

/-! ### Command rules -/

theorem EventCondition.leadRule {p : Port} {rule : Segment → State → Answer}
    (hr : P (m + k) (n + k) (rule (roomOf s p) s).state) (hs : P m n s) :
    P (m + k) (n + k) (leadCommand p rule s).state := by
  unfold leadCommand
  split
  · exact h.spare hs
  · split
    · exact h.spare hs
    · exact hr

omit h in
theorem trunkRule_keeps {p : Port} {trunk : Byte} {rule : TrunkId → State → Answer}
    (hr : ∀ j, P m n (rule j s).state) (hs : P m n s) : P m n (trunkCommand p trunk rule s).state := by
  unfold trunkCommand
  split
  · exact hs
  · split
    · exact hr _
    · exact hs

theorem EventCondition.grantRule {a : Segment} {r : GrantResult} (hk : 1 ≤ k) (hr : GrantKeeps P m n r) (hs : P m n s) :
    P (m + k) (n + k) (grantAnswer a s r).state := by
  cases r with
  | refused => exact h.spare hs
  | granted i t => exact h.more hk (h.mono le_rfl (Nat.le_succ n) hr)

theorem EventCondition.grantNamed {a : Segment} {i : SeatId} (replace : Bool) (hs : P m n s) :
    GrantKeeps P m n (grantNamed a i replace s) := by
  unfold Machine.grantNamed
  split
  · trivial
  · next free =>
    split
    · trivial
    · next hr =>
      split
      · trivial
      · next hk =>
        simp only [seatInRoom, Bool.not_eq_true', Bool.not_eq_false, Bool.and_eq_true] at hr
        exact h.grantOrReplace replace
          (.inr ⟨.inr (List.contains_iff_mem.mp hr.1.1), Bool.not_eq_true _ ▸ hk⟩) (Bool.not_eq_true _ ▸ free) hs

theorem EventCondition.setProfile (p : Port) (mode cap reqs : Byte) (speech low gain : Half) (hs : P m n s) :
    P m n (ruleSetProfile p mode cap reqs speech low gain s).state := by
  have stored (a : Segment) (profile : Profile) : P m n (s.setProfileOf a profile) :=
    h.idle (s := s) ⟨rfl, fun _ => rfl, fun _ => rfl, rfl, rfl, rfl, fun _ => rfl, fun _ => rfl, fun _ => .refl _⟩ hs
  have applied (a : Segment) (profile : Profile) : P m n (applyProfile a profile s) := by
    unfold applyProfile
    dsimp only
    split
    · split
      · exact stored a profile
      · exact h.removesRequests _ _ (stored a profile)
    · exact h.autoAdvance (stored a profile)
    · exact stored a profile
  unfold ruleSetProfile
  dsimp only
  repeat' split
  · exact hs
  · exact hs
  · exact hs
  · exact applied ..

theorem EventCondition.trunkPower (p : Port) (trunk switch : Byte) (hs : P m n s) :
    P m n (ruleTrunkPower p trunk switch s).state := by
  unfold ruleTrunkPower
  split
  · exact hs
  · refine trunkRule_keeps (fun j => ?_) hs
    dsimp only
    split
    · exact h.idle (trunkOn_idle ..) hs
    · exact h.trunkOff j hs

theorem EventCondition.trunkRestart (p : Port) (trunk : Byte) (hs : P m n s) :
    P m n (ruleTrunkRestart p trunk s).state := by
  refine trunkRule_keeps (fun j => ?_) hs
  split
  · next hl => exact h.idle ((modTrunk_idle (.unlocked _ _ hl) rfl).trans (trunkNotice_idle ..)) hs
  · next hc => exact h.idle (modTrunk_idle (.restarted hc) rfl) hs
  · exact hs
  · exact hs

theorem EventCondition.trunkTest (p : Port) (trunk : Byte) (hs : P m n s) : P m n (ruleTrunkTest p trunk s).state := by
  refine trunkRule_keeps (fun j => ?_) hs
  split
  · exact h.idle (modTrunk_idle (.of_ok id rfl) rfl) hs
  · exact hs

theorem EventCondition.snapshot (p : Port) (trunk : Byte) (hs : P m n s) : P m n (ruleSnapshot p trunk s).state :=
  trunkRule_keeps (fun _ => h.idle (modTrunk_idle (.of_ok id rfl) rfl) hs) hs

theorem EventCondition.seatRule (p : Port) (seat enabled chair : Byte) (hs : P m n s) :
    P m n (ruleSetSeat p seat enabled chair s).state := by
  unfold ruleSetSeat
  split
  · dsimp only
    split
    · exact hs
    · split
      · exact hs
      · split
        · exact hs
        · next hb =>
          simp only [Bool.or_eq_true, not_or, Bool.not_eq_true] at hb
          exact h.setSeat _ _ hb.1 hs
  · exact hs

theorem EventCondition.grantNextRule (p : Port) (replace : Byte) (hk : 1 ≤ k) (hs : P m n s) :
    P (m + k) (n + k) (ruleGrantNext p replace s).state := by
  unfold ruleGrantNext
  split
  · exact h.spare hs
  · exact h.leadRule (h.grantRule hk (h.grantHead _ hs) hs) hs

theorem EventCondition.grantCommand (p : Port) (seat replace : Byte) (hk : 1 ≤ k) (hs : P m n s) :
    P (m + k) (n + k) (ruleGrant p seat replace s).state := by
  unfold ruleGrant
  split
  · exact h.grantNextRule p replace hk hs
  · split
    · exact h.leadRule (h.grantRule hk (h.grantNamed _ hs) hs) hs
    · exact h.spare hs

theorem EventCondition.closeRule (p : Port) (seat : Byte) (hk : 1 ≤ k) (hs : P m n s) :
    P (m + k) (n + k) (ruleClose p seat s).state := by
  unfold ruleClose
  split
  · exact h.spare hs
  · next i _ =>
    refine h.leadRule ?_ hs
    split
    · exact h.mono (Nat.add_le_add_left hk m) (Nat.le_add_right n k) (h.endHandling true (h.removes i rfl (h.opens hs)))
    · exact h.spare hs

theorem EventCondition.denyRule (p : Port) (seat : Byte) (hs : P m n s) : P (m + k) (n + k) (ruleDeny p seat s).state := by
  unfold ruleDeny
  split
  · exact h.spare hs
  · refine h.leadRule ?_ hs
    split
    · exact h.spare (h.removesRequest _ _ hs)
    · exact h.spare hs

theorem EventCondition.enqueueRule (p : Port) (seat : Byte) (hk : 1 ≤ k) (hs : P m n s) :
    P (m + k) (n + k) (ruleEnqueue p seat s).state := by
  unfold ruleEnqueue
  split
  · exact h.spare hs
  · refine h.leadRule ?_ hs
    split
    · exact h.spare hs
    · split
      · exact h.spare hs
      · next hr =>
        split
        · exact h.spare hs
        · next hb =>
          split
          · exact h.spare hs
          · split
            · exact h.spare hs
            · simp only [seatInRoom, Bool.not_eq_true', Bool.not_eq_false, Bool.and_eq_true] at hr
              simp only [Bool.or_eq_true, not_or, Bool.not_eq_true] at hb
              exact h.mono (Nat.le_add_right m k) (Nat.add_le_add_left hk n)
                (h.autoAdvance (h.enqueues _ (.inr (List.contains_iff_mem.mp hr.1.1)) hb.1 hb.2 hs))

theorem EventCondition.removesAll {a : Segment} {w : Bool} {reason : FloorReason} (hr : keepsGain reason = true)
    (seats : List SeatId) (hs : H a w m n s) :
    H a w (m + seats.length) n (seats.foldl (fun s i => removeSpeaker .current a i reason s) s) := by
  induction seats generalizing m s with
  | nil => exact hs
  | cons i seats ih =>
    rw [List.length_cons, Nat.add_comm seats.length, ← Nat.add_assoc]
    exact ih (h.removes i hr hs)

theorem EventCondition.clearRule (p : Port) (selector : Byte) (hk : ∀ a, (s.floors.get a).speakers.length ≤ k)
    (hs : P m n s) : P (m + k) (n + k) (ruleClear p selector s).state := by
  unfold ruleClear
  split
  · exact h.spare hs
  · next speakers requests _ =>
    refine h.leadRule ?_ hs
    extract_lets s1 s2
    obtain ⟨c, hc, cleared⟩ : ∃ c ≤ k, H (roomOf s p) (priorityHeld s (roomOf s p)) (m + c) n s1 := by
      unfold s1
      split
      · refine ⟨_, ?_, h.removesAll rfl ((floorOf s (roomOf s p)).speakers.map Speaker.seat) (h.opens hs)⟩
        rw [List.length_map]
        exact hk _
      · exact ⟨0, Nat.zero_le k, h.opens hs⟩
    have emptied : H (roomOf s p) (priorityHeld s (roomOf s p)) (m + c) n s2 := by
      unfold s2
      split
      · exact h.dequeueRequests _ _ cleared
      · exact cleared
    exact h.mono (Nat.add_le_add_left hc m) (Nat.le_add_right n k) (h.endHandling _ emptied)

theorem EventCondition.leavesAll {a : Segment} {w : Bool} (seats : List SeatId) (hs : H a w m n s) :
    H a w (m + seats.length) n (leaveHolds a seats s) := by
  unfold leaveHolds
  induction seats generalizing m s with
  | nil => exact hs
  | cons i seats ih =>
    rw [List.length_cons, Nat.add_comm seats.length, ← Nat.add_assoc]
    exact ih (h.leaveHold hs)

omit h in
theorem cancelledHolders_held {s : State} {a : Segment} {target : Option SeatId} {i : SeatId} {rest : List SeatId}
    (hc : cancelledHolders (floorOf s a) target = i :: rest) :
    priorityHeld s a = true ∧ (i :: rest).length ≤ (floorOf s a).holders.length := by
  unfold cancelledHolders at hc
  split at hc
  · split at hc
    · next hh =>
      obtain ⟨rfl, rfl⟩ := List.cons.inj hc
      obtain ⟨x, hx, -⟩ := List.any_eq_true.mp hh
      exact ⟨priorityHeld_of_isHolder hh, List.length_pos_of_mem hx⟩
    · cases hc
  · cases hl : (floorOf s a).holders with
    | nil => rw [hl] at hc; cases hc
    | cons x l => exact ⟨by rw [priorityHeld, hl]; rfl, by rw [← hc, hl, List.length_map]⟩

theorem EventCondition.cancelRule (p : Port) (seat : Byte) (hk : ∀ a, (s.floors.get a).holders.length ≤ k)
    (hs : P m n s) : P (m + k) (n + k) (rulePriorityCancel p seat s).state := by
  unfold rulePriorityCancel
  split
  · exact h.spare hs
  · refine h.leadRule ?_ hs
    split
    · exact h.spare hs
    · next i rest hc =>
      obtain ⟨held, len⟩ := cancelledHolders_held hc
      have opened : H (roomOf s p) true m n s := held ▸ h.opens hs
      exact h.mono (Nat.add_le_add_left (len.trans (hk _)) m) (Nat.le_add_right n k)
        (h.endHandling _ (h.leavesAll (i :: rest) opened))

end

/-! ### Commands that leave the floor alone -/

theorem ruleAttach_idle (p : Port) (s : State) : Idle s (ruleAttach p s).state := by
  unfold ruleAttach
  dsimp only
  split
  · exact .refl s
  · exact (modPort_idle ..).trans (recomputeLead_idle ..)

theorem ruleDetach_idle (p : Port) (s : State) : Idle s (ruleDetach p s).state :=
  (modPort_idle ..).trans (portLeft_idle ..)

theorem ruleSetHall_idle (settle start hold : Half) (s : State) : Idle s (ruleSetHall settle start hold s).state := by
  have stored (x : HallSettings) : Idle s (s.setHallSettings x) :=
    ⟨rfl, fun _ => rfl, fun _ => rfl, rfl, rfl, rfl, fun _ => rfl, fun _ => rfl, fun _ => .refl _⟩
  exact (stored _).trans (notify_idle ..)

theorem ruleReadRoom_idle (p : Port) (room : Byte) (s : State) : Idle s (ruleReadRoom p room s).state := by
  unfold ruleReadRoom
  split
  · exact .refl s
  · split
    · exact .refl s
    · exact modMix_idle (f := fun m => { m with clip := false }) (fun _ => rfl) s

theorem leadCommand_idle {p : Port} {rule : Segment → State → Answer} {s : State}
    (h : Idle s (rule (roomOf s p) s).state) : Idle s (leadCommand p rule s).state := by
  unfold leadCommand
  repeat' split
  · exact .refl s
  · exact .refl s
  · exact h

theorem ownBooth_idle {a : Segment} {b : BoothId} {rule : State → Answer} {s : State} (h : Idle s (rule s).state) :
    Idle s (ownBooth a b rule s).state := by
  unfold ownBooth
  repeat' split
  · exact .refl s
  · exact .refl s
  · exact h

theorem modBooth_idle (b : BoothId) (f : Booth → Booth) (s : State) : Idle s (s.modBooth b f) :=
  ⟨rfl, fun _ => rfl, fun _ => rfl, rfl, rfl, rfl, fun _ => rfl, fun _ => rfl, fun _ => .refl _⟩

theorem ruleAssignBooth_idle (p : Port) (booth language slot : Byte) (s : State) :
    Idle s (ruleAssignBooth p booth language slot s).state := by
  unfold ruleAssignBooth
  repeat' split
  · exact .refl s
  · exact .refl s
  · refine leadCommand_idle ?_
    split
    · exact .refl s
    · exact (modBooth_idle ..).trans (runAllocator_boothFrame ..).idle

theorem releaseBoothOf_idle (a : Segment) (b : BoothId) (s : State) : Idle s (releaseBoothOf a b s) := by
  unfold releaseBoothOf
  extract_lets s1 s2 s3 s4
  have released : Idle s s1 := modBooth_idle ..
  have reverted : BoothFrame s1 s2 := revertRelays_boothFrame ..
  have freed : BoothFrame s2 s3 := .foldl (fun s k => releaseTapIf_boothFrame _ k s) _ _
  have noted : BoothFrame s3 s4 := notify_boothFrame ..
  exact released.trans (((reverted.trans freed).trans noted).trans (runAllocator_boothFrame ..)).idle

theorem ruleReleaseBooth_idle (p : Port) (booth : Byte) (s : State) : Idle s (ruleReleaseBooth p booth s).state := by
  unfold ruleReleaseBooth
  split
  · exact .refl s
  · next b _ =>
    refine leadCommand_idle (ownBooth_idle ?_)
    dsimp only
    exact releaseBoothOf_idle (roomOf s p) b s

theorem ruleSetRelay_idle (p : Port) (booth source : Byte) (s : State) :
    Idle s (ruleSetRelay p booth source s).state := by
  unfold ruleSetRelay
  split
  · refine leadCommand_idle (ownBooth_idle ?_)
    split
    · exact .refl s
    · dsimp only
      split
      · exact .refl s
      · exact (modBooth_idle ..).trans (notify_idle ..)
  · exact .refl s

theorem ruleSetPaGain_idle (p : Port) (segment : Byte) (gain : Half) (s : State) :
    Idle s (ruleSetPaGain p segment gain s).state := by
  unfold ruleSetPaGain
  repeat' split
  · exact .refl s
  · exact .refl s
  · exact ⟨rfl, fun _ => rfl, fun _ => rfl, rfl, rfl, rfl, fun _ => rfl, fun _ => rfl, fun _ => .refl _⟩

theorem ruleJoinTap_idle (p : Port) (tap kind number : Byte) (s : State) :
    Idle s (ruleJoinTap p tap kind number s).state := by
  unfold ruleJoinTap
  dsimp only
  repeat' split
  · exact .refl s
  · exact .refl s
  · exact .refl s
  · exact (setTapOf_boothFrame ..).idle
  · exact .refl s

theorem ruleLeaveTap_idle (p : Port) (tap : Byte) (s : State) : Idle s (ruleLeaveTap p tap s).state := by
  have freed (k : TapId) : Idle s (s.setTapOf k none) := (setTapOf_boothFrame ..).idle
  unfold ruleLeaveTap
  dsimp only
  repeat' split
  · exact .refl s
  · exact .refl s
  · exact .refl s
  · exact .refl s
  · exact freed _
  · exact (freed _).trans (notify_idle ..)

/-- A read answers from the state and leaves it as it is. -/
theorem ruleReads_idle (s : State) :
    (∀ x, Idle s (ruleReadWall x s).state) ∧ (∀ p x, Idle s (ruleReadProfile p x s).state) ∧
      (∀ x, Idle s (ruleReadTrunk x s).state) ∧ (∀ x, Idle s (ruleReadSeat x s).state) ∧
      (∀ p x y z w, Idle s (ruleReadFloor p x y z w s).state) ∧ (∀ x, Idle s (ruleReadBooth x s).state) ∧
      ∀ x, Idle s (ruleReadTap x s).state := by
  unfold ruleReadWall ruleReadProfile ruleReadTrunk ruleReadSeat ruleReadFloor ruleReadBooth ruleReadTap
  refine ⟨fun _ => ?_, fun _ _ => ?_, fun _ => ?_, fun _ => ?_, fun _ _ _ _ _ => ?_, fun _ => ?_, fun _ => ?_⟩
  all_goals
    repeat' split
    all_goals exact .refl s

/-! ### Every event but power-on reset and the commit -/

section
variable {P : Nat → Nat → State → Prop} {H : Segment → Bool → Nat → Nat → State → Prop} (h : EventCondition P H)
  {m n k : Nat} {s : State}
include h

theorem EventCondition.serve {p : Port} {tag : Byte} {read : Bool} {rule : State → Answer} (hs : P m n s)
    (taken : read = true ∨ isAttached s p = true → P (m + k) (n + k) (rule s).state) :
    P (m + k) (n + k) (serve p tag read rule s) :=
  serve_related (R := fun _ t => P (m + k) (n + k) t) (fun _ => h.spare (h.idle (notify_idle ..) hs))
    (fun _ _ ht => h.idle (modPort_idle ..) ht) (h.spare hs) taken

theorem EventCondition.serveIdle {p : Port} {tag : Byte} {read : Bool} {rule : State → Answer} (hs : P m n s)
    (idle : read = true ∨ isAttached s p = true → Idle s (rule s).state) : P (m + k) (n + k) (Machine.serve p tag read rule s) :=
  h.serve hs fun ht => h.spare (h.idle (idle ht) hs)

theorem EventCondition.runCommand (c : Instr) (hone : 1 ≤ k) (hsp : ∀ a, (s.floors.get a).speakers.length ≤ k)
    (hho : ∀ a, (s.floors.get a).holders.length ≤ k) (hs : P m n s) : P (m + k) (n + k) (runCommand c s) := by
  obtain ⟨walls, profiles, trunks, seats, floors, booths, taps⟩ := ruleReads_idle s
  cases c with
  | attach p => exact h.serveIdle hs fun _ => ruleAttach_idle p s
  | detach p => exact h.serveIdle hs fun _ => ruleDetach_idle p s
  | setHall => exact h.serveIdle hs fun _ => ruleSetHall_idle ..
  | readHall | readClock => exact h.serveIdle hs fun _ => Idle.refl s
  | setWall p _ wall mode => exact h.serveIdle hs fun ha => (ruleSetWall_moves (ha.resolve_left nofun) wall mode).idle
  | readWall => exact h.serveIdle hs fun _ => walls _
  | readRoom => exact h.serveIdle hs fun _ => ruleReadRoom_idle ..
  | setProfile => exact h.serve hs fun _ => h.spare (h.setProfile _ _ _ _ _ _ _ hs)
  | readProfile => exact h.serveIdle hs fun _ => profiles _ _
  | trunkPower => exact h.serve hs fun _ => h.spare (h.trunkPower _ _ _ hs)
  | trunkRestart => exact h.serve hs fun _ => h.spare (h.trunkRestart _ _ hs)
  | trunkTest => exact h.serve hs fun _ => h.spare (h.trunkTest _ _ hs)
  | snapshot => exact h.serve hs fun _ => h.spare (h.snapshot _ _ hs)
  | readTrunk => exact h.serveIdle hs fun _ => trunks _
  | setSeat => exact h.serve hs fun _ => h.spare (h.seatRule _ _ _ _ hs)
  | readSeat => exact h.serveIdle hs fun _ => seats _
  | grant => exact h.serve hs fun _ => h.grantCommand _ _ _ hone hs
  | grantNext => exact h.serve hs fun _ => h.grantNextRule _ _ hone hs
  | close => exact h.serve hs fun _ => h.closeRule _ _ hone hs
  | deny => exact h.serve hs fun _ => h.denyRule _ _ hs
  | enqueue => exact h.serve hs fun _ => h.enqueueRule _ _ hone hs
  | clear => exact h.serve hs fun _ => h.clearRule _ _ hsp hs
  | priorityCancel => exact h.serve hs fun _ => h.cancelRule _ _ hho hs
  | readFloor => exact h.serveIdle hs fun _ => floors _ _ _ _ _
  | assignBooth => exact h.serveIdle hs fun _ => ruleAssignBooth_idle ..
  | releaseBooth => exact h.serveIdle hs fun _ => ruleReleaseBooth_idle ..
  | setRelay => exact h.serveIdle hs fun _ => ruleSetRelay_idle ..
  | readBooth => exact h.serveIdle hs fun _ => booths _
  | setPaGain => exact h.serveIdle hs fun _ => ruleSetPaGain_idle ..
  | joinTap => exact h.serveIdle hs fun _ => ruleJoinTap_idle ..
  | leaveTap => exact h.serveIdle hs fun _ => ruleLeaveTap_idle ..
  | readTap => exact h.serveIdle hs fun _ => taps _
  | _ => exact h.spare hs

theorem EventCondition.endMessage (p : Port) (hone : 1 ≤ k) (hsp : ∀ a, (s.floors.get a).speakers.length ≤ k)
    (hho : ∀ a, (s.floors.get a).holders.length ≤ k) (hs : P m n s) : P (m + k) (n + k) (endMessage p s) := by
  have cleared : P m n (s.modPort p PortRec.clearMessage) := h.idle (modPort_idle ..) hs
  unfold Machine.endMessage judgeMessage takeCommand
  dsimp only
  repeat' split
  · exact h.spare (h.idle (notify_idle ..) cleared)
  · exact h.runCommand _ hone hsp hho cleared
  · exact h.serveIdle cleared fun _ => .refl _
  · exact h.spare hs

theorem EventCondition.effect {c : Instr} (hc : ∀ order, c ≠ .commit order) (hk : CostWithin k c s) (hs : P m n s) :
    P (m + k) (n + k) (effectOf c s) := by
  have idle {t : State} (ht : Idle s t) : P (m + k) (n + k) t := h.spare (h.idle ht hs)
  have command (d : Instr) (hd : effectOf d s = Machine.runCommand d s) : P (m + k) (n + k) (effectOf d s) :=
    hd ▸ h.runCommand d hk.one hk.speakers hk.holders hs
  cases c with
  | commit order => exact absurd rfl (hc order)
  | powerOnReset => exact h.spare hs
  | frameEvent micros levels inputs =>
    refine h.spare (t := takeEdge micros levels inputs s) ?_
    unfold takeEdge
    split
    · exact hs
    · exact h.frame levels inputs hs
  | debounceEnd w => exact idle (endDebounce_moves w s).idle
  | consentExpiry w => exact idle (expireConsent_moves w s).idle
  | warmingExpiry j => exact idle (endWarming_idle j s)
  | holdExpiry j => exact h.spare (h.expireHold j hs)
  | deadlineExpiry i =>
    change P (m + k) (n + k) (endSpeech i s)
    unfold endSpeech expireDeadline
    dsimp only
    split
    · exact h.mono (Nat.add_le_add_left hk.one m) (Nat.le_add_right n k)
        (h.endHandling true (h.removes i rfl (h.opens hs)))
    · exact h.spare hs
  | releaseEnd i => exact h.spare (h.releaseEnd i hs)
  | readyReport a => exact idle (becomeSilent_idle a s)
  | uplinkFrame j frame => exact h.takeUplink j (hk.events j frame rfl) hs
  | missingFrame j => exact idle (takeMissing_idle j s)
  | messageArrival p => exact h.endMessage p hk.one hk.speakers hk.holders hs
  | portReset p => exact idle (leaveByReset_idle p s)
  | messageSent p => exact idle (modPort_idle ..)
  | startBit p => exact idle (modPort_idle ..)
  | characterComplete p => exact idle (modPort_idle ..)
  | lineHighInLowWait p => exact idle (modPort_idle ..)
  | breakWaitEnd p => exact idle (modPort_idle ..)
  | _ => exact command _ rfl

theorem EventCondition.exec {c : Instr} {t : State} (hold : ∀ {s}, P m n s → P m n (holdReset s))
    (powerOn : ∀ levels, P m n (State.powerOn levels)) (hk : CostWithin k c s)
    (commit : ∀ order, P (m + k) (n + k) (takeCommit order s)) (hs : P m n s) (ht : exec c s = .next t) :
    P (m + k) (n + k) t := by
  by_cases hc : ∀ x, c ≠ .powerOnReset x
  · cases hheld : s.held with
    | true => rw [exec_held hc hheld] at ht; exact Host.Outcome.next.inj ht ▸ h.spare hs
    | false =>
      rw [exec_eq_next hc hheld] at ht
      refine Host.Outcome.next.inj ht ▸ h.idle (startTransmitters_idle _) ?_
      by_cases hcommit : ∃ order, c = .commit order
      · obtain ⟨order, rfl⟩ := hcommit
        exact commit order
      · exact h.effect (fun order he => hcommit ⟨order, he⟩) hk hs
  · push Not at hc
    obtain ⟨levels, rfl⟩ := hc
    cases levels with
    | none => exact Host.Outcome.next.inj ht ▸ h.spare (hold hs)
    | some high => exact Host.Outcome.next.inj ht ▸ h.spare (h.idle (pending_idle _ _) (powerOn high))

/-- A step keeps what every event keeps, a commit included. -/
theorem EventCondition.step {t : State} (hold : ∀ {s}, P m n s → P m n (holdReset s))
    (powerOn : ∀ levels, P m n (State.powerOn levels)) (hk : ∀ c ∈ s.pending.head?, CostWithin k c s)
    (commit : ∀ order l, P (m + k) (n + k) (takeCommit order { s with pending := l })) (hs : P m n s)
    (ht : step s = .next t) : P (m + k) (n + k) t := by
  unfold Machine.step at ht
  split at ht
  · exact Host.Outcome.next.inj ht ▸ h.spare hs
  · next c l hl =>
    obtain ⟨one, speakers, holders, events⟩ := hk c (by rw [hl]; rfl)
    exact h.exec (s := { s with pending := l }) hold powerOn ⟨one, speakers, holders, events⟩ (fun order => commit order l)
      (h.idle (pending_idle s l) hs) ht

end

/-! ### Conditions that do not count stamps -/

/-- The events of an uplink frame; none for another event. -/
def eventsOf : Instr → List UplinkEvent
  | .uplinkFrame _ frame => frame.events
  | _ => []

/-- Every event has a bound on the entries it removes or creates. -/
theorem exists_cost (c : Instr) (s : State) : ∃ k, CostWithin k c s := by
  have bound (f : Floor → Nat) (a : Segment) : f (s.floors.get a) ≤ (allSegments.map fun a => f (s.floors.get a)).sum :=
    List.single_le_sum (fun _ _ => Nat.zero_le _) _ (List.mem_map.mpr ⟨a, List.mem_finRange a, rfl⟩)
  refine ⟨1 + (allSegments.map fun a => (s.floors.get a).speakers.length).sum +
    (allSegments.map fun a => (s.floors.get a).holders.length).sum + (eventsOf c).length,
    by omega, fun a => ?_, fun a => ?_, fun j frame he => ?_⟩
  · have := bound (fun f => f.speakers.length) a
    omega
  · have := bound (fun f => f.holders.length) a
    omega
  · subst he
    have := List.countP_le_length (p := positionOk) (l := frame.events)
    simp only [eventsOf]
    omega

theorem EventCondition.keeps {Q : State → Prop} {H : Segment → Bool → Nat → Nat → State → Prop}
    (h : EventCondition (fun _ _ => Q) H) {s t : State} (hold : ∀ {s}, Q s → Q (holdReset s))
    (powerOn : ∀ levels, Q (State.powerOn levels))
    (commit : ∀ order l, Q (takeCommit order { s with pending := l })) (hs : Q s) (ht : Machine.step s = .next t) : Q t := by
  obtain ⟨k, hk⟩ : ∃ k, ∀ c ∈ s.pending.head?, CostWithin k c s := by
    cases hp : s.pending.head? with
    | none => exact ⟨0, nofun⟩
    | some c =>
      obtain ⟨k, hk⟩ := exists_cost c s
      exact ⟨k, fun _ hc => Option.some.inj hc ▸ hk⟩
  exact h.step (m := 0) (n := 0) hold powerOn hk commit hs ht

end Sys2Proof.Machine
end


section
/-! Trunk records stay in order, and intake queues hold events of the trunk's own seats (R32, R44, R54, R56). -/

namespace Sys2Proof.Machine
open Sys2Proof.Safety

/-- Every trunk record moves as `TrunkMove` allows. -/
def TrunksMove (s t : State) : Prop :=
  ∀ k, TrunkMove k (s.trunks.get k) (t.trunks.get k)

theorem TrunksMove.refl (s : State) : TrunksMove s s :=
  fun _ => .refl _

theorem TrunksMove.trans {s t u : State} (h : TrunksMove s t) (h' : TrunksMove t u) : TrunksMove s u :=
  fun k => (h k).trans (h' k)

theorem TrunksMove.foldl {α : Type} {f : State → α → State} (h : ∀ s x, TrunksMove s (f s x)) (l : List α) (s : State) :
    TrunksMove s (l.foldl f s) := by
  induction l generalizing s with
  | nil => exact .refl s
  | cons x l ih => exact (h s x).trans (ih _)

theorem SeatFrame.trunksMove {s t : State} (h : SeatFrame s t) : TrunksMove s t :=
  fun k => .of_floor (h.trunks k)

theorem FloorFrame.trunksMove {s t : State} (h : FloorFrame s t) : TrunksMove s t :=
  h.toSeat.trunksMove

theorem TrunksMove.ok {s t : State} (h : TrunksMove s t) (hs : trunksOk s) : trunksOk t :=
  fun k => (h k).ok (hs k)

theorem TrunksMove.intakes {s t : State} (h : TrunksMove s t) (hs : intakesAtHome s) : intakesAtHome t :=
  fun k e he => ((h k).intake e he).elim (hs k e) id

/-- The floor controller changes channels and refusal marks alone, and other events as `Idle` says. -/
theorem trunksMove_floorCondition (s₀ : State) (sets : Sets) :
    FloorCondition sets (fun _ _ t => TrunksMove s₀ t) fun _ _ _ _ t => TrunksMove s₀ t where
  idle hi h := h.trans hi.trunks
  waits hi h := h.trans hi.trunks
  mono _ _ h := h
  spares h := h
  opens h := h
  closes h _ := h
  resumes h _ := h.trans (resumeAll_floorFrame ..).trunksMove
  removes _ _ _ h := h.trans (removeSpeaker_floorFrame ..).trunksMove
  dequeues _ h := h.trans (takeRequest_floorFrame ..).trunksMove
  leaves _ h := h.trans (modFloor_floorFrame ..).trunksMove
  drops _ h := h.trans (dropSeat_floorFrame ..).trunksMove
  grants _ _ _ _ _ h := h.trans (grantSeat_floorFrame ..).trunksMove
  enqueues _ _ _ _ h := h.trans (enqueueSeat_floorFrame ..).trunksMove
  joins _ _ _ _ h := h.trans (joinHold_floorFrame ..).trunksMove
  replaces _ _ _ _ _ _ _ h := h.trans ((removeSpeaker_floorFrame ..).trans (grantSeat_floorFrame ..)).trunksMove
  bumps _ _ _ _ _ _ h :=
    h.trans (((removeSpeaker_floorFrame ..).trans (grantSeat_floorFrame ..)).trans (joinHold_floorFrame ..)).trunksMove

theorem frameStep_trunksMove (levels : WallMap) (inputs : Tab 8 (Option Sys2Proof.BoothFrame)) (s : State) :
    TrunksMove s (frameStep levels inputs s) := fun k => by
  have h : (frameStep levels inputs s).trunks.get k =
      { afterDownlink (s.trunks.get k) with
        channels := withoutSeats (fun i => endsAtFrame s i) k (s.trunks.get k).channels } :=
    frameStep_trunk levels inputs s k
  rw [h]
  unfold afterDownlink
  split <;> exact .of_ok id rfl

theorem trunksMove_eventCondition (s₀ : State) :
    EventCondition (fun _ _ t => TrunksMove s₀ t) fun _ _ _ _ t => TrunksMove s₀ t where
  toFloorCondition := trunksMove_floorCondition s₀ .current
  setSeat _ _ _ h := h.trans fun _ => .refl _
  releaseEnd _ h := h.trans (releaseEndOf_floorFrame ..).trunksMove
  frame _ _ h := h.trans (frameStep_trunksMove _ _ _)

/-! ### The commit (R57) -/

theorem commitPartition_trunks (rp : Repartition) (s : State) : (commitPartition rp s).trunks = s.trunks := by
  obtain ⟨sent, h⟩ := commitPartition_eq rp s
  rw [h, sendAll_frame]
  dsimp only
  split <;> rfl

theorem commitMix_trunksMove (affected news : List Segment) (s : State) : TrunksMove s (commitMix affected news s) := by
  unfold commitMix
  extract_lets entries mixes s1
  have capped : TrunksMove (s.setMixes mixes) s1 := .foldl (fun s a => (capRelease_floorFrame a s).trunksMove) _ _
  have reported : TrunksMove s1 ((news.filter fun a => isDraining s a).foldl (fun s a => reportReady a s) s1) :=
    .foldl (fun s a => (reportReady_idle a s).trunks) _ _
  exact capped.trans reported

theorem commitTrunk_trunksMove (sets : Sets) (segments : List Segment) (k : TrunkId) (s : State) :
    TrunksMove s (commitTrunk sets segments k s) := by
  unfold commitTrunk
  split
  · refine .trans (t := s.modTrunk k fun r => { r with holding := false, intake := [] }) (fun j => ?_)
      (.foldl (fun s e => (seatEvent_seatFrame ..).trunksMove) _ _)
    rw [State.modTrunk_trunks, Tab.get_modify]
    split
    · exact .replayed _
    · exact .refl _
  · exact .refl s

theorem commitShare_trunksMove (sets : Sets) (old : State) (affected news : List Segment) (c : CommitShare) (s : State) :
    TrunksMove s (commitShare sets old affected news s c) := by
  cases c with
  | mix => exact commitMix_trunksMove affected news s
  | floor => exact (commitFloors_floorFrame ..).trunksMove
  | booths => exact (commitBooths_boothFrame ..).idle.trunks
  | taps => exact (commitTaps_boothFrame s).idle.trunks
  | trunk k => exact commitTrunk_trunksMove sets _ k s
  | startTest => exact (startTest_idle ..).trunks

theorem takeCommit_trunksMove (order : List CommitShare) (s : State) : TrunksMove s (takeCommit order s) := by
  have shares (old : State) (affected news : List Segment) (l : List CommitShare) (sets : Sets) (u : State) :
      TrunksMove u (takeShares old affected news sets u l) := by
    induction l generalizing sets u with
    | nil => exact .refl u
    | cons c l ih => exact (commitShare_trunksMove sets old affected news c u).trans (ih _ _)
  unfold takeCommit
  split
  · split
    · next rp _ _ =>
      exact .trans (t := commitPartition rp s) (fun k => by rw [commitPartition_trunks]; exact .refl _) (shares _ _ _ _ _ _)
    · exact .refl s
  · exact .refl s

theorem step_trunksMove {s t : State} (ht : step s = .next t) : TrunksMove s t :=
  (trunksMove_eventCondition s).keeps
    (fun h => h.trans fun k => by
      rw [holdReset, Tab.get_map]
      exact .supplyOff _)
    (fun levels k => ⟨fun _ => trunksOk_powerOn levels k, fun _ he => by simp [State.powerOn, Trunk.atReset] at he⟩)
    (fun order l => .trans (t := { s with pending := l }) (fun _ => .refl _) (takeCommit_trunksMove order _)) (.refl s) ht

/-- Settles O8: every event moves each trunk record as `TrunkMove` allows. -/
theorem stepKeepsTrunks : Obligations.StepKeepsTrunks :=
  fun _ _ hs ht => (step_trunksMove ht).ok hs

end Sys2Proof.Machine
end


section
/-! What the operations of the floor controller do to the floors, for rooms as they are and for rooms before a commit alike
(R75 to R78, R98, R100, R103). -/

namespace Sys2Proof.Machine
open Sys2Proof.Safety

/-! ### Floors -/

/-- The request entry of a seat leaves a floor. -/
def Floor.dequeued (i : SeatId) (f : Floor) : Floor :=
  { f with queue := f.queue.eraseP fun q => q.seat == i }

/-- A speaker entry joins a floor. -/
def Floor.joined (now : Clock) (e : Speaker) (f : Floor) : Floor :=
  { f with speakers := insertBy (speakerBefore now) e f.speakers }

/-- The hold of a seat leaves a floor. -/
def Floor.unheld (i : SeatId) (f : Floor) : Floor :=
  { f with holders := f.holders.filter fun h => h.seat != i }

/-- A hold joins a floor, and its non-chair OPEN entries are suspended. -/
def Floor.held (now : Clock) (i : SeatId) (f : Floor) : Floor :=
  { f with
    speakers := f.speakers.map (suspended now)
    holders := insertBy (holderBefore now) { seat := i, pressTime := now } f.holders }

/-- The SUSPENDED entries of a floor resume. -/
def Floor.resumed (now : Clock) (f : Floor) : Floor :=
  { f with speakers := f.speakers.map (Safety.resumed now) }

/-- The OPEN non-chair entries of a floor are suspended. -/
def Floor.suspended (now : Clock) (f : Floor) : Floor :=
  { f with speakers := f.speakers.map (Safety.suspended now) }

/-- Everything of a seat leaves a floor. -/
def Floor.dropped (i : SeatId) (f : Floor) : Floor :=
  ((f.silenced i).dequeued i).unheld i

/-- A speaker entry with the hold of its seat leaves a floor that has one. -/
def Floor.closed (i : SeatId) (f : Floor) : Floor :=
  if hasSpeaker f i then f.silenced i else f

theorem Floor.closed_of_hasSpeaker {i : SeatId} {f : Floor} (h : hasSpeaker f i = true) : f.closed i = f.silenced i :=
  if_pos h

/-- Without a speaker entry only the holds may differ. -/
theorem Floor.closed_speakers (i : SeatId) (f : Floor) : (f.closed i).speakers = f.speakers.eraseP fun x => x.seat == i := by
  unfold Floor.closed
  split
  · rfl
  · next h =>
    exact (List.eraseP_of_forall_not fun e he hi => h (List.any_eq_true.mpr ⟨e, he, hi⟩)).symm

theorem Floor.closed_queue (i : SeatId) (f : Floor) : (f.closed i).queue = f.queue := by
  unfold Floor.closed
  split <;> rfl

theorem Floor.closed_holders_sublist (i : SeatId) (f : Floor) : (f.closed i).holders.Sublist f.holders := by
  unfold Floor.closed
  split
  · exact List.filter_sublist
  · exact .refl _

/-! ### The operations -/

section
variable (sets : Sets) (a : Segment) (i : SeatId) (reason : FloorReason) (s : State)

theorem takeRequest_floors : (takeRequest a i s).floors = s.floors.modify a (Floor.dequeued i) := by
  rw [takeRequest_eq]
  rfl

theorem grantSeat_floors (byPriority : Bool) :
    (grantSeat sets a i reason byPriority s).floors =
      s.floors.modify a fun f => (f.dequeued i).joined s.clock (newSpeaker s a i byPriority) := by
  calc (grantSeat sets a i reason byPriority s).floors
      = (takeRequest a i s).floors.modify a (Floor.joined s.clock (newSpeaker s a i byPriority)) := rfl
    _ = _ := by rw [takeRequest_floors, Tab.modify_twice]

theorem foldl_freeChannel_floors (l : List SeatId) (s : State) :
    (l.foldl (fun t i => freeChannel i t) s).floors = s.floors := by
  rw [foldl_freeChannel]
  rfl

theorem addRelease_floors (gain : Nat) : (addRelease sets a i gain s).floors = s.floors := by
  unfold addRelease
  cases sets with
  | current =>
    dsimp only
    rw [capRelease_eq]
    rfl
  | before room =>
    dsimp only
    unfold capPart
    extract_lets part excess
    exact foldl_freeChannel_floors ..

theorem removeSpeaker_floors : (removeSpeaker sets a i reason s).floors = s.floors.modify a (Floor.closed i) := by
  cases he : speakerOf (s.floors.get a) i with
  | none =>
    have quiet : (s.floors.get a).closed i = s.floors.get a :=
      if_neg (by rw [hasSpeaker_eq_isSome, he]; simp)
    rw [removeSpeaker_none he, Tab.modify_of_fixed quiet]
  | some e =>
    have gone : (s.modFloor a fun f => f.silenced i).floors = s.floors.modify a (Floor.closed i) :=
      Tab.ext_get fun b => by
        rw [State.modFloor_floors, Tab.get_modify, Tab.get_modify]
        split
        · next hb => subst hb; rw [Floor.closed_of_hasSpeaker (by rw [hasSpeaker_eq_isSome, he]; rfl)]
        · rfl
    rw [← gone]
    unfold removeSpeaker
    rw [floorOf, he]
    dsimp only
    split
    · rw [addRelease_floors]
      rfl
    · rfl

theorem enqueueSeat_floors :
    (enqueueSeat a i reason s).floors =
      s.floors.modify a fun f => { f with queue := f.queue ++ [{ seat := i, stamp := s.stampCounter, returned := false }] } :=
  rfl

theorem joinHold_floors : (joinHold a i s).floors = s.floors.modify a (Floor.held s.clock i) := by
  rw [joinHold_eq, sendAll_floors]
  rfl

theorem resumeAll_floors : (resumeAll a s).floors = s.floors.modify a (Floor.resumed s.clock) := by
  rw [resumeAll_eq, sendAll_floors]
  rfl

theorem suspendAll_floors : (suspendAll a s).floors = s.floors.modify a (Floor.suspended s.clock) := by
  rw [suspendAll_eq, sendAll_floors]
  rfl

theorem removeRequest_floors : (removeRequest a i reason s).floors = s.floors.modify a (Floor.dequeued i) := by
  unfold removeRequest
  split
  · dsimp only
    split
    · exact takeRequest_floors a i s
    · exact takeRequest_floors a i s
  · next h =>
    refine (Tab.modify_of_fixed ?_).symm
    have kept : (s.floors.get a).queue.eraseP (fun q => q.seat == i) = (s.floors.get a).queue :=
      List.eraseP_of_forall_not fun q hq hi => h (List.any_eq_true.mpr ⟨q, hq, hi⟩)
    rw [Floor.dequeued, kept]

theorem dropSeat_floors : (dropSeat sets a i reason s).floors = s.floors.modify a (Floor.dropped i) := by
  have steps : (dropSeat sets a i reason s).floors =
      (removeRequest a i reason (removeSpeaker sets a i reason s)).floors.modify a (Floor.unheld i) := rfl
  rw [steps, removeRequest_floors, removeSpeaker_floors, Tab.modify_twice, Tab.modify_twice]
  refine congrArg (fun f => s.floors.modify a f) (funext fun f => ?_)
  simp only [Floor.dropped, Floor.unheld, Floor.dequeued, Floor.silenced, Floor.closed_speakers, Floor.closed_queue]
  unfold Floor.closed
  split
  · rfl
  · simp

end

/-! ### What the operations leave alone -/

theorem FloorFrame.clock {s t : State} (h : FloorFrame s t) : t.clock = s.clock := by
  rw [h.rest]

theorem FloorFrame.rooms {s t : State} (h : FloorFrame s t) : t.rooms = s.rooms := by
  rw [h.rest]

theorem FloorFrame.membersOf {s t : State} (h : FloorFrame s t) : membersOf t = membersOf s :=
  membersOf_of_rooms h.rooms

theorem FloorFrame.seatRoom {s t : State} (h : FloorFrame s t) : seatRoom t = seatRoom s := by
  funext i
  rw [Machine.seatRoom, roomOf_of_rooms h.rooms, ← Machine.seatRoom]

/-! ### The frame event -/

/-- A frame event computes levels and gains of the speaker entries, and leaves them otherwise as they are, in the order of
the new ages (R65, R143, R145). -/
theorem frameStep_speakers (levels : WallMap) (inputs : Tab 8 (Option Sys2Proof.BoothFrame)) (s : State) (a : Segment) :
    ∃ g : Speaker → Speaker, (∀ e, g e = { e with level := (g e).level, gain := (g e).gain }) ∧
      ((frameStep levels inputs s).floors.get a).speakers =
        (sortBy (speakerBefore (s.clock + 1)) (s.floors.get a).speakers).map g := by
  have sorted : ((sampled levels inputs s).floors.get a).speakers =
      sortBy (speakerBefore (s.clock + 1)) (s.floors.get a).speakers := by
    simp [sampled, takeTallies, sampleWalls, advanceClock]
  have computed : ((frameStep levels inputs s).floors.get a).speakers =
      ((roomsComputed inputs (sampled levels inputs s)).floors.get a).speakers := by
    have framed : (framedHall levels inputs s).floors = (roomsComputed inputs (sampled levels inputs s)).floors := by
      rw [framedHall_eq, computeRooms_rest]
      rfl
    have sent : (frameStep levels inputs s).floors = (framedHall levels inputs s).floors := by
      rw [frameStep_eq]
      generalize framedHall levels inputs s = u
      rfl
    rw [sent, framed]
  rw [computed, ← sorted]
  simp only [roomsComputed, Tab.get_ofFn]
  split
  · simp only [computeRoom, updateGains, updateLevels, List.map_map]
    exact ⟨_, fun _ => rfl, rfl⟩
  · exact ⟨id, fun _ => rfl, (List.map_id _).symm⟩

theorem frameStep_clock (levels : WallMap) (inputs : Tab 8 (Option Sys2Proof.BoothFrame)) (s : State) :
    (frameStep levels inputs s).clock = s.clock + 1 := by
  rw [frameStep_rest]
  rfl

theorem frameStep_seats (levels : WallMap) (inputs : Tab 8 (Option Sys2Proof.BoothFrame)) (s : State) :
    (frameStep levels inputs s).seats = s.seats := by
  rw [frameStep_rest]
  rfl

theorem frameStep_members (levels : WallMap) (inputs : Tab 8 (Option Sys2Proof.BoothFrame)) (s : State) :
    membersOf (frameStep levels inputs s) = membersOf s :=
  membersOf_of_rooms (by rw [frameStep_rest]; rfl)

end Sys2Proof.Machine
end


section
/-! A speaker entry is SUSPENDED exactly while priority is held in its room and it is no chair entry (R98, R103, R113). -/

namespace Sys2Proof.Machine
open Sys2Proof.Safety

/-! ### One floor -/

/-- Priority is held on a floor. -/
def Floor.isHeld (f : Floor) : Bool :=
  !f.holders.isEmpty

/-- The non-chair entries of a floor are SUSPENDED or OPEN, as `w` says, and its chair entries are OPEN. -/
def SuspendsAs (w : Bool) (f : Floor) : Prop :=
  ∀ e ∈ f.speakers, e.state = .suspended ↔ e.chairAtGrant = false ∧ w = true

theorem priorityOk_iff {s : State} : priorityOk s ↔ ∀ a, SuspendsAs (s.floors.get a).isHeld (s.floors.get a) := by
  have held (a : Segment) : (s.floors.get a).isHeld = true ↔ (s.floors.get a).holders ≠ [] := by simp [Floor.isHeld]
  simp only [priorityOk, SuspendsAs, held]

section
variable {w : Bool} {f g : Floor}

theorem SuspendsAs.of_subset (h : SuspendsAs w f) (hg : ∀ e ∈ g.speakers, e ∈ f.speakers) : SuspendsAs w g :=
  fun e he => h e (hg e he)

theorem SuspendsAs.closed (h : SuspendsAs w f) (i : SeatId) : SuspendsAs w (f.closed i) :=
  h.of_subset fun e he => by
    rw [Floor.closed_speakers] at he
    exact List.mem_of_mem_eraseP he

theorem SuspendsAs.joined (h : SuspendsAs w f) (now : Clock) {e : Speaker} (he : e.state = .opened)
    (hw : e.chairAtGrant = true ∨ w = false) : SuspendsAs w (f.joined now e) := by
  intro x hx
  rcases mem_insertBy.mp hx with rfl | hx
  · rcases hw with hw | hw <;> simp [he, hw]
  · exact h x hx

theorem suspended_state (now : Clock) {e : Speaker} (h : e.state = .suspended → e.chairAtGrant = false) :
    (suspended now e).state = .suspended ↔ (suspended now e).chairAtGrant = false ∧ true = true := by
  unfold suspended
  cases hs : e.state <;> cases hc : e.chairAtGrant <;> simp_all

theorem resumed_state (now : Clock) (e : Speaker) :
    (resumed now e).state = .suspended ↔ (resumed now e).chairAtGrant = false ∧ false = true := by
  unfold resumed
  cases hs : e.state <;> simp_all

/-- Where no chair entry is SUSPENDED, all the others can be. -/
theorem suspendsAs_suspended (now : Clock) (h : ∀ e ∈ f.speakers, e.state = .suspended → e.chairAtGrant = false) :
    SuspendsAs true (f.suspended now) := by
  intro x hx
  obtain ⟨e, he, rfl⟩ := List.mem_map.mp hx
  exact suspended_state now (h e he)

theorem suspendsAs_resumed (now : Clock) (f : Floor) : SuspendsAs false (f.resumed now) := by
  intro x hx
  obtain ⟨e, -, rfl⟩ := List.mem_map.mp hx
  exact resumed_state now e

theorem SuspendsAs.held (h : SuspendsAs w f) (now : Clock) (i : SeatId) : SuspendsAs true (f.held now i) :=
  suspendsAs_suspended now fun e he hs => ((h e he).mp hs).1

theorem isHeld_held (now : Clock) (i : SeatId) (f : Floor) : (f.held now i).isHeld = true := by
  have : (f.held now i).holders ≠ [] := List.ne_nil_of_length_pos (by simp [Floor.held])
  simpa [Floor.isHeld] using this

theorem isHeld_of_sublist (h : g.holders.Sublist f.holders) (hf : f.isHeld = false) : g.isHeld = false := by
  have : f.holders = [] := by simpa [Floor.isHeld] using hf
  rw [this] at h
  simp [Floor.isHeld, List.sublist_nil.mp h]

end

/-! ### The floor controller -/

/-- What is left of the condition while an event of the room with anchor `a` is handled. -/
structure PriorityHandled (a : Segment) (w : Bool) (s : State) : Prop where
  others : ∀ b, b ≠ a → SuspendsAs (s.floors.get b).isHeld (s.floors.get b)
  own : SuspendsAs w (s.floors.get a)
  free : w = false → (s.floors.get a).isHeld = false

section
variable {a : Segment} {w : Bool} {s t : State} {f : Floor → Floor}

theorem PriorityHandled.modify (h : PriorityHandled a w s) (ht : t.floors = s.floors.modify a f)
    (own : SuspendsAs w (s.floors.get a) → SuspendsAs w (f (s.floors.get a)))
    (held : (f (s.floors.get a)).holders.Sublist (s.floors.get a).holders) : PriorityHandled a w t where
  others b hb := by
    rw [ht, Tab.get_modify_ne _ _ (Ne.symm hb)]
    exact h.others b hb
  own := by
    rw [ht, Tab.get_modify_self]
    exact own h.own
  free hw := by
    rw [ht, Tab.get_modify_self]
    exact isHeld_of_sublist held (h.free hw)

/-- An operation that settles the floor of the room. -/
theorem PriorityHandled.settle (h : PriorityHandled a w s) (ht : t.floors = s.floors.modify a f)
    (own : SuspendsAs (f (s.floors.get a)).isHeld (f (s.floors.get a))) : priorityOk t := by
  refine priorityOk_iff.mpr fun b => ?_
  by_cases hb : b = a
  · subst hb
    rw [ht, Tab.get_modify_self]
    exact own
  · rw [ht, Tab.get_modify_ne _ _ (Ne.symm hb)]
    exact h.others b hb

theorem priorityOk_opens (h : priorityOk s) (a : Segment) : PriorityHandled a (priorityHeld s a) s :=
  ⟨fun b _ => priorityOk_iff.mp h b, priorityOk_iff.mp h a, id⟩

theorem PriorityHandled.closes (h : PriorityHandled a w s) (hw : w = true → priorityHeld s a = true) : priorityOk s := by
  refine priorityOk_iff.mpr fun b => ?_
  by_cases hb : b = a
  · subst hb
    have same : w = (s.floors.get b).isHeld := by
      cases hw' : w with
      | true => exact (hw hw').symm
      | false => exact (h.free hw').symm
    rw [← same]
    exact h.own
  · exact h.others b hb

theorem PriorityHandled.removes (h : PriorityHandled a w s) (sets : Sets) (i : SeatId) (reason : FloorReason) :
    PriorityHandled a w (removeSpeaker sets a i reason s) :=
  h.modify (removeSpeaker_floors ..) (fun h => h.closed i) (Floor.closed_holders_sublist ..)

theorem PriorityHandled.grants (h : PriorityHandled a w s) (sets : Sets) (i : SeatId) (reason : FloorReason)
    (byPriority : Bool) (hc : (s.seats.get i).chair = true ∨ w = false) :
    PriorityHandled a w (grantSeat sets a i reason byPriority s) :=
  h.modify (grantSeat_floors ..)
    (fun h => SuspendsAs.joined (f := Floor.dequeued i _) h s.clock rfl hc) (.refl _)

theorem PriorityHandled.joins (h : PriorityHandled a w s) (i : SeatId) : priorityOk (joinHold a i s) := by
  refine h.settle (joinHold_floors ..) ?_
  rw [isHeld_held]
  exact h.own.held s.clock i

theorem priorityOk_congr (h : priorityOk s) (hf : t.floors = s.floors) : priorityOk t := by
  rw [priorityOk, hf]
  exact h

theorem PriorityHandled.congr (h : PriorityHandled a w s) (hf : t.floors = s.floors) : PriorityHandled a w t :=
  ⟨hf ▸ h.others, hf ▸ h.own, hf ▸ h.free⟩

end

theorem priority_floorCondition (sets : Sets) :
    FloorCondition sets (fun _ _ => priorityOk) fun a w _ _ => PriorityHandled a w where
  idle hi h := priorityOk_congr h hi.floors
  waits hi h := h.congr hi.floors
  mono _ _ h := h
  spares h := h
  opens h := priorityOk_opens h _
  closes h := h.closes
  resumes {a _ _ s} h free := by
    refine h.settle (resumeAll_floors ..) ?_
    rw [show ((s.floors.get a).resumed s.clock).isHeld = false from free]
    exact suspendsAs_resumed _ _
  removes i _ _ h := h.removes ..
  dequeues i h := h.modify (takeRequest_floors ..) (fun h => h) (.refl _)
  leaves i h := h.modify (f := Floor.unheld i) rfl (fun h => h) List.filter_sublist
  drops _ h := h.modify (dropSeat_floors ..) (fun h => h.of_subset fun _ he => List.mem_of_mem_eraseP he)
    (List.filter_sublist.trans List.filter_sublist)
  grants {a _ _ s i} reason byPriority _ _ hc h :=
    ((priorityOk_opens h a).grants sets i reason byPriority hc).closes fun hw => by
      rw [priorityHeld, floorOf, grantSeat_floors, Tab.get_modify_self]
      exact hw
  enqueues {a _ _ s i} reason _ _ _ h :=
    ((priorityOk_opens h a).modify (enqueueSeat_floors a i reason s) (fun h => h) (.refl _)).closes fun hw => by
      rw [priorityHeld, floorOf, enqueueSeat_floors, Tab.get_modify_self]
      exact hw
  joins _ _ _ _ h := (priorityOk_opens h _).joins _
  replaces {a _ _ s i e} reason reason' _ free _ _ _ h := by
    have opened : PriorityHandled a false s := free ▸ priorityOk_opens h a
    exact ((opened.removes sets e.seat reason).grants sets i reason' false (.inr rfl)).closes nofun
  bumps {_ _ s i e} hchair _ _ _ _ _ h := by
    have removed := (priorityOk_opens h (seatRoom s i)).removes sets e.seat .priorityBump
    refine (removed.grants sets i .bySeat true (.inl ?_)).joins i
    rw [(removeSpeaker_floorFrame ..).seats]
    exact hchair

theorem frameStep_priorityOk (levels : WallMap) (inputs : Tab 8 (Option Sys2Proof.BoothFrame)) {s : State}
    (h : priorityOk s) : priorityOk (frameStep levels inputs s) := by
  intro a e he
  obtain ⟨g, hg, speakers⟩ := frameStep_speakers levels inputs s a
  rw [speakers] at he
  obtain ⟨x, hx, rfl⟩ := List.mem_map.mp he
  have holders : ((frameStep levels inputs s).floors.get a).holders = [] ↔ (s.floors.get a).holders = [] := by
    rw [frameStep_holders, ← List.length_eq_zero_iff, length_sortBy, List.length_eq_zero_iff]
  rw [hg x]
  simp only [ne_eq, holders]
  exact h a x (mem_sortBy.mp hx)

theorem priority_eventCondition : EventCondition (fun _ _ => priorityOk) fun a w _ _ => PriorityHandled a w where
  toFloorCondition := priority_floorCondition .current
  setSeat _ _ _ h := priorityOk_congr h rfl
  releaseEnd i h := priorityOk_congr h (by
    unfold releaseEndOf
    split <;> rfl)
  frame levels inputs h := frameStep_priorityOk levels inputs h

/-! ### The commit (R92 to R95, R113) -/

/-- The chair entries of a floor are OPEN. -/
def ChairsOpen (f : Floor) : Prop :=
  ∀ e ∈ f.speakers, e.state = .suspended → e.chairAtGrant = false

/-- A new room under construction: its chair entries are OPEN, and the other floors are in order. -/
structure PriorityOpen (a : Segment) (s : State) : Prop where
  others : ∀ b, b ≠ a → SuspendsAs (s.floors.get b).isHeld (s.floors.get b)
  own : ChairsOpen (s.floors.get a)

section
variable {a : Segment} {s t : State} {f : Floor → Floor}

theorem PriorityOpen.modify (h : PriorityOpen a s) (ht : t.floors = s.floors.modify a f)
    (own : ChairsOpen (s.floors.get a) → ChairsOpen (f (s.floors.get a))) : PriorityOpen a t where
  others b hb := by
    rw [ht, Tab.get_modify_ne _ _ (Ne.symm hb)]
    exact h.others b hb
  own := by
    rw [ht, Tab.get_modify_self]
    exact own h.own

theorem PriorityOpen.foldl {α : Type} {g : State → α → State} (l : List α)
    (h : ∀ s x, PriorityOpen a s → PriorityOpen a (g s x)) (hs : PriorityOpen a s) : PriorityOpen a (l.foldl g s) := by
  induction l generalizing s with
  | nil => exact hs
  | cons x l ih => exact ih (h s x hs)

theorem PriorityOpen.trims (h : PriorityOpen a s) (sets : Sets) (n : Nat) : PriorityOpen a (trimSpeakers sets n a s) := by
  induction n generalizing s with
  | zero => exact h
  | succ n ih =>
    unfold trimSpeakers
    split
    · exact h
    · split
      · exact ih (h.modify (removeSpeaker_floors ..) fun own e he => own e (by
          rw [Floor.closed_speakers] at he
          exact List.mem_of_mem_eraseP he))
      · exact h

theorem requeueSpeaker_floors (a : Segment) (s : State) (i : SeatId) :
    ∃ l, (requeueSpeaker a s i).floors = s.floors.modify a fun f => { f with queue := f.queue ++ l } := by
  unfold requeueSpeaker
  split
  · exact ⟨[], (Tab.modify_of_fixed (by simp)).symm⟩
  · exact ⟨_, rfl⟩

theorem PriorityOpen.requeues (h : PriorityOpen a s) (i : SeatId) : PriorityOpen a (requeueSpeaker a s i) := by
  obtain ⟨l, hl⟩ := requeueSpeaker_floors a s i
  exact h.modify hl id

theorem PriorityOpen.dequeues (h : PriorityOpen a s) (seats : List SeatId) (reason : FloorReason) :
    PriorityOpen a (removeRequests a seats reason s) :=
  h.foldl seats fun u i hu => hu.modify (removeRequest_floors a i reason u) id

theorem chairsOpen_capHolders (now : Clock) {f : Floor} (h : ChairsOpen f) : ChairsOpen (capHolders now f) := by
  intro x hx
  obtain ⟨e, he, rfl⟩ := List.mem_map.mp hx
  split
  · exact h e he
  · exact h e he

/-- Where priority is held the non-chair entries of the new room are suspended, and otherwise all its entries resume
(R113). -/
theorem PriorityOpen.settle (h : PriorityOpen a s) :
    priorityOk (if priorityHeld s a then suspendAll a s else resumeAll a s) := by
  refine priorityOk_iff.mpr fun b => ?_
  by_cases hb : b = a
  · subst hb
    split
    · next hh =>
      rw [suspendAll_floors, Tab.get_modify_self, show ((s.floors.get b).suspended s.clock).isHeld = true from hh]
      exact suspendsAs_suspended _ h.own
    · next hh =>
      rw [resumeAll_floors, Tab.get_modify_self,
        show ((s.floors.get b).resumed s.clock).isHeld = false from Bool.not_eq_true _ ▸ hh]
      exact suspendsAs_resumed _ _
  · have same : (if priorityHeld s a then suspendAll a s else resumeAll a s).floors.get b = s.floors.get b := by
      split
      · rw [suspendAll_floors, Tab.get_modify_ne _ _ (Ne.symm hb)]
      · rw [resumeAll_floors, Tab.get_modify_ne _ _ (Ne.symm hb)]
    rw [same]
    exact h.others b hb

theorem commitPriority_idle (old : State) (a : Segment) (s : State) : Idle s (commitPriority old a s) :=
  .foldl (fun u g => by
    split
    · exact .refl u
    · exact notify_idle ..) _ s

theorem chairsOpen_gatherFloor {old : State} (h : priorityOk old) (affected members : List Segment) :
    ChairsOpen (gatherFloor old affected members) := by
  intro e he hs
  have he := (List.mem_filter.mp (mem_sortBy.mp he)).1
  obtain ⟨f, hf, he⟩ := List.mem_flatMap.mp he
  obtain ⟨b, -, rfl⟩ := List.mem_map.mp hf
  exact ((h b e he).mp hs).1

theorem buildFloor_priorityOk {old : State} (hold : priorityOk old) (sets : Sets) (affected : List Segment)
    (hs : priorityOk s) (a : Segment) : priorityOk (buildFloor sets old affected s a) := by
  unfold buildFloor
  extract_lets gathered s1 s2 trimmed direct s3 s4 s5 s6
  have open1 : PriorityOpen a s1 :=
    ⟨fun b hb => by
      rw [State.modFloor_floors, Tab.get_modify_ne _ _ (Ne.symm hb)]
      exact priorityOk_iff.mp hs b, by
      rw [State.modFloor_floors, Tab.get_modify_self]
      exact chairsOpen_gatherFloor hold affected _⟩
  have open2 : PriorityOpen a s2 := open1.trims sets _
  have open3 : PriorityOpen a s3 := by
    unfold s3
    split
    · exact open2
    · exact open2.foldl trimmed fun u i hu => hu.requeues i
  have open4 : PriorityOpen a s4 :=
    open3.modify (State.modFloor_floors ..) fun own => chairsOpen_capHolders s3.clock (f := { s3.floors.get a with
      queue := sortBy requestBefore (s3.floors.get a).queue }) own
  have open5 : PriorityOpen a s5 := by
    unfold s5
    split
    · exact open4.dequeues ..
    · exact open4
  have settled : priorityOk s6 := open5.settle
  exact (priority_floorCondition sets).autoAdvance (m := 0) (n := 0)
    ((priority_floorCondition sets).idle (m := 0) (n := 0) (commitPriority_idle old a s6) settled)

theorem commitFloors_priorityOk {old : State} (hold : priorityOk old) (sets : Sets) (affected news : List Segment)
    (hs : priorityOk s) : priorityOk (commitFloors sets old affected news s) := by
  have start : priorityOk (s.setFloors (Tab.ofFn fun a => if affected.contains a then Floor.empty else s.floors.get a)) := by
    intro b
    rw [State.setFloors_floors, Tab.get_ofFn]
    split
    · nofun
    · exact hs b
  have built (l : List Segment) {u : State} (hu : priorityOk u) :
      priorityOk (l.foldl (buildFloor sets old affected) u) := by
    induction l generalizing u with
    | nil => exact hu
    | cons a l ih =>
      have step := buildFloor_priorityOk (s := u) hold sets affected hu a
      rw [List.foldl_cons]
      exact ih step
  exact built news start

end

/-! ### Every step -/

theorem capRelease_floors (a : Segment) (s : State) : (capRelease a s).floors = s.floors := by
  rw [capRelease_eq]
  rfl

theorem commitMix_floors (affected news : List Segment) (s : State) : (commitMix affected news s).floors = s.floors := by
  unfold commitMix
  extract_lets entries mixes s1
  have capped (l : List Segment) (u : State) : (l.foldl (fun s a => capRelease a s) u).floors = u.floors := by
    induction l generalizing u with
    | nil => rfl
    | cons a l ih => exact (ih _).trans (capRelease_floors a u)
  exact (Idle.foldl (fun s a => reportReady_idle a s) _ s1).floors.trans (capped news _)

theorem commitPartition_floors (rp : Repartition) (s : State) : (commitPartition rp s).floors = s.floors := by
  obtain ⟨sent, h⟩ := commitPartition_eq rp s
  rw [h, sendAll_floors]
  split <;> rfl

/-- A trunk's share replays its queue, from a state in which it holds no more (R57). -/
theorem FloorCondition.commitTrunk {sets : Sets} {P : Nat → Nat → State → Prop}
    {H : Segment → Bool → Nat → Nat → State → Prop} (h : FloorCondition sets P H) {m n : Nat} {s : State}
    (segments : List Segment) (k : TrunkId) (hs : P m n s) :
    P (m + (s.trunks.get k).intake.length) (n + (s.trunks.get k).intake.length) (commitTrunk sets segments k s) := by
  have replay (l : List HeldEvent) {m n : Nat} {u : State} (hu : P m n u) :
      P (m + l.length) (n + l.length) (l.foldl (fun s e => Machine.seatEvent sets e.seat e.kind s) u) := by
    induction l generalizing m n u with
    | nil => exact hu
    | cons e l ih =>
      rw [List.length_cons, Nat.add_comm l.length, ← Nat.add_assoc, ← Nat.add_assoc]
      exact ih (h.seatEvent e.kind hu)
  unfold Machine.commitTrunk
  split
  · exact replay _ (h.idle (modTrunk_idle (.replayed _) rfl) hs)
  · exact h.mono (Nat.le_add_right ..) (Nat.le_add_right ..) hs

theorem commitShare_priorityOk {old : State} (hold : priorityOk old) (sets : Sets) (affected news : List Segment)
    (c : CommitShare) {s : State} (hs : priorityOk s) : priorityOk (commitShare sets old affected news s c) := by
  cases c with
  | mix => exact priorityOk_congr hs (commitMix_floors ..)
  | floor => exact commitFloors_priorityOk hold sets affected news hs
  | booths => exact priorityOk_congr hs (commitBooths_boothFrame ..).idle.floors
  | taps => exact priorityOk_congr hs (commitTaps_boothFrame s).idle.floors
  | trunk k => exact (priority_floorCondition sets).commitTrunk (m := 0) (n := 0) _ k hs
  | startTest => exact priorityOk_congr hs (startTest_idle ..).floors

theorem takeCommit_priorityOk (order : List CommitShare) {s : State} (hs : priorityOk s) :
    priorityOk (takeCommit order s) := by
  have shares (affected news : List Segment) (l : List CommitShare) (sets : Sets) {u : State} (hu : priorityOk u) :
      priorityOk (takeShares s affected news sets u l) := by
    induction l generalizing sets u with
    | nil => exact hu
    | cons c l ih => exact ih _ (commitShare_priorityOk hs sets affected news c hu)
  unfold takeCommit
  split
  · split
    · exact shares _ _ _ _ (priorityOk_congr hs (commitPartition_floors ..))
    · exact hs
  · exact hs

theorem step_priorityOk {s t : State} (hs : priorityOk s) (ht : step s = .next t) : priorityOk t :=
  priority_eventCondition.keeps (fun h => priorityOk_congr h rfl)
    (fun _ => by simp [priorityOk, State.powerOn, Floor.empty])
    (fun order l => takeCommit_priorityOk order (s := { s with pending := l }) hs) hs ht

end Sys2Proof.Machine
end


section
/-! Speaker lists and holder sets stay in the order of age (R65, R97), and every holder stays a chair with a speaker entry
(R62, R97, R102). -/

namespace Sys2Proof.Machine
open Sys2Proof.Safety

/-! ### The order of one floor (R65, R97) -/

/-- The speaker list and the holder set of a floor are in order of age. -/
structure AgesOrdered (now : Clock) (f : Floor) : Prop where
  speakers : f.speakers.Pairwise (speakerOrder now)
  holders : f.holders.Pairwise (holderOrder now)

theorem listsOrdered_iff {s : State} : listsOrdered s ↔ ∀ a, AgesOrdered s.clock (s.floors.get a) :=
  ⟨fun h a => ⟨(h a).1, (h a).2⟩, fun h a => ⟨(h a).speakers, (h a).holders⟩⟩

theorem insertBy_speakerOrder (now : Clock) (e : Speaker) {l : List Speaker} (h : l.Pairwise (speakerOrder now)) :
    (insertBy (speakerBefore now) e l).Pairwise (speakerOrder now) := by
  refine insertBy_pairwise ?_ ?_ ?_ e h
  all_goals
    simp only [speakerOrder, speakerBefore, Bool.or_eq_true, Bool.or_eq_false_iff, Bool.and_eq_true, Bool.and_eq_false_imp,
      decide_eq_true_eq, decide_eq_false_iff_not, beq_iff_eq, Fin.lt_def, Fin.le_def]
    omega

theorem insertBy_holderOrder (now : Clock) (x : Holder) {l : List Holder} (h : l.Pairwise (holderOrder now)) :
    (insertBy (holderBefore now) x l).Pairwise (holderOrder now) := by
  refine insertBy_pairwise ?_ ?_ ?_ x h
  all_goals
    simp only [holderOrder, holderBefore, Bool.or_eq_true, Bool.or_eq_false_iff, Bool.and_eq_true, Bool.and_eq_false_imp,
      decide_eq_true_eq, decide_eq_false_iff_not, beq_iff_eq, Fin.lt_def, Fin.le_def]
    omega

/-- Changing entries other than in their seats and grant times keeps the order. -/
theorem map_speakerOrder {now : Clock} {g : Speaker → Speaker} (hs : ∀ e, (g e).seat = e.seat)
    (ht : ∀ e, (g e).grantTime = e.grantTime) {l : List Speaker} (h : l.Pairwise (speakerOrder now)) :
    (l.map g).Pairwise (speakerOrder now) :=
  List.pairwise_map.mpr (h.imp fun hxy => by simpa [speakerOrder, hs, ht] using hxy)

theorem suspended_seat (now : Clock) (e : Speaker) : (suspended now e).seat = e.seat := by
  unfold suspended
  split <;> rfl

theorem suspended_grantTime (now : Clock) (e : Speaker) : (suspended now e).grantTime = e.grantTime := by
  unfold suspended
  split <;> rfl

theorem suspended_chairAtGrant (now : Clock) (e : Speaker) : (suspended now e).chairAtGrant = e.chairAtGrant := by
  unfold suspended
  split <;> rfl

theorem resumed_seat (now : Clock) (e : Speaker) : (resumed now e).seat = e.seat := by
  unfold resumed
  split <;> rfl

theorem resumed_grantTime (now : Clock) (e : Speaker) : (resumed now e).grantTime = e.grantTime := by
  unfold resumed
  split <;> rfl

theorem resumed_chairAtGrant (now : Clock) (e : Speaker) : (resumed now e).chairAtGrant = e.chairAtGrant := by
  unfold resumed
  split <;> rfl

section
variable {now : Clock} {f : Floor}

theorem AgesOrdered.closed (h : AgesOrdered now f) (i : SeatId) : AgesOrdered now (f.closed i) where
  speakers := by
    rw [Floor.closed_speakers]
    exact h.speakers.sublist List.eraseP_sublist
  holders := h.holders.sublist (Floor.closed_holders_sublist i f)

theorem AgesOrdered.joined (h : AgesOrdered now f) (e : Speaker) : AgesOrdered now (f.joined now e) :=
  ⟨insertBy_speakerOrder now e h.speakers, h.holders⟩

theorem AgesOrdered.unheld (h : AgesOrdered now f) (i : SeatId) : AgesOrdered now (f.unheld i) :=
  ⟨h.speakers, h.holders.sublist List.filter_sublist⟩

theorem AgesOrdered.suspended (h : AgesOrdered now f) : AgesOrdered now (f.suspended now) :=
  ⟨map_speakerOrder (suspended_seat now) (suspended_grantTime now) h.speakers, h.holders⟩

theorem AgesOrdered.resumed (h : AgesOrdered now f) : AgesOrdered now (f.resumed now) :=
  ⟨map_speakerOrder (resumed_seat now) (resumed_grantTime now) h.speakers, h.holders⟩

theorem AgesOrdered.held (h : AgesOrdered now f) (i : SeatId) : AgesOrdered now (f.held now i) :=
  ⟨map_speakerOrder (suspended_seat now) (suspended_grantTime now) h.speakers, insertBy_holderOrder now _ h.holders⟩

theorem AgesOrdered.dropped (h : AgesOrdered now f) (i : SeatId) : AgesOrdered now (f.dropped i) :=
  ⟨h.speakers.sublist List.eraseP_sublist, h.holders.sublist (List.filter_sublist.trans List.filter_sublist)⟩

end

/-! ### The floor controller -/

section
variable {a : Segment} {s t : State} {f : Floor → Floor}

theorem listsOrdered_modify (h : listsOrdered s) (hc : t.clock = s.clock) (ht : t.floors = s.floors.modify a f)
    (own : AgesOrdered s.clock (s.floors.get a) → AgesOrdered s.clock (f (s.floors.get a))) : listsOrdered t := by
  refine listsOrdered_iff.mpr fun b => ?_
  rw [hc, ht, Tab.get_modify]
  split
  · next hb => subst hb; exact own (listsOrdered_iff.mp h a)
  · exact listsOrdered_iff.mp h b

theorem listsOrdered_congr (h : listsOrdered s) (hc : t.clock = s.clock) (hf : t.floors = s.floors) : listsOrdered t := by
  rw [listsOrdered, hc, hf]
  exact h

theorem listsOrdered_removes (h : listsOrdered s) (sets : Sets) (a : Segment) (i : SeatId) (reason : FloorReason) :
    listsOrdered (removeSpeaker sets a i reason s) :=
  listsOrdered_modify h (removeSpeaker_floorFrame ..).clock (removeSpeaker_floors ..) fun h => h.closed i

theorem listsOrdered_grants (h : listsOrdered s) (sets : Sets) (a : Segment) (i : SeatId) (reason : FloorReason)
    (byPriority : Bool) : listsOrdered (grantSeat sets a i reason byPriority s) :=
  listsOrdered_modify h (grantSeat_floorFrame ..).clock (grantSeat_floors ..) fun h =>
    AgesOrdered.joined (f := Floor.dequeued i _) ⟨h.speakers, h.holders⟩ _

theorem listsOrdered_joins (h : listsOrdered s) (a : Segment) (i : SeatId) : listsOrdered (joinHold a i s) :=
  listsOrdered_modify h (joinHold_floorFrame ..).clock (joinHold_floors ..) fun h => h.held i

end

theorem lists_floorCondition (sets : Sets) :
    FloorCondition sets (fun _ _ => listsOrdered) fun _ _ _ _ => listsOrdered where
  idle hi h := listsOrdered_congr h hi.clock hi.floors
  waits hi h := listsOrdered_congr h hi.clock hi.floors
  mono _ _ h := h
  spares h := h
  opens h := h
  closes h _ := h
  resumes h _ := listsOrdered_modify h (resumeAll_floorFrame ..).clock (resumeAll_floors ..) fun h => h.resumed
  removes _ _ _ h := listsOrdered_removes h _ _ _ _
  dequeues _ h := listsOrdered_modify h (takeRequest_floorFrame ..).clock (takeRequest_floors ..) fun h =>
    ⟨h.speakers, h.holders⟩
  leaves i h := listsOrdered_modify h (f := Floor.unheld i) rfl rfl fun h => h.unheld i
  drops _ h := listsOrdered_modify h (dropSeat_floorFrame ..).clock (dropSeat_floors ..) fun h => h.dropped _
  grants _ _ _ _ _ h := listsOrdered_grants h _ _ _ _ _
  enqueues _ _ _ _ h := listsOrdered_modify h (enqueueSeat_floorFrame ..).clock (enqueueSeat_floors ..) fun h =>
    ⟨h.speakers, h.holders⟩
  joins _ _ _ _ h := listsOrdered_joins h _ _
  replaces _ _ _ _ _ _ _ h := listsOrdered_grants (listsOrdered_removes h _ _ _ _) _ _ _ _ _
  bumps _ _ _ _ _ _ h := 
    listsOrdered_joins (listsOrdered_grants (listsOrdered_removes h _ _ _ _) _ _ _ _ _) _ _

theorem frameStep_listsOrdered (levels : WallMap) (inputs : Tab 8 (Option Sys2Proof.BoothFrame)) (s : State) :
    listsOrdered (frameStep levels inputs s) := by
  refine listsOrdered_iff.mpr fun a => ?_
  obtain ⟨g, hg, speakers⟩ := frameStep_speakers levels inputs s a
  rw [frameStep_clock]
  refine ⟨?_, ?_⟩
  · rw [speakers]
    exact map_speakerOrder (fun e => by rw [hg]) (fun e => by rw [hg]) (sortBy_speakerOrder ..)
  · rw [frameStep_holders]
    exact sortBy_holderOrder ..

theorem lists_eventCondition : EventCondition (fun _ _ => listsOrdered) fun _ _ _ _ => listsOrdered where
  toFloorCondition := lists_floorCondition .current
  setSeat _ _ _ h := h
  releaseEnd i h := listsOrdered_congr h (releaseEndOf_floorFrame ..).clock (by
    unfold releaseEndOf
    split <;> rfl)
  frame levels inputs _ := frameStep_listsOrdered levels inputs _

/-! ### The commit (R92 to R95, R112) -/

/-- The floors but that of the room with anchor `a` are in order, whose speaker list is. -/
structure SpeakersOrdered (a : Segment) (s : State) : Prop where
  others : ∀ b, b ≠ a → AgesOrdered s.clock (s.floors.get b)
  own : (s.floors.get a).speakers.Pairwise (speakerOrder s.clock)

section
variable {a : Segment} {s t : State} {f : Floor → Floor}

theorem SpeakersOrdered.modify (h : SpeakersOrdered a s) (hc : t.clock = s.clock) (ht : t.floors = s.floors.modify a f)
    (own : (s.floors.get a).speakers.Pairwise (speakerOrder s.clock) →
      (f (s.floors.get a)).speakers.Pairwise (speakerOrder s.clock)) : SpeakersOrdered a t where
  others b hb := by
    rw [hc, ht, Tab.get_modify_ne _ _ (Ne.symm hb)]
    exact h.others b hb
  own := by
    rw [hc, ht, Tab.get_modify_self]
    exact own h.own

theorem SpeakersOrdered.trims (h : SpeakersOrdered a s) (sets : Sets) (n : Nat) :
    SpeakersOrdered a (trimSpeakers sets n a s) := by
  induction n generalizing s with
  | zero => exact h
  | succ n ih =>
    unfold trimSpeakers
    split
    · exact h
    · split
      · exact ih (h.modify (removeSpeaker_floorFrame ..).clock (removeSpeaker_floors ..) fun own => by
          rw [Floor.closed_speakers]
          exact own.sublist List.eraseP_sublist)
      · exact h

theorem SpeakersOrdered.requeues (h : SpeakersOrdered a s) (seats : List SeatId) :
    SpeakersOrdered a (seats.foldl (requeueSpeaker a) s) := by
  induction seats generalizing s with
  | nil => exact h
  | cons i seats ih =>
    obtain ⟨l, hl⟩ := requeueSpeaker_floors a s i
    have step : SpeakersOrdered a (requeueSpeaker a s i) := h.modify (requeueSpeaker_floorFrame ..).clock hl id
    exact ih step

/-- The earliest holds are kept, in order (R112). -/
theorem SpeakersOrdered.caps (h : SpeakersOrdered a s) :
    listsOrdered (s.modFloor a fun f => capHolders s.clock { f with queue := sortBy requestBefore f.queue }) := by
  refine listsOrdered_iff.mpr fun b => ?_
  rw [State.modFloor_clock, State.modFloor_floors, Tab.get_modify]
  split
  · next hb =>
    subst hb
    exact ⟨map_speakerOrder (fun e => by split <;> rfl) (fun e => by split <;> rfl) h.own,
      (sortBy_holderOrder ..).sublist (List.take_sublist ..)⟩
  · next hb => exact h.others b (Ne.symm hb)

theorem listsOrdered_dequeues (h : listsOrdered s) (seats : List SeatId) (reason : FloorReason) :
    listsOrdered (removeRequests a seats reason s) :=
  (lists_floorCondition .current).removesRequests (m := 0) (n := 0) seats reason h

theorem buildFloor_listsOrdered (sets : Sets) {old : State} (affected : List Segment) (hs : listsOrdered s)
    (hc : s.clock = old.clock) (a : Segment) : listsOrdered (buildFloor sets old affected s a) := by
  unfold buildFloor
  extract_lets gathered s1 s2 trimmed direct s3 s4 s5 s6
  have ordered1 : SpeakersOrdered a s1 :=
    ⟨fun b hb => by
      rw [State.modFloor_clock, State.modFloor_floors, Tab.get_modify_ne _ _ (Ne.symm hb)]
      exact listsOrdered_iff.mp hs b, by
      rw [State.modFloor_clock, State.modFloor_floors, Tab.get_modify_self, hc]
      exact sortBy_speakerOrder ..⟩
  have ordered2 : SpeakersOrdered a s2 := ordered1.trims sets _
  have ordered3 : SpeakersOrdered a s3 := by
    unfold s3
    split
    · exact ordered2
    · exact ordered2.requeues trimmed
  have ordered4 : listsOrdered s4 := ordered3.caps
  have ordered5 : listsOrdered s5 := by
    unfold s5
    split
    · exact listsOrdered_dequeues ordered4 _ _
    · exact ordered4
  have ordered6 : listsOrdered s6 := by
    unfold s6
    split
    · exact listsOrdered_modify ordered5 (suspendAll_floorFrame ..).clock (suspendAll_floors ..) fun h => h.suspended
    · exact listsOrdered_modify ordered5 (resumeAll_floorFrame ..).clock (resumeAll_floors ..) fun h => h.resumed
  exact (lists_floorCondition sets).autoAdvance (m := 0) (n := 0)
    ((lists_floorCondition sets).idle (m := 0) (n := 0) (commitPriority_idle old a s6) ordered6)

theorem commitFloors_listsOrdered (sets : Sets) {old : State} (affected news : List Segment) (hs : listsOrdered s)
    (hc : s.clock = old.clock) : listsOrdered (commitFloors sets old affected news s) := by
  have start : listsOrdered (s.setFloors
      (Tab.ofFn fun a => if affected.contains a then Floor.empty else s.floors.get a)) := by
    refine listsOrdered_iff.mpr fun b => ?_
    rw [State.setFloors_floors, Tab.get_ofFn]
    split
    · exact ⟨.nil, .nil⟩
    · exact listsOrdered_iff.mp hs b
  have built (l : List Segment) {u : State} (hu : listsOrdered u) (huc : u.clock = old.clock) :
      listsOrdered (l.foldl (buildFloor sets old affected) u) := by
    induction l generalizing u with
    | nil => exact hu
    | cons a l ih =>
      have step := buildFloor_listsOrdered (s := u) sets affected hu huc a
      rw [List.foldl_cons]
      exact ih step ((buildFloor_floorFrame ..).clock.trans huc)
  exact built news start hc

end

theorem commitPartition_clock (rp : Repartition) (s : State) : (commitPartition rp s).clock = s.clock := by
  obtain ⟨sent, h⟩ := commitPartition_eq rp s
  rw [h, sendAll_clock]
  split <;> rfl

theorem commitMix_clock (affected news : List Segment) (s : State) : (commitMix affected news s).clock = s.clock := by
  unfold commitMix
  extract_lets entries mixes s1
  have capped : s1.clock = s.clock :=
    (FloorFrame.foldl (fun s a => capRelease_floorFrame a s) news (s.setMixes mixes)).clock
  exact (Idle.foldl (fun s a => reportReady_idle a s) _ s1).clock.trans capped

theorem commitTrunk_seatFrame (sets : Sets) (segments : List Segment) (k : TrunkId) (s : State) :
    SeatFrame (s.modTrunk k fun r => if segments.contains k && !isDraining s (roomOf s k) then
      { r with holding := false, intake := [] } else r) (commitTrunk sets segments k s) := by
  unfold commitTrunk
  split
  · exact .foldl (fun s e => seatEvent_seatFrame ..) _ _
  · have same : s.trunks.modify k (fun r => r) = s.trunks := Tab.modify_of_fixed rfl
    unfold State.modTrunk
    rw [same]
    exact .refl s

/-- No share of a commit moves the hall clock. -/
theorem commitShare_clock (sets : Sets) (old : State) (affected news : List Segment) (c : CommitShare) (s : State) :
    (commitShare sets old affected news s c).clock = s.clock := by
  cases c with
  | mix => exact commitMix_clock ..
  | floor => exact (commitFloors_floorFrame ..).clock
  | booths => exact (commitBooths_boothFrame ..).idle.clock
  | taps => exact (commitTaps_boothFrame s).idle.clock
  | trunk k => exact (onlyCommit_clock (commitTrunk_seatFrame sets _ k s).onlyCommit).trans rfl
  | startTest => exact (startTest_idle ..).clock

theorem commitShare_listsOrdered (sets : Sets) {old : State} (affected news : List Segment) (c : CommitShare) {s : State}
    (hs : listsOrdered s) (hc : s.clock = old.clock) : listsOrdered (commitShare sets old affected news s c) := by
  have idle {t : State} (ht : Idle s t) : listsOrdered t := listsOrdered_congr hs ht.clock ht.floors
  cases c with
  | mix => exact listsOrdered_congr hs (commitShare_clock sets old affected news .mix s) (commitMix_floors ..)
  | floor => exact commitFloors_listsOrdered sets affected news hs hc
  | booths => exact idle (commitBooths_boothFrame ..).idle
  | taps => exact idle (commitTaps_boothFrame s).idle
  | trunk k => exact (lists_floorCondition sets).commitTrunk (m := 0) (n := 0) _ k hs
  | startTest => exact idle (startTest_idle ..)

theorem takeCommit_listsOrdered (order : List CommitShare) {s : State} (hs : listsOrdered s) :
    listsOrdered (takeCommit order s) := by
  have shares (affected news : List Segment) (l : List CommitShare) (sets : Sets) {u : State} (hu : listsOrdered u)
      (hc : u.clock = s.clock) : listsOrdered (takeShares s affected news sets u l) := by
    induction l generalizing sets u with
    | nil => exact hu
    | cons c l ih =>
      exact ih _ (commitShare_listsOrdered sets affected news c hu hc) ((commitShare_clock ..).trans hc)
  unfold takeCommit
  split
  · split
    · exact shares _ _ _ _ (listsOrdered_congr hs (commitPartition_clock ..) (commitPartition_floors ..))
        (commitPartition_clock ..)
    · exact hs
  · exact hs

theorem step_listsOrdered {s t : State} (hs : listsOrdered s) (ht : step s = .next t) : listsOrdered t :=
  lists_eventCondition.keeps (fun h => listsOrdered_congr h rfl rfl)
    (fun _ => by simp [listsOrdered, State.powerOn, Floor.empty])
    (fun order l => takeCommit_listsOrdered order (s := { s with pending := l }) hs) hs ht

end Sys2Proof.Machine
end


section
/-! Every floor entry belongs to a seat of its room, one to a seat (R67, R69), and every holder is a chair with a speaker
entry in the same room (R62, R97, R102). -/

namespace Sys2Proof.Machine
open Sys2Proof.Safety

/-! ### The entries of one floor -/

/-- The floor entries belong to seats of the segments `Z`, one to a seat. -/
structure FloorHoused (Z : List Segment) (f : Floor) : Prop where
  speakers : (f.speakers.map Speaker.seat).Nodup
  queue : (f.queue.map Request.seat).Nodup
  apart : ∀ e ∈ f.speakers, ∀ q ∈ f.queue, e.seat ≠ q.seat
  within : FloorWithin Z f

theorem floorHoused_iff {Z : List Segment} {f : Floor} :
    FloorHoused Z f ↔ (entrySeats f).Nodup ∧ ∀ i ∈ entrySeats f, segmentOf i ∈ Z := by
  simp only [entrySeats, List.nodup_append, List.mem_append, List.mem_map]
  constructor
  · rintro ⟨hs, hq, apart, within⟩
    refine ⟨⟨hs, hq, ?_⟩, ?_⟩
    · rintro i ⟨e, he, rfl⟩ j ⟨q, hq, rfl⟩
      exact apart e he q hq
    · rintro i (⟨e, he, rfl⟩ | ⟨q, hq, rfl⟩)
      exacts [within.1 e he, within.2 q hq]
  · rintro ⟨⟨hs, hq, apart⟩, within⟩
    exact ⟨hs, hq, fun e he q hq => apart _ ⟨e, he, rfl⟩ _ ⟨q, hq, rfl⟩,
      fun e he => within _ (.inl ⟨e, he, rfl⟩), fun q hq => within _ (.inr ⟨q, hq, rfl⟩)⟩

theorem hasSpeaker_eq_false {f : Floor} {i : SeatId} : hasSpeaker f i = false ↔ ∀ e ∈ f.speakers, e.seat ≠ i := by
  simp [hasSpeaker]

theorem hasSpeaker_iff {f : Floor} {i : SeatId} : hasSpeaker f i = true ↔ ∃ e ∈ f.speakers, e.seat = i := by
  simp [hasSpeaker]

theorem hasRequest_eq_false {f : Floor} {i : SeatId} : hasRequest f i = false ↔ ∀ q ∈ f.queue, q.seat ≠ i := by
  simp [hasRequest]

section
variable {Z : List Segment} {f g : Floor}

/-- With one entry to a seat, taking out the first entry of a seat takes out every one. -/
theorem mem_eraseP_seat {α : Type} {seat : α → SeatId} {l : List α} (h : (l.map seat).Nodup) (i : SeatId) {x : α} :
    x ∈ (l.eraseP fun x => seat x == i) ↔ x ∈ l ∧ seat x ≠ i := by
  induction l with
  | nil => simp
  | cons y l ih =>
    obtain ⟨hy, hl⟩ := List.nodup_cons.mp h
    by_cases hyi : seat y = i
    · have rest {z : α} (hz : z ∈ l) : seat z ≠ i := fun hzi => hy (List.mem_map.mpr ⟨z, hz, hzi.trans hyi.symm⟩)
      rw [List.eraseP_cons_of_pos (by simp [hyi])]
      constructor
      · exact fun hx => ⟨List.mem_cons_of_mem y hx, rest hx⟩
      · rintro ⟨hx, hne⟩
        exact (List.mem_cons.mp hx).resolve_left fun e => hne (e ▸ hyi)
    · rw [List.eraseP_cons_of_neg (by simp [hyi]), List.mem_cons, List.mem_cons, ih hl]
      constructor
      · rintro (rfl | ⟨hx, hne⟩)
        exacts [⟨.inl rfl, hyi⟩, ⟨.inr hx, hne⟩]
      · rintro ⟨rfl | hx, hne⟩
        exacts [.inl rfl, .inr ⟨hx, hne⟩]

theorem FloorHoused.mem_closed (h : FloorHoused Z f) (i : SeatId) {e : Speaker} :
    e ∈ (f.closed i).speakers ↔ e ∈ f.speakers ∧ e.seat ≠ i := by
  rw [Floor.closed_speakers]
  exact mem_eraseP_seat h.speakers i

theorem FloorHoused.mem_dequeued (h : FloorHoused Z f) (i : SeatId) {q : Request} :
    q ∈ (f.dequeued i).queue ↔ q ∈ f.queue ∧ q.seat ≠ i :=
  mem_eraseP_seat h.queue i

/-- Entries may leave a floor. -/
theorem FloorHoused.of_sublist (h : FloorHoused Z f) (hs : g.speakers.Sublist f.speakers) (hq : g.queue.Sublist f.queue) :
    FloorHoused Z g where
  speakers := h.speakers.sublist (hs.map _)
  queue := h.queue.sublist (hq.map _)
  apart e he q hq' := h.apart e (hs.subset he) q (hq.subset hq')
  within := h.within.of_subset (fun _ he => hs.subset he) fun _ hm => hq.subset hm

theorem FloorHoused.closed (h : FloorHoused Z f) (i : SeatId) : FloorHoused Z (f.closed i) :=
  h.of_sublist (by rw [Floor.closed_speakers]; exact List.eraseP_sublist) (by rw [Floor.closed_queue])

theorem FloorHoused.dequeued (h : FloorHoused Z f) (i : SeatId) : FloorHoused Z (f.dequeued i) :=
  h.of_sublist (.refl _) List.eraseP_sublist

theorem FloorHoused.dropped (h : FloorHoused Z f) (i : SeatId) : FloorHoused Z (f.dropped i) :=
  h.of_sublist List.eraseP_sublist List.eraseP_sublist

/-- The seats of the speaker entries decide. -/
theorem FloorHoused.of_perm (h : FloorHoused Z f) (hs : (g.speakers.map Speaker.seat).Perm (f.speakers.map Speaker.seat))
    (hq : g.queue.Perm f.queue) : FloorHoused Z g := by
  rw [floorHoused_iff] at h ⊢
  have perm : (entrySeats g).Perm (entrySeats f) := hs.append (hq.map _)
  exact ⟨perm.nodup_iff.mpr h.1, fun i hi => h.2 i (perm.mem_iff.mp hi)⟩

theorem FloorHoused.map_speakers (h : FloorHoused Z f) {k : Speaker → Speaker} (hk : ∀ e, (k e).seat = e.seat)
    (hg : g.speakers = f.speakers.map k) (hq : g.queue = f.queue) : FloorHoused Z g := by
  refine h.of_perm ?_ (by rw [hq])
  rw [hg, List.map_map]
  exact .of_eq (congrFun (congrArg List.map (funext hk)) f.speakers)

/-- A seat of the room without a speaker entry is granted (R75). -/
theorem FloorHoused.granted (h : FloorHoused Z f) (now : Clock) {e : Speaker} (hz : segmentOf e.seat ∈ Z)
    (hs : hasSpeaker f e.seat = false) : FloorHoused Z ((f.dequeued e.seat).joined now e) := by
  have seats : (((f.dequeued e.seat).joined now e).speakers.map Speaker.seat).Perm
      (e.seat :: f.speakers.map Speaker.seat) := (insertBy_perm ..).map _
  have none_left : e.seat ∉ f.speakers.map Speaker.seat := fun hm => by
    obtain ⟨x, hx, hxe⟩ := List.mem_map.mp hm
    exact hasSpeaker_eq_false.mp hs x hx hxe
  have rest := h.dequeued e.seat
  refine ⟨seats.nodup_iff.mpr (List.nodup_cons.mpr ⟨none_left, h.speakers⟩), rest.queue, fun x hx q hq => ?_, ?_⟩
  · rcases mem_insertBy.mp hx with rfl | hx
    · exact fun hxq => ((h.mem_dequeued _).mp hq).2 hxq.symm
    · exact rest.apart x hx q hq
  · refine ⟨fun x hx => ?_, rest.within.2⟩
    rcases mem_insertBy.mp hx with rfl | hx
    · exact hz
    · exact h.within.1 x hx

/-- A seat of the room without a floor entry is queued (R73, R94). -/
theorem FloorHoused.queued (h : FloorHoused Z f) {q : Request} (hz : segmentOf q.seat ∈ Z)
    (hs : hasSpeaker f q.seat = false) (hq : hasRequest f q.seat = false) :
    FloorHoused Z { f with queue := f.queue ++ [q] } where
  speakers := h.speakers
  queue := by
    rw [List.map_append, List.map_singleton]
    refine List.nodup_append.mpr ⟨h.queue, List.nodup_singleton _, fun i hi j hj => ?_⟩
    rw [List.mem_singleton.mp hj]
    obtain ⟨x, hx, rfl⟩ := List.mem_map.mp hi
    exact hasRequest_eq_false.mp hq x hx
  apart e he x hx := by
    rcases List.mem_append.mp hx with hx | hx
    · exact h.apart e he x hx
    · rw [List.mem_singleton.mp hx]
      exact hasSpeaker_eq_false.mp hs e he
  within := h.within.append_queue hz

end

/-! ### The hall -/

/-- The rooms part the segments, and every floor entry belongs to a seat of its room, one to a seat. -/
structure Housed (s : State) : Prop where
  rooms : ∀ {a g}, g ∈ membersOf s a ↔ roomOf s g = a
  floors : ∀ a, FloorHoused (membersOf s a) (s.floors.get a)

theorem rooms_of_roomsOk {s : State} (h : roomsOk s) {a g : Segment} : g ∈ membersOf s a ↔ roomOf s g = a := by
  rw [mem_membersOf_iff h.1, roomOf_eq_anchorIn h.1]

theorem housed_of_ok {s : State} (hr : roomsOk s) (he : entriesOk s) : Housed s where
  rooms := rooms_of_roomsOk hr
  floors a := floorHoused_iff.mpr ⟨he.1 a, fun i hi => (he.2.1 a i hi).1⟩

section
variable {a : Segment} {s t : State} {f : Floor → Floor} {i : SeatId}

theorem Housed.congr (h : Housed s) (hm : membersOf t = membersOf s) (hf : t.floors = s.floors) : Housed t where
  rooms := by rw [hm, roomOf_congr (congrFun hm)]; exact h.rooms
  floors := by rw [hm, hf]; exact h.floors

theorem Housed.modify (h : Housed s) (hm : membersOf t = membersOf s) (ht : t.floors = s.floors.modify a f)
    (own : FloorHoused (membersOf s a) (s.floors.get a) → FloorHoused (membersOf s a) (f (s.floors.get a))) :
    Housed t where
  rooms := by rw [hm, roomOf_congr (congrFun hm)]; exact h.rooms
  floors b := by
    rw [hm, ht, Tab.get_modify]
    split
    · next hb => subst hb; exact own (h.floors a)
    · exact h.floors b

theorem Housed.resident (h : Housed s) (hr : Resident s a i) : segmentOf i ∈ membersOf s a :=
  hr.elim (fun ha => h.rooms.mpr ha.symm) id

/-- A seat that may be granted is of the room and has no speaker entry. -/
theorem Housed.mayGrant (h : Housed s) (hg : MayGrant s a i) :
    segmentOf i ∈ membersOf s a ∧ hasSpeaker (floorOf s a) i = false := by
  rcases hg with ⟨q, hq, rfl⟩ | ⟨hr, hs⟩
  · exact ⟨(h.floors a).within.2 q hq, hasSpeaker_eq_false.mpr fun e he => (h.floors a).apart e he q hq⟩
  · exact ⟨h.resident hr, hs⟩

/-- A seat with an entry on the floor of a room is of that room. -/
theorem Housed.room_of_speaker (h : Housed s) {e : Speaker} (he : e ∈ (s.floors.get a).speakers) :
    roomOf s (segmentOf e.seat) = a :=
  h.rooms.mp ((h.floors a).within.1 e he)

theorem Housed.removes (h : Housed s) (sets : Sets) (a : Segment) (i : SeatId) (reason : FloorReason) :
    Housed (removeSpeaker sets a i reason s) :=
  h.modify (removeSpeaker_floorFrame ..).membersOf (removeSpeaker_floors ..) fun own => own.closed i

theorem Housed.grants (h : Housed s) (sets : Sets) (reason : FloorReason) (byPriority : Bool)
    (hz : segmentOf i ∈ membersOf s a) (hs : hasSpeaker (floorOf s a) i = false) :
    Housed (grantSeat sets a i reason byPriority s) :=
  h.modify (grantSeat_floorFrame ..).membersOf (grantSeat_floors ..) fun own =>
    own.granted s.clock (e := newSpeaker s a i byPriority) hz hs

theorem Housed.joins (h : Housed s) (a : Segment) (i : SeatId) : Housed (joinHold a i s) :=
  h.modify (joinHold_floorFrame ..).membersOf (joinHold_floors ..) fun own =>
    own.map_speakers (suspended_seat s.clock) rfl rfl

theorem floor_removeSpeaker (sets : Sets) (a : Segment) (i : SeatId) (reason : FloorReason) (s : State) :
    floorOf (removeSpeaker sets a i reason s) a = (floorOf s a).closed i := by
  rw [floorOf, removeSpeaker_floors, Tab.get_modify_self, ← floorOf]

theorem hasSpeaker_closed {f : Floor} (i j : SeatId) (h : hasSpeaker f j = false) : hasSpeaker (f.closed i) j = false :=
  hasSpeaker_eq_false.mpr fun e he => hasSpeaker_eq_false.mp h e (by
    rw [Floor.closed_speakers] at he
    exact List.mem_of_mem_eraseP he)

/-- A removal in the room leaves a seat that may be granted what it is. -/
theorem MayGrant.after_removal (h : MayGrant s a i) (sets : Sets) (j : SeatId) (reason : FloorReason) :
    MayGrant (removeSpeaker sets a j reason s) a i := by
  rcases h with ⟨q, hq, hi⟩ | ⟨hr, hs⟩
  · exact .inl ⟨q, by rw [floor_removeSpeaker, Floor.closed_queue]; exact hq, hi⟩
  · refine .inr ⟨?_, by rw [floor_removeSpeaker]; exact hasSpeaker_closed j i hs⟩
    have frame := removeSpeaker_floorFrame sets a j reason s
    rw [Resident, frame.seatRoom, frame.membersOf]
    exact hr

end

theorem housed_floorCondition (sets : Sets) : FloorCondition sets (fun _ _ => Housed) fun _ _ _ _ => Housed where
  idle hi h := h.congr (funext hi.members) hi.floors
  waits hi h := h.congr (funext hi.members) hi.floors
  mono _ _ h := h
  spares h := h
  opens h := h
  closes h _ := h
  resumes {a _ _ s} h _ := h.modify (resumeAll_floorFrame a s).membersOf (resumeAll_floors a s) fun own =>
    own.map_speakers (resumed_seat s.clock) rfl rfl
  removes _ _ _ h := h.removes ..
  dequeues _ h := h.modify (takeRequest_floorFrame ..).membersOf (takeRequest_floors ..) fun own => own.dequeued _
  leaves i h := h.modify (f := Floor.unheld i) rfl rfl fun own => own.of_sublist (.refl _) (.refl _)
  drops _ h := h.modify (dropSeat_floorFrame ..).membersOf (dropSeat_floors ..) fun own => own.dropped _
  grants _ _ hg _ _ h := h.grants _ _ _ (h.mayGrant hg).1 (h.mayGrant hg).2
  enqueues {a _ _ s i} reason hr hs hq h := h.modify (enqueueSeat_floorFrame a i reason s).membersOf (enqueueSeat_floors a i reason s) fun own =>
    own.queued (q := { seat := i, stamp := s.stampCounter, returned := false }) (h.resident hr) hs hq
  joins _ _ _ _ h := h.joins ..
  replaces {a _ _ s i e} reason reason' _ _ hg _ _ h := by
    have removed := h.removes sets a e.seat reason
    obtain ⟨hz, hs⟩ := removed.mayGrant (hg.after_removal sets e.seat reason)
    exact removed.grants sets reason' false hz hs
  bumps {_ _ s i e} _ _ _ hs _ _ h := by
    have removed := h.removes sets (seatRoom s i) e.seat .priorityBump
    obtain ⟨hz, hs⟩ := removed.mayGrant (MayGrant.after_removal (.inr ⟨.inl rfl, hs⟩) sets e.seat .priorityBump)
    exact (removed.grants sets .bySeat true hz hs).joins ..

/-- A frame event keeps the seats of the entries. -/
theorem frameStep_seatsPerm (levels : WallMap) (inputs : Tab 8 (Option Sys2Proof.BoothFrame)) (s : State) (a : Segment) :
    (((frameStep levels inputs s).floors.get a).speakers.map Speaker.seat).Perm
      ((s.floors.get a).speakers.map Speaker.seat) := by
  obtain ⟨g, hg, speakers⟩ := frameStep_speakers levels inputs s a
  rw [speakers, List.map_map, show Speaker.seat ∘ g = Speaker.seat from funext fun e => by rw [Function.comp, hg]]
  exact (sortBy_perm ..).map _

theorem frameStep_housed (levels : WallMap) (inputs : Tab 8 (Option Sys2Proof.BoothFrame)) {s : State} (h : Housed s) :
    Housed (frameStep levels inputs s) where
  rooms := by
    rw [frameStep_members, roomOf_congr (congrFun (frameStep_members ..))]
    exact h.rooms
  floors a := by
    rw [frameStep_members]
    exact (h.floors a).of_perm (frameStep_seatsPerm ..) (by rw [frameStep_queue])

theorem housed_eventCondition : EventCondition (fun _ _ => Housed) fun _ _ _ _ => Housed where
  toFloorCondition := housed_floorCondition .current
  setSeat _ _ _ h := h.congr rfl rfl
  releaseEnd i h := h.congr (releaseEndOf_floorFrame ..).membersOf (by
    unfold releaseEndOf
    split <;> rfl)
  frame levels inputs h := frameStep_housed levels inputs h

/-! ### Holders (R97, R102) -/

/-- The holders of a floor are seats with chair entries, each once, and every speaker entry is a chair entry exactly when
`chair` says so of its seat. -/
structure FloorChaired (chair : SeatId → Bool) (f : Floor) : Prop where
  nodup : (f.holders.map Holder.seat).Nodup
  entries : ∀ h ∈ f.holders, ∃ e ∈ f.speakers, e.seat = h.seat ∧ e.chairAtGrant = true
  chairs : ∀ e ∈ f.speakers, e.chairAtGrant = chair e.seat

/-- The record of chairs that the seat table holds. -/
def chairOf (s : State) (i : SeatId) : Bool :=
  (s.seats.get i).chair

theorem holdersOk_iff {s : State} : holdersOk s ↔ ∀ a, FloorChaired (chairOf s) (s.floors.get a) :=
  ⟨fun h a => ⟨(h a).1, (h a).2.1, (h a).2.2⟩, fun h a => ⟨(h a).nodup, (h a).entries, (h a).chairs⟩⟩

theorem isHolder_eq_false {f : Floor} {i : SeatId} : isHolder f i = false ↔ ∀ h ∈ f.holders, h.seat ≠ i := by
  simp [isHolder]

section
variable {chair : SeatId → Bool} {f g : Floor} {Z : List Segment}

/-- A speaker entry leaves with the hold of its seat. -/
theorem FloorChaired.silenced (h : FloorChaired chair f) (i : SeatId) : FloorChaired chair (f.silenced i) where
  nodup := h.nodup.sublist (List.filter_sublist.map _)
  entries x hx := by
    obtain ⟨hx, hi⟩ := List.mem_filter.mp hx
    obtain ⟨e, he, hs, hc⟩ := h.entries x hx
    refine ⟨e, (List.mem_eraseP_of_neg (by simpa [hs] using hi)).mpr he, hs, hc⟩
  chairs e he := h.chairs e (List.mem_of_mem_eraseP he)

theorem FloorChaired.closed (h : FloorChaired chair f) (i : SeatId) : FloorChaired chair (f.closed i) := by
  unfold Floor.closed
  split
  · exact h.silenced i
  · exact h

/-- Changing entries other than in their seats and chair marks. -/
theorem FloorChaired.map_speakers (h : FloorChaired chair f) {k : Speaker → Speaker} (hs : ∀ e, (k e).seat = e.seat)
    (hc : ∀ e, (k e).chairAtGrant = e.chairAtGrant) (hg : g.speakers = f.speakers.map k)
    (hh : g.holders.Sublist f.holders) : FloorChaired chair g where
  nodup := h.nodup.sublist (hh.map _)
  entries x hx := by
    obtain ⟨e, he, hes, hec⟩ := h.entries x (hh.subset hx)
    exact ⟨k e, by rw [hg]; exact List.mem_map_of_mem he, (hs e).trans hes, (hc e).trans hec⟩
  chairs x hx := by
    rw [hg] at hx
    obtain ⟨e, he, rfl⟩ := List.mem_map.mp hx
    rw [hs, hc]
    exact h.chairs e he

theorem FloorChaired.of_holders (h : FloorChaired chair f) (hs : g.speakers = f.speakers)
    (hh : g.holders.Sublist f.holders) : FloorChaired chair g :=
  h.map_speakers (k := id) (fun _ => rfl) (fun _ => rfl) (by rw [hs, List.map_id]) hh

theorem FloorChaired.joined (h : FloorChaired chair f) (now : Clock) {e : Speaker} (he : e.chairAtGrant = chair e.seat) :
    FloorChaired chair (f.joined now e) where
  nodup := h.nodup
  entries x hx := by
    obtain ⟨y, hy, hs, hc⟩ := h.entries x hx
    exact ⟨y, mem_insertBy.mpr (.inr hy), hs, hc⟩
  chairs x hx := by
    rcases mem_insertBy.mp hx with rfl | hx
    · exact he
    · exact h.chairs x hx

/-- A chair with a speaker entry joins the holders. -/
theorem FloorChaired.held (h : FloorChaired chair f) (now : Clock) {i : SeatId} (hc : chair i = true)
    (hi : isHolder f i = false) (hs : hasSpeaker f i = true) : FloorChaired chair (f.held now i) := by
  have kept : FloorChaired chair (f.suspended now) :=
    h.map_speakers (suspended_seat now) (suspended_chairAtGrant now) rfl (.refl _)
  have seats : ((f.held now i).holders.map Holder.seat).Perm (i :: f.holders.map Holder.seat) :=
    (insertBy_perm ..).map _
  refine ⟨seats.nodup_iff.mpr (List.nodup_cons.mpr ⟨fun hm => ?_, h.nodup⟩), fun x hx => ?_, kept.chairs⟩
  · obtain ⟨x, hx, hxi⟩ := List.mem_map.mp hm
    exact isHolder_eq_false.mp hi x hx hxi
  · rcases mem_insertBy.mp hx with rfl | hx
    · obtain ⟨e, he, hei⟩ := hasSpeaker_iff.mp hs
      refine ⟨suspended now e, List.mem_map_of_mem he, (suspended_seat ..).trans hei, ?_⟩
      rw [suspended_chairAtGrant, h.chairs e he, hei, hc]
    · exact kept.entries x hx

end

/-- Floors are housed, and holders are chairs with speaker entries. -/
structure Chaired (s : State) : Prop where
  housed : Housed s
  floors : ∀ a, FloorChaired (chairOf s) (s.floors.get a)

section
variable {a : Segment} {s t : State} {f : Floor → Floor} {i : SeatId}

theorem Chaired.congr (h : Chaired s) (ht : Housed t) (hc : chairOf t = chairOf s) (hf : t.floors = s.floors) :
    Chaired t :=
  ⟨ht, by rw [hc, hf]; exact h.floors⟩

theorem Chaired.modify (h : Chaired s) (housed : Housed t) (hc : t.seats = s.seats)
    (ht : t.floors = s.floors.modify a f)
    (own : FloorChaired (chairOf s) (s.floors.get a) → FloorChaired (chairOf s) (f (s.floors.get a))) : Chaired t := by
  refine ⟨housed, fun b => ?_⟩
  have chairs : chairOf t = chairOf s := by
    funext i
    rw [chairOf, hc, chairOf]
  rw [chairs, ht, Tab.get_modify]
  split
  · next hb => subst hb; exact own (h.floors a)
  · exact h.floors b

theorem Chaired.removes (h : Chaired s) (sets : Sets) (a : Segment) (i : SeatId) (reason : FloorReason) :
    Chaired (removeSpeaker sets a i reason s) :=
  h.modify (h.housed.removes ..) (removeSpeaker_floorFrame ..).seats (removeSpeaker_floors ..) fun own => own.closed i

theorem Chaired.grants (h : Chaired s) (sets : Sets) (reason : FloorReason) (byPriority : Bool)
    (hz : segmentOf i ∈ membersOf s a) (hs : hasSpeaker (floorOf s a) i = false) :
    Chaired (grantSeat sets a i reason byPriority s) :=
  h.modify (h.housed.grants sets reason byPriority hz hs) (grantSeat_floorFrame ..).seats (grantSeat_floors ..) fun own =>
    (own.of_holders (g := Floor.dequeued i _) rfl (.refl _)).joined s.clock (e := newSpeaker s a i byPriority) rfl

theorem Chaired.joins (h : Chaired s) (hc : chairOf s i = true) (hi : isHolder (floorOf s a) i = false)
    (hs : hasSpeaker (floorOf s a) i = true) : Chaired (joinHold a i s) :=
  h.modify (h.housed.joins ..) (joinHold_floorFrame ..).seats (joinHold_floors ..) fun own => own.held s.clock hc hi hs

theorem Idle.chairOf {s t : State} (h : Idle s t) : chairOf t = chairOf s :=
  funext h.chairs

end

theorem chaired_floorCondition (sets : Sets) : FloorCondition sets (fun _ _ => Chaired) fun _ _ _ _ => Chaired where
  idle hi h := h.congr (h.housed.congr (funext hi.members) hi.floors) hi.chairOf hi.floors
  waits hi h := h.congr (h.housed.congr (funext hi.members) hi.floors) hi.chairOf hi.floors
  mono _ _ h := h
  spares h := h
  opens h := h
  closes h _ := h
  resumes {a _ _ s} h free :=
    h.modify ((housed_floorCondition sets).resumes (m := 0) (n := 0) h.housed free) (resumeAll_floorFrame a s).seats
      (resumeAll_floors a s) fun own =>
        own.map_speakers (resumed_seat s.clock) (resumed_chairAtGrant s.clock) rfl (.refl _)
  removes _ _ _ h := h.removes ..
  dequeues {a w _ _ s} i h :=
    h.modify ((housed_floorCondition sets).dequeues (a := a) (w := w) (m := 0) (n := 0) i h.housed)
      (takeRequest_floorFrame a i s).seats (takeRequest_floors ..) fun own => own.of_holders rfl (.refl _)
  leaves {a w _ _ s} i h :=
    h.modify ((housed_floorCondition sets).leaves (a := a) (w := w) (m := 0) (n := 0) i h.housed) rfl
      (f := Floor.unheld i) rfl fun own => own.of_holders rfl List.filter_sublist
  drops {w _ _ s i reason} hk h :=
    h.modify ((housed_floorCondition sets).drops (w := w) (m := 0) (n := 0) hk h.housed)
      (dropSeat_floorFrame sets _ i reason s).seats (dropSeat_floors ..) fun own =>
        (own.silenced i).of_holders (g := Floor.dropped i _) rfl List.filter_sublist
  grants _ _ hg _ _ h := h.grants _ _ _ (h.housed.mayGrant hg).1 (h.housed.mayGrant hg).2
  enqueues {a _ _ s i} reason hr hs hq h :=
    h.modify ((housed_floorCondition sets).enqueues (m := 0) (n := 0) reason hr hs hq h.housed)
      (enqueueSeat_floorFrame a i reason s).seats (enqueueSeat_floors a i reason s) fun own =>
        own.of_holders rfl (.refl _)
  joins hc hi _ hs h := h.joins hc hi hs
  replaces {a _ _ s i e} reason reason' _ _ hg _ _ h := by
    have removed := h.removes sets a e.seat reason
    obtain ⟨hz, hs⟩ := removed.housed.mayGrant (hg.after_removal sets e.seat reason)
    exact removed.grants sets reason' false hz hs
  bumps {_ _ s i e} hc hi hl hs _ _ h := by
    have removed := h.removes sets (seatRoom s i) e.seat .priorityBump
    obtain ⟨hz, hs⟩ := removed.housed.mayGrant (MayGrant.after_removal (.inr ⟨.inl rfl, hs⟩) sets e.seat .priorityBump)
    have holds : (floorOf (removeSpeaker sets (seatRoom s i) e.seat .priorityBump s) (seatRoom s i)).holders.Sublist
        (floorOf s (seatRoom s i)).holders := by
      rw [floor_removeSpeaker]
      exact Floor.closed_holders_sublist ..
    obtain ⟨hi', -, hs'⟩ := joins_guards (sets := sets) (reason := .bySeat)
      (isHolder_eq_false.mpr fun x hx => isHolder_eq_false.mp hi x (holds.subset hx)) (holds.length_le.trans_lt hl)
    refine (removed.grants sets .bySeat true hz hs).joins ?_ hi' hs'
    rw [chairOf, (grantSeat_floorFrame ..).seats, (removeSpeaker_floorFrame ..).seats]
    exact hc

theorem frameStep_chaired (levels : WallMap) (inputs : Tab 8 (Option Sys2Proof.BoothFrame)) {s : State} (h : Chaired s) :
    Chaired (frameStep levels inputs s) := by
  refine ⟨frameStep_housed levels inputs h.housed, fun a => ?_⟩
  obtain ⟨g, hg, speakers⟩ := frameStep_speakers levels inputs s a
  have chairs : chairOf (frameStep levels inputs s) = chairOf s := by
    funext i
    rw [chairOf, frameStep_seats, chairOf]
  have old := h.floors a
  rw [chairs]
  refine ⟨?_, fun x hx => ?_, fun x hx => ?_⟩
  · rw [frameStep_holders]
    exact ((sortBy_perm ..).map _).nodup_iff.mpr old.nodup
  · rw [frameStep_holders, mem_sortBy] at hx
    obtain ⟨e, he, hs, hc⟩ := old.entries x hx
    refine ⟨g e, by rw [speakers]; exact List.mem_map_of_mem (mem_sortBy.mpr he), ?_, ?_⟩
    · rw [hg]; exact hs
    · rw [hg]; exact hc
  · rw [speakers] at hx
    obtain ⟨e, he, rfl⟩ := List.mem_map.mp hx
    rw [hg]
    exact old.chairs e (mem_sortBy.mp he)

/-- SET_SEAT is refused for a seat with a speaker entry, which stands in the seat's own room (R62). -/
theorem setSeat_chaired {s : State} {i : SeatId} (enabled chair : Bool) (hi : hasSpeaker (floorOf s (seatRoom s i)) i = false)
    (h : Chaired s) : Chaired (s.modSeat i fun r => { r with enabled := enabled, chair := chair }) := by
  refine ⟨h.housed.congr rfl rfl, fun a => ?_⟩
  have old := h.floors a
  refine ⟨old.nodup, old.entries, fun e he => ?_⟩
  have other : i ≠ e.seat := by
    rintro rfl
    have room : seatRoom s e.seat = a := h.housed.room_of_speaker he
    rw [room] at hi
    exact hasSpeaker_eq_false.mp hi e he rfl
  rw [old.chairs e he, chairOf, chairOf, State.modSeat_seats, Tab.get_modify_ne _ _ other]

theorem chaired_eventCondition : EventCondition (fun _ _ => Chaired) fun _ _ _ _ => Chaired where
  toFloorCondition := chaired_floorCondition .current
  setSeat enabled chair hi h := setSeat_chaired enabled chair hi h
  releaseEnd {_ _ s} i h := by
    have frame := releaseEndOf_floorFrame (seatRoom s i) i s
    have floors : (releaseEndOf (seatRoom s i) i s).floors = s.floors := by
      unfold releaseEndOf
      split <;> rfl
    refine h.congr (h.housed.congr frame.membersOf floors) (funext fun j => ?_) floors
    rw [chairOf, frame.seats, chairOf]
  frame levels inputs h := frameStep_chaired levels inputs h

end Sys2Proof.Machine
end


section
/-! What the operations of the floor controller do to release sets, channels and stamps, for rooms as they are and for rooms
before a commit alike (R50, R51, R75, R76, R148, R149, R160). -/

namespace Sys2Proof.Machine
open Sys2Proof.Safety

/-! ### The entries that leave a full release set (R149, R160) -/

/-- The seats whose entries leave the release set `l`, where an operation in a room with these members has grown it. -/
def lostSeats (sets : Sets) (members : List Segment) (l : List Release) : List SeatId :=
  match sets with
  | .current => (l.take (l.length - 6)).map Release.seat
  | .before _ =>
    let part := l.filter fun e => members.contains (segmentOf e.seat)
    (part.take (part.length - 6)).map Release.seat

/-- The entries that stay. -/
def keptReleases (sets : Sets) (members : List Segment) (l : List Release) : List Release :=
  match sets with
  | .current => l.drop (l.length - 6)
  | .before _ => l.filter fun e => !(lostSeats sets members l).contains e.seat

section
variable (sets : Sets) (members : List Segment) (l : List Release)

theorem keptReleases_sublist : (keptReleases sets members l).Sublist l := by
  cases sets with
  | current => exact List.drop_sublist ..
  | before room => exact List.filter_sublist

theorem mem_lostSeats {i : SeatId} (h : i ∈ lostSeats sets members l) : ∃ e ∈ l, e.seat = i := by
  cases sets with
  | current =>
    obtain ⟨e, he, rfl⟩ := List.mem_map.mp h
    exact ⟨e, List.mem_of_mem_take he, rfl⟩
  | before room =>
    obtain ⟨e, he, rfl⟩ := List.mem_map.mp h
    exact ⟨e, (List.mem_filter.mp (List.mem_of_mem_take he)).1, rfl⟩

/-- An entry that does not stay is of a lost seat. -/
theorem mem_keptReleases_or {e : Release} (h : e ∈ l) :
    e ∈ keptReleases sets members l ∨ e.seat ∈ lostSeats sets members l := by
  cases sets with
  | current =>
    rw [← List.take_append_drop (l.length - 6) l] at h
    exact (List.mem_append.mp h).symm.imp id fun h => List.mem_map_of_mem h
  | before room =>
    by_cases hl : e.seat ∈ lostSeats (.before room) members l
    · exact .inr hl
    · exact .inl (List.mem_filter.mpr ⟨h, by simpa using hl⟩)

/-- With one entry to a seat, no lost seat has an entry left. -/
theorem not_mem_lostSeats (h : (l.map Release.seat).Nodup) {e : Release} (he : e ∈ keptReleases sets members l) :
    e.seat ∉ lostSeats sets members l := by
  cases sets with
  | current =>
    rw [← List.take_append_drop (l.length - 6) l, List.map_append, List.nodup_append] at h
    exact fun hl => h.2.2 _ hl _ (List.mem_map_of_mem he) rfl
  | before room =>
    have := (List.mem_filter.mp he).2
    simpa using this

/-- Six entries of a room at most stay. -/
theorem length_keptReleases :
    ((keptReleases sets members l).filter fun e => members.contains (segmentOf e.seat)).length ≤ 6 := by
  cases sets with
  | current =>
    refine (List.length_filter_le ..).trans ?_
    rw [keptReleases, List.length_drop]
    omega
  | before room =>
    let part := l.filter fun e => members.contains (segmentOf e.seat)
    have commute : (keptReleases (.before room) members l).filter (fun e => members.contains (segmentOf e.seat)) =
        part.filter fun e => !(lostSeats (.before room) members l).contains e.seat := by
      simp only [keptReleases, part, List.filter_filter, Bool.and_comm]
    have none_taken : (part.take (part.length - 6)).filter
        (fun e => !(lostSeats (.before room) members l).contains e.seat) = [] :=
      List.filter_eq_nil_iff.mpr fun e he => by
        have : e.seat ∈ lostSeats (.before room) members l := List.mem_map_of_mem he
        simpa using this
    rw [commute, ← List.take_append_drop (part.length - 6) part, List.filter_append, none_taken, List.nil_append]
    refine (List.length_filter_le ..).trans ?_
    rw [List.length_drop]
    omega

end

/-! ### Removals that move the gain (R76) -/

/-- The release entry that a removal makes. -/
def newRelease (s : State) (i : SeatId) (gain : Nat) : Release :=
  { seat := i, gain := gain, stamp := s.releaseCounter, fresh := true }

/-- A release entry is made, before the oldest entries leave. -/
def State.growRelease (s : State) (o : Segment) (e : Release) (f : List Release → List Release) : State :=
  { s with
    releaseCounter := s.releaseCounter + 1
    mixes := s.mixes.modify o fun m => { m with release := f (m.release ++ [e]) } }

theorem addRelease_eq (sets : Sets) (a : Segment) (i : SeatId) (gain : Nat) (s : State) :
    addRelease sets a i gain s =
      (s.growRelease (sets.roomFor a i) (newRelease s i gain) (keptReleases sets (membersOf s a))).freeAll
        (lostSeats sets (membersOf s a) ((s.mixes.get (sets.roomFor a i)).release ++ [newRelease s i gain])) := by
  cases sets with
  | current =>
    rw [addRelease_current]
    refine congrArg (fun m => State.freeAll { s with releaseCounter := s.releaseCounter + 1, mixes := m } _) ?_
    refine Tab.ext_get fun b => ?_
    by_cases hb : a = b
    · subst hb; simp only [Sets.roomFor, keptReleases, newRelease, Tab.get_modify_self]
    · simp only [Sets.roomFor, Tab.get_modify_ne _ _ hb]
  | before room =>
    simp only [addRelease, capPart, foldl_freeChannel, State.setReleaseCounter_mixes, State.modMix_mixes,
      Tab.get_modify_self]
    refine congrArg₂ (fun m l => State.freeAll { s with releaseCounter := s.releaseCounter + 1, mixes := m } l) ?_ rfl
    refine Tab.ext_get fun b => ?_
    by_cases hb : room (segmentOf i) = b
    · subst hb
      simp only [Sets.roomFor, Tab.get_modify_self, State.modMix_mixes, State.setReleaseCounter_mixes]
      rfl
    · simp only [Sets.roomFor, State.modMix_mixes, State.setReleaseCounter_mixes, Tab.get_modify_ne _ _ hb]

/-- What a removal that moves the gain leaves, before its notice. -/
def removed (sets : Sets) (a : Segment) (i : SeatId) (gain : Nat) (s : State) : State :=
  addRelease sets a i gain (s.modFloor a (Floor.silenced i))

theorem removeSpeaker_moves {sets : Sets} {a : Segment} {i : SeatId} {reason : FloorReason} {s : State} {e : Speaker}
    (he : speakerOf (s.floors.get a) i = some e) (hk : keepsGain reason = true) :
    removeSpeaker sets a i reason s = sendAll [floorSent s a i .closed reason] (removed sets a i e.gain s) := by
  simp only [removeSpeaker, floorOf, he, hk, if_true, removed, addRelease_eq]
  exact eq_sendAll_of_frame (s := s) _ rfl rfl rfl

/-! ### Field by field -/

section
variable {sets : Sets} {a : Segment} {i : SeatId} {reason : FloorReason} {s : State}

@[simp] theorem sendAll_releaseCounter (sent : List Sent) (s : State) :
    (sendAll sent s).releaseCounter = s.releaseCounter := by
  rw [sendAll_frame]

@[simp] theorem sendAll_stampCounter (sent : List Sent) (s : State) : (sendAll sent s).stampCounter = s.stampCounter := by
  rw [sendAll_frame]

section
variable {e : Speaker} (he : speakerOf (s.floors.get a) i = some e) (hk : keepsGain reason = true)
include he hk

theorem removeSpeaker_mixes :
    (removeSpeaker sets a i reason s).mixes = s.mixes.modify (sets.roomFor a i) fun m =>
      { m with release := keptReleases sets (membersOf s a) (m.release ++ [newRelease s i e.gain]) } := by
  rw [removeSpeaker_moves he hk, sendAll_mixes, removed, addRelease_eq]
  rfl

theorem removeSpeaker_channels (k : TrunkId) :
    ((removeSpeaker sets a i reason s).trunks.get k).channels =
      freed k (lostSeats sets (membersOf s a) ((s.mixes.get (sets.roomFor a i)).release ++ [newRelease s i e.gain]))
        (s.trunks.get k).channels := by
  rw [removeSpeaker_moves he hk, sendAll_trunks, removed, addRelease_eq]
  exact congrArg Trunk.channels (Tab.get_ofFn _ k)

theorem removeSpeaker_releaseCounter :
    (removeSpeaker sets a i reason s).releaseCounter = s.releaseCounter + 1 := by
  rw [removeSpeaker_moves he hk, sendAll_releaseCounter, removed, addRelease_eq]
  rfl

end

theorem removeSpeaker_stampCounter : (removeSpeaker sets a i reason s).stampCounter = s.stampCounter := by
  cases he : speakerOf (s.floors.get a) i with
  | none => rw [removeSpeaker_none he]
  | some e =>
    cases hk : keepsGain reason with
    | true => rw [removeSpeaker_moves he hk, sendAll_stampCounter, removed, addRelease_eq]; rfl
    | false => rw [removeSpeaker_dropped he hk, sendAll_stampCounter]; rfl

variable (byPriority : Bool)

theorem grantSeat_mixes :
    (grantSeat sets a i reason byPriority s).mixes =
      s.mixes.modify (sets.roomFor a i) fun m => { m with release := m.release.filter fun e => e.seat != i } := by
  unfold grantSeat
  rw [takeRequest_eq]
  rfl

theorem grantSeat_trunks :
    (grantSeat sets a i reason byPriority s).trunks =
      s.trunks.modify (segmentOf i) fun r => { r with channels := claimed r.channels i } := by
  unfold grantSeat
  rw [takeRequest_eq]
  dsimp only
  rw [claimChannel_eq]
  rfl

theorem grantSeat_releaseCounter : (grantSeat sets a i reason byPriority s).releaseCounter = s.releaseCounter := by
  simp [grantSeat, takeRequest_eq, claimChannel_eq, endRelease, floorNotice, notifyRoom, notify]

theorem grantSeat_stampCounter : (grantSeat sets a i reason byPriority s).stampCounter = s.stampCounter := by
  simp [grantSeat, takeRequest_eq, claimChannel_eq, endRelease, floorNotice, notifyRoom, notify]

/-- Everything of a seat leaves, for an offline reason: what it sends aside, the same with rooms as they are or before a
commit. -/
theorem dropSeat_core (hk : keepsGain reason = false) :
    (dropSeat sets a i reason s).mixes =
        s.mixes.modify (sets.roomFor a i) (fun m => { m with release := m.release.filter fun e => e.seat != i }) ∧
      (∀ k, ((dropSeat sets a i reason s).trunks.get k).channels =
        withoutSeats (fun j => j == i) k (s.trunks.get k).channels) ∧
      (dropSeat sets a i reason s).releaseCounter = s.releaseCounter ∧
      (dropSeat sets a i reason s).stampCounter = s.stampCounter := by
  have hm : marksRefusal reason = false := by
    revert hk
    cases reason <;> decide
  have closed : (removeSpeaker sets a i reason s).mixes = s.mixes ∧
      (∀ k, withoutSeats (fun j => j == i) k ((removeSpeaker sets a i reason s).trunks.get k).channels =
        withoutSeats (fun j => j == i) k (s.trunks.get k).channels) ∧
      (removeSpeaker sets a i reason s).releaseCounter = s.releaseCounter ∧
      (removeSpeaker sets a i reason s).stampCounter = s.stampCounter := by
    cases he : speakerOf (s.floors.get a) i with
    | none => rw [removeSpeaker_none he]; exact ⟨rfl, fun _ => rfl, rfl, rfl⟩
    | some e =>
      rw [removeSpeaker_dropped he hk]
      refine ⟨by rw [sendAll_mixes]; rfl, fun k => ?_, by rw [sendAll_releaseCounter]; rfl,
        by rw [sendAll_stampCounter]; rfl⟩
      rw [sendAll_trunks, freeChannel_trunk]
      dsimp only
      rw [withoutSeats_comp]
      simp only [Bool.or_self]
      rfl
  obtain ⟨mixes, channels, releaseCounter, stampCounter⟩ := closed
  have tail (u : State) (sent : List Sent) :
      freeChannel i (endRelease (sets.roomFor a i) i ((sendAll sent (takeRequest a i u)).modFloor a fun f =>
        { f with holders := f.holders.filter fun h => h.seat != i })) =
      sendAll sent (freeChannel i (endRelease (sets.roomFor a i) i ((takeRequest a i u).modFloor a fun f =>
        { f with holders := f.holders.filter fun h => h.seat != i }))) := by
    rw [modFloor_sendAll, endRelease_sendAll, freeChannel_sendAll]
  unfold dropSeat
  dsimp only
  rw [removeRequest_unmarked a i _ hm, tail, takeRequest_eq, sendAll_mixes, sendAll_trunks, sendAll_releaseCounter,
    sendAll_stampCounter]
  generalize removeSpeaker sets a i reason s = u at mixes channels releaseCounter stampCounter
  refine ⟨?_, fun k => ?_, ?_, ?_⟩
  · simp [freeChannel, endRelease, mixes]
  · rw [← channels k, freeChannel_trunk]
    simp [endRelease]
  · simpa [freeChannel, endRelease] using releaseCounter
  · simpa [freeChannel, endRelease] using stampCounter

end

end Sys2Proof.Machine
end


section
/-! Release entries stand under the room of their seats' segments, and lists stay within their capacities (R65, R97, R148,
R149, R160). -/

namespace Sys2Proof.Machine
open Sys2Proof.Safety

/-! ### Release entries at home (R148, R149) -/

/-- The anchor under which the release entry of a seat stands: that of the seat's room, or in a commit that of its room
before. -/
def homeOf (sets : Sets) (s : State) (i : SeatId) : Segment :=
  match sets with
  | .current => seatRoom s i
  | .before room => room (segmentOf i)

/-- Floor entries and release entries are at home. -/
structure Homed (sets : Sets) (s : State) : Prop where
  housed : Housed s
  home : ∀ o, ∀ e ∈ (s.mixes.get o).release, homeOf sets s e.seat = o

section
variable {sets : Sets} {a : Segment} {s t : State} {i : SeatId}

theorem homeOf_congr (sets : Sets) (hm : membersOf t = membersOf s) : homeOf sets t = homeOf sets s := by
  funext j
  cases sets with
  | current => rw [homeOf, seatRoom, roomOf_congr (congrFun hm), homeOf, seatRoom]
  | before room => rfl

/-- Where an operation in the room of a seat makes or ends its release entry. -/
theorem Housed.roomFor_eq (h : Housed s) (sets : Sets) (hz : segmentOf i ∈ membersOf s a) :
    sets.roomFor a i = homeOf sets s i := by
  cases sets with
  | current => exact (h.rooms.mp hz).symm
  | before room => rfl

theorem releasesAtHome_iff (h : Housed s) :
    releasesAtHome s ↔ ∀ o, ∀ e ∈ (s.mixes.get o).release, homeOf .current s e.seat = o :=
  forall_congr' fun _ => forall_congr' fun _ => forall_congr' fun _ => h.rooms

/-- The state before a removal that has something to remove. -/
theorem removes_cases {Q : State → Prop} (reason : FloorReason) (hs : Q s)
    (h : ∀ e, speakerOf (s.floors.get a) i = some e → Q (removeSpeaker sets a i reason s)) :
    Q (removeSpeaker sets a i reason s) := by
  cases he : speakerOf (s.floors.get a) i with
  | none =>
    rw [removeSpeaker_none he]
    exact hs
  | some e => exact h e he

theorem speakerOf_some {f : Floor} {e : Speaker} (h : speakerOf f i = some e) : e ∈ f.speakers ∧ e.seat = i :=
  ⟨List.mem_of_find?_eq_some h, by simpa using List.find?_some h⟩

theorem Housed.resident_of_speaker (h : Housed s) {e : Speaker} (he : speakerOf (s.floors.get a) i = some e) :
    segmentOf i ∈ membersOf s a := by
  obtain ⟨hm, rfl⟩ := speakerOf_some he
  exact (h.floors a).within.1 e hm

theorem Homed.of_releases (h : Homed sets s) (housed : Housed t) (hm : membersOf t = membersOf s)
    (hr : ∀ o, ∀ e ∈ (t.mixes.get o).release, (∃ x ∈ (s.mixes.get o).release, x.seat = e.seat) ∨ homeOf sets s e.seat = o) :
    Homed sets t where
  housed := housed
  home o e he := by
    rw [homeOf_congr sets hm]
    rcases hr o e he with ⟨x, hx, hxe⟩ | hh
    · rw [← hxe]
      exact h.home o x hx
    · exact hh

theorem Homed.congr (h : Homed sets s) (housed : Housed t) (hm : membersOf t = membersOf s)
    (hr : ∀ o, (t.mixes.get o).release = (s.mixes.get o).release) : Homed sets t :=
  h.of_releases housed hm fun o e he => .inl ⟨e, hr o ▸ he, rfl⟩

theorem mem_release_modify {o b : Segment} {f : List Release → List Release} {e : Release}
    (ht : t.mixes = s.mixes.modify o fun m => { m with release := f m.release }) (he : e ∈ (t.mixes.get b).release) :
    (b = o ∧ e ∈ f (s.mixes.get o).release) ∨ (b ≠ o ∧ e ∈ (s.mixes.get b).release) := by
  rw [ht, Tab.get_modify] at he
  split at he
  · next hb => subst hb; exact .inl ⟨rfl, he⟩
  · next hb => exact .inr ⟨Ne.symm hb, he⟩

theorem Homed.removes (h : Homed sets s) {reason : FloorReason} (hk : keepsGain reason = true) :
    Homed sets (removeSpeaker sets a i reason s) := by
  refine removes_cases reason h fun x hx => ?_
  refine h.of_releases (h.housed.removes ..) (removeSpeaker_floorFrame ..).membersOf fun o e he => ?_
  rcases mem_release_modify (f := fun l => keptReleases sets (membersOf s a) (l ++ [newRelease s i x.gain]))
    (removeSpeaker_mixes hx hk) he with ⟨rfl, kept⟩ | ⟨-, he⟩
  · rcases List.mem_append.mp ((keptReleases_sublist ..).subset kept) with he | he
    · exact .inl ⟨e, he, rfl⟩
    · rw [List.mem_singleton.mp he]
      exact .inr (h.housed.roomFor_eq sets (h.housed.resident_of_speaker hx)).symm
  · exact .inl ⟨e, he, rfl⟩

theorem Homed.filters (h : Homed sets s) (housed : Housed t) (hm : membersOf t = membersOf s) {o : Segment}
    {p : Release → Bool} (ht : t.mixes = s.mixes.modify o fun m => { m with release := m.release.filter p }) :
    Homed sets t :=
  h.of_releases housed hm fun b e he => by
    rcases mem_release_modify (f := List.filter p) ht he with ⟨rfl, he⟩ | ⟨-, he⟩
    · exact .inl ⟨e, (List.mem_filter.mp he).1, rfl⟩
    · exact .inl ⟨e, he, rfl⟩

theorem Homed.grants (h : Homed sets s) (reason : FloorReason) (byPriority : Bool) (hz : segmentOf i ∈ membersOf s a)
    (hs : hasSpeaker (floorOf s a) i = false) : Homed sets (grantSeat sets a i reason byPriority s) :=
  h.filters (h.housed.grants sets reason byPriority hz hs) (grantSeat_floorFrame ..).membersOf (grantSeat_mixes byPriority)

theorem Homed.floors (h : Homed sets s) (housed : Housed t) (frame : FloorFrame s t)
    (hx : t.mixes = s.mixes) : Homed sets t :=
  h.congr housed frame.membersOf fun o => by rw [hx]

theorem joinHold_mixes (a : Segment) (i : SeatId) (s : State) : (joinHold a i s).mixes = s.mixes := by
  rw [joinHold_eq, sendAll_mixes]
  rfl

theorem resumeAll_mixes (a : Segment) (s : State) : (resumeAll a s).mixes = s.mixes := by
  rw [resumeAll_eq, sendAll_mixes]
  rfl

theorem suspendAll_mixes (a : Segment) (s : State) : (suspendAll a s).mixes = s.mixes := by
  rw [suspendAll_eq, sendAll_mixes]
  rfl

theorem takeRequest_mixes (a : Segment) (i : SeatId) (s : State) : (takeRequest a i s).mixes = s.mixes := by
  rw [takeRequest_eq]
  rfl

theorem Homed.joins (h : Homed sets s) (a : Segment) (i : SeatId) : Homed sets (joinHold a i s) :=
  h.floors (h.housed.joins a i) (joinHold_floorFrame a i s) (joinHold_mixes a i s)

end

theorem homed_floorCondition (sets : Sets) : FloorCondition sets (fun _ _ => Homed sets) fun _ _ _ _ => Homed sets where
  idle hi h := h.congr (h.housed.congr (funext hi.members) hi.floors) (funext hi.members) hi.releases
  waits hi h := h.congr (h.housed.congr (funext hi.members) hi.floors) (funext hi.members) hi.releases
  mono _ _ h := h
  spares h := h
  opens h := h
  closes h _ := h
  resumes {a m n s} h free :=
    h.floors ((housed_floorCondition sets).resumes (m := m) (n := n) h.housed free) (resumeAll_floorFrame a s)
      (resumeAll_mixes a s)
  removes _ _ hk h := h.removes hk
  dequeues {a w m n s} i h :=
    h.floors ((housed_floorCondition sets).dequeues (a := a) (w := w) (m := m) (n := n) i h.housed)
      (takeRequest_floorFrame a i s) (takeRequest_mixes a i s)
  leaves {a w m n s} i h :=
    h.floors ((housed_floorCondition sets).leaves (a := a) (w := w) (m := m) (n := n) i h.housed)
      (modFloor_floorFrame a _ s) rfl
  drops {w m n s i reason} hk h :=
    h.filters ((housed_floorCondition sets).drops (w := w) (m := m) (n := n) hk h.housed)
      (dropSeat_floorFrame sets (seatRoom s i) i reason s).membersOf (dropSeat_core hk).1
  grants _ _ hg _ _ h := h.grants _ _ (h.housed.mayGrant hg).1 (h.housed.mayGrant hg).2
  enqueues {a m n s i} reason hr hs hq h :=
    h.floors ((housed_floorCondition sets).enqueues (m := m) (n := n) reason hr hs hq h.housed)
      (enqueueSeat_floorFrame a i reason s) rfl
  joins _ _ _ _ h := h.joins _ _
  replaces {a _ _ s i e} reason reason' hk _ hg _ _ h := by
    have removed : Homed sets (removeSpeaker sets a e.seat reason s) := h.removes hk
    obtain ⟨hz, hs⟩ := removed.housed.mayGrant (hg.after_removal sets e.seat reason)
    exact removed.grants reason' false hz hs
  bumps {_ _ s i e} _ _ _ hs _ _ h := by
    have removed : Homed sets (removeSpeaker sets (seatRoom s i) e.seat .priorityBump s) := h.removes rfl
    obtain ⟨hz, hs⟩ := removed.housed.mayGrant (MayGrant.after_removal (.inr ⟨.inl rfl, hs⟩) sets e.seat .priorityBump)
    exact (removed.grants .bySeat true hz hs).joins _ _

/-! ### Release ends and the frame event (R150) -/

theorem releaseEndOf_mixes (a : Segment) (i : SeatId) (s : State) :
    (releaseEndOf a i s).mixes = s.mixes ∨
      (releaseEndOf a i s).mixes = s.mixes.modify a fun m => { m with release := m.release.filter fun e => e.seat != i } := by
  unfold releaseEndOf
  split
  · exact .inr rfl
  · exact .inl rfl

theorem releaseEndOf_homed {s : State} (i : SeatId) (h : Homed .current s) :
    Homed .current (releaseEndOf (seatRoom s i) i s) := by
  have frame := releaseEndOf_floorFrame (seatRoom s i) i s
  have floors : (releaseEndOf (seatRoom s i) i s).floors = s.floors := by
    unfold releaseEndOf
    split <;> rfl
  have housed := h.housed.congr frame.membersOf floors
  rcases releaseEndOf_mixes (seatRoom s i) i s with hx | hx
  · exact h.floors housed frame hx
  · exact h.filters housed frame.membersOf hx

/-- A frame event lowers gains, and entries leave (R150). -/
theorem frameStep_releases (levels : WallMap) (inputs : Tab 8 (Option Sys2Proof.BoothFrame)) (s : State) (a : Segment) :
    ((frameStep levels inputs s).mixes.get a).release = (lowered s a).filter fun e => !endsIn (lowered s a) e.seat := by
  have sent := frameStep_release levels inputs s a
  generalize frameStep levels inputs s = u at sent ⊢
  exact sent

theorem lowered_map (s : State) (a : Segment) :
    ∃ g : Release → Release, (∀ e, (g e).seat = e.seat ∧ (g e).stamp = e.stamp) ∧
      lowered s a = (s.mixes.get a).release.map g := by
  unfold lowered
  split
  · exact ⟨fun e => { e with gain := e.gain - 256, fresh := false }, fun _ => ⟨rfl, rfl⟩, rfl⟩
  · exact ⟨id, fun _ => ⟨rfl, rfl⟩, (List.map_id _).symm⟩

/-- The entries that a frame event leaves in a release set are some of those before, in their order, with their seats and
stamps. -/
theorem frameStep_release_sublist (levels : WallMap) (inputs : Tab 8 (Option Sys2Proof.BoothFrame)) (s : State)
    (a : Segment) {α : Type} {k : Release → α} (hk : ∀ x y : Release, x.seat = y.seat → x.stamp = y.stamp → k x = k y) :
    (((frameStep levels inputs s).mixes.get a).release.map k).Sublist ((s.mixes.get a).release.map k) := by
  obtain ⟨g, hg, hl⟩ := lowered_map s a
  have same : (lowered s a).map k = (s.mixes.get a).release.map k := by
    rw [hl, List.map_map]
    exact List.map_congr_left fun e _ => hk _ _ (hg e).1 (hg e).2
  rw [frameStep_releases, ← same]
  exact List.filter_sublist.map k

theorem frameStep_homed (levels : WallMap) (inputs : Tab 8 (Option Sys2Proof.BoothFrame)) {s : State}
    (h : Homed .current s) : Homed .current (frameStep levels inputs s) :=
  h.of_releases (frameStep_housed levels inputs h.housed) (frameStep_members levels inputs s) fun a e he => by
    have seats := frameStep_release_sublist levels inputs s a (k := Release.seat) fun _ _ h _ => h
    obtain ⟨x, hx, hxe⟩ := List.mem_map.mp (seats.subset (List.mem_map_of_mem he))
    exact .inl ⟨x, hx, hxe⟩

theorem homed_eventCondition : EventCondition (fun _ _ => Homed .current) fun _ _ _ _ => Homed .current where
  toFloorCondition := homed_floorCondition .current
  setSeat enabled chair hi h :=
    h.congr (housed_eventCondition.setSeat (m := 0) (n := 0) enabled chair hi h.housed) rfl fun _ => rfl
  releaseEnd i h := releaseEndOf_homed i h
  frame levels inputs h := frameStep_homed levels inputs h

end Sys2Proof.Machine
end


section
/-! What a condition must survive to be kept by a commit (R29, R57, R92 to R95, R112, R113). -/

namespace Sys2Proof.Machine
open Sys2Proof.Safety

/-! ### The floor of a new room -/

/-- The earliest holds stay, and the queue is put in order (R94, R112). -/
def Floor.capped (now : Clock) (f : Floor) : Floor :=
  capHolders now { f with queue := sortBy requestBefore f.queue }

/-- Conditions on a new room with anchor `a` that the floor controller builds: `B` while its entries are trimmed and requeued,
`D` once the holds are capped. -/
structure BuildCondition (sets : Sets) (a : Segment) (B D : Nat → Nat → State → Prop) : Prop where
  housed : ∀ {m n s}, B m n s → FloorHoused (membersOf s a) (s.floors.get a)
  more : ∀ {m n m' n' s}, m ≤ m' → n ≤ n' → B m n s → B m' n' s
  trims : ∀ {m n s e}, Config.speakerCap < (floorOf s a).speakers.length → e ∈ (floorOf s a).speakers → B m n s →
    B (m + 1) n (removeSpeaker sets a e.seat .mergeTrim s)
  requeues : ∀ {m n s i}, segmentOf i ∈ membersOf s a → hasSpeaker (floorOf s a) i = false →
    hasRequest (floorOf s a) i = false → B m n s → B m (n + 1) (requeueSpeaker a s i)
  caps : ∀ {m n s}, (floorOf s a).speakers.length ≤ Config.speakerCap → B m n s →
    D m n (s.modFloor a (Floor.capped s.clock))
  idle : ∀ {m n s t}, Idle s t → D m n s → D m n t
  dequeues : ∀ {m n s} i, D m n s → D m n (takeRequest a i s)
  suspends : ∀ {m n s}, D m n s → D m n (suspendAll a s)
  resumes : ∀ {m n s}, D m n s → D m n (resumeAll a s)
  grants : ∀ {m n s i}, (∃ q ∈ (floorOf s a).queue, q.seat = i) → listHasRoom (floorOf s a) = true → D m n s →
    D m n (grantSeat sets a i .none false s)

/-- The request that requeues a trimmed speaker (R94). -/
def returnedRequest (s : State) (i : SeatId) : Request :=
  { seat := i, stamp := s.stampCounter, returned := true }

theorem requeueSpeaker_queue (a : Segment) (s : State) (i : SeatId) :
    ∃ l, (l = [] ∨ l = [returnedRequest s i]) ∧
      (requeueSpeaker a s i).floors = s.floors.modify a fun f => { f with queue := f.queue ++ l } := by
  unfold requeueSpeaker
  split
  · exact ⟨[], .inl rfl, (Tab.modify_of_fixed (by simp)).symm⟩
  · exact ⟨_, .inr rfl, rfl⟩

theorem trimVictim_mem {f : Floor} {e : Speaker} (h : trimVictim f = some e) : e ∈ f.speakers := by
  unfold trimVictim at h
  split at h
  · next x hx => exact Option.some.inj h ▸ (List.mem_filter.mp (List.mem_of_getLast? hx)).1
  · split at h
    · next x hx => exact Option.some.inj h ▸ (List.mem_filter.mp (List.mem_of_getLast? hx)).1
    · exact List.mem_of_getLast? h

theorem trimVictim_isSome {f : Floor} (h : 0 < f.speakers.length) : (trimVictim f).isSome = true := by
  unfold trimVictim
  split
  · rfl
  · split
    · rfl
    · simpa using List.ne_nil_of_length_pos h

/-- A trim takes one speaker entry, and leaves the requests alone. -/
theorem trim_floor {sets : Sets} {a : Segment} {s : State} {e : Speaker} (he : e ∈ (floorOf s a).speakers) :
    (floorOf (removeSpeaker sets a e.seat .mergeTrim s) a).speakers.length + 1 = (floorOf s a).speakers.length ∧
      (floorOf (removeSpeaker sets a e.seat .mergeTrim s) a).queue = (floorOf s a).queue := by
  rw [floor_removeSpeaker, Floor.closed_speakers, Floor.closed_queue]
  refine ⟨?_, rfl⟩
  rw [List.length_eraseP_of_mem he (by simp)]
  have := List.length_pos_of_mem he
  omega

section
variable {sets : Sets} {a : Segment} {B D : Nat → Nat → State → Prop} (h : BuildCondition sets a B D) {m n : Nat}
  {s : State}
include h

theorem BuildCondition.trimSpeakers (k : Nat) (hk : (floorOf s a).speakers.length ≤ k + Config.speakerCap) (hs : B m n s) :
    B (m + k) n (trimSpeakers sets k a s) ∧
      (floorOf (Machine.trimSpeakers sets k a s) a).speakers.length ≤ Config.speakerCap ∧
      (floorOf (Machine.trimSpeakers sets k a s) a).queue = (floorOf s a).queue := by
  induction k generalizing m s with
  | zero => exact ⟨hs, by simpa [Machine.trimSpeakers] using hk, rfl⟩
  | succ k ih =>
    unfold Machine.trimSpeakers
    split
    · next hle => exact ⟨h.more (Nat.le_add_right ..) le_rfl hs, hle, rfl⟩
    · next hlt =>
      have hlt := Nat.lt_of_not_le hlt
      obtain ⟨e, he⟩ := Option.isSome_iff_exists.mp (trimVictim_isSome (Nat.zero_lt_of_lt hlt))
      have hmem := trimVictim_mem he
      obtain ⟨len, queue⟩ := trim_floor (sets := sets) hmem
      rw [he]
      obtain ⟨kept, capped, same⟩ := ih (by omega) (h.trims hlt hmem hs)
      exact ⟨by rwa [Nat.add_comm k, ← Nat.add_assoc], capped, same.trans queue⟩

theorem BuildCondition.requeueAll (l : List SeatId) (hl : l.Nodup)
    (hi : ∀ i ∈ l, segmentOf i ∈ membersOf s a ∧ hasSpeaker (floorOf s a) i = false ∧ hasRequest (floorOf s a) i = false)
    (hs : B m n s) : B m (n + l.length) (l.foldl (requeueSpeaker a) s) ∧
      (floorOf (l.foldl (requeueSpeaker a) s) a).speakers = (floorOf s a).speakers := by
  induction l generalizing n s with
  | nil => exact ⟨hs, rfl⟩
  | cons i l ih =>
    obtain ⟨hn, hl⟩ := List.nodup_cons.mp hl
    obtain ⟨home, silent, unqueued⟩ := hi i List.mem_cons_self
    obtain ⟨added, only, floors⟩ := requeueSpeaker_queue a s i
    have floor : floorOf (requeueSpeaker a s i) a = { floorOf s a with queue := (floorOf s a).queue ++ added } := by
      rw [floorOf, floors, Tab.get_modify_self]
      rfl
    have speakers : (floorOf (requeueSpeaker a s i) a).speakers = (floorOf s a).speakers := by rw [floor]
    have queue (q : Request) (hq : q ∈ (floorOf (requeueSpeaker a s i) a).queue) :
        q ∈ (floorOf s a).queue ∨ q.seat = i := by
      rw [floor] at hq
      refine (List.mem_append.mp hq).imp id fun hq => ?_
      rcases only with rfl | rfl
      · cases hq
      · rw [List.mem_singleton.mp hq]
        rfl
    have rest : ∀ j ∈ l, segmentOf j ∈ membersOf (requeueSpeaker a s i) a ∧
        hasSpeaker (floorOf (requeueSpeaker a s i) a) j = false ∧ hasRequest (floorOf (requeueSpeaker a s i) a) j = false := by
      intro j hj
      obtain ⟨home, silent, unqueued⟩ := hi j (List.mem_cons_of_mem i hj)
      refine ⟨by rw [(requeueSpeaker_floorFrame a i s).membersOf]; exact home, ?_, hasRequest_eq_false.mpr fun q hq => ?_⟩
      · rw [hasSpeaker, speakers]; exact silent
      · rcases queue q hq with hq | rfl
        · exact hasRequest_eq_false.mp unqueued q hq
        · rintro rfl; exact hn hj
    obtain ⟨kept, same⟩ := ih hl rest (h.requeues home silent unqueued hs)
    refine ⟨?_, same.trans speakers⟩
    rwa [List.length_cons, Nat.add_comm l.length, ← Nat.add_assoc]

theorem BuildCondition.removesRequests (seats : List SeatId) (reason : FloorReason) (hs : D m n s) :
    D m n (removeRequests a seats reason s) := by
  unfold removeRequests
  induction seats generalizing s with
  | nil => exact hs
  | cons i seats ih =>
    have taken : D m n (floorNotice a i .dequeued reason (takeRequest a i s)) := h.idle (notify_idle ..) (h.dequeues i hs)
    have step : D m n (removeRequest a i reason s) := by
      unfold removeRequest
      split
      · dsimp only
        split
        · exact h.idle (markRefusal_idle ..) taken
        · exact taken
      · exact hs
    rw [List.foldl_cons]
    exact ih step

theorem BuildCondition.advance (k : Nat) (hs : D m n s) : D m n (advance sets k a s) := by
  induction k generalizing s with
  | zero => exact hs
  | succ k ih =>
    unfold Machine.advance
    split
    · exact hs
    · next q rest hq =>
      split
      · next hm =>
        simp only [mayAdvance, Bool.and_eq_true] at hm
        exact ih (h.grants ⟨q, by rw [hq]; exact List.mem_cons_self, rfl⟩ hm.1.1.2 hs)
      · exact hs

/-- The floor of a new room, from its gathered entries to its auto-advance (R92 to R95, R112, R113). -/
theorem BuildCondition.build (old : State) (affected : List Segment)
    (hs : B m n (s.modFloor a fun _ => gatherFloor old affected (membersOf s a))) :
    D (m + (gatherFloor old affected (membersOf s a)).speakers.length)
      (n + (gatherFloor old affected (membersOf s a)).speakers.length) (buildFloor sets old affected s a) := by
  unfold buildFloor
  extract_lets gathered s1 s2 trimmed direct s3 s4 s5 s6
  have floor1 : floorOf s1 a = gathered := Tab.get_modify_self ..
  have placed : FloorHoused (membersOf s a) gathered := by
    have := h.housed hs
    rwa [show s1.floors.get a = gathered from floor1, (modFloor_floorFrame a _ s).membersOf] at this
  have members2 : membersOf s2 = membersOf s := (trimSpeakers_floorFrame sets _ a s1).membersOf
  obtain ⟨kept2, capped, queue⟩ := h.trimSpeakers (s := s1) gathered.speakers.length
    (by rw [floor1]; exact Nat.le_add_right ..) hs
  have listed : trimmed.length ≤ gathered.speakers.length :=
    (List.length_filter_le ..).trans (List.length_map ..).le
  have requeued : B (m + gathered.speakers.length) (n + gathered.speakers.length) s3 ∧
      (floorOf s3 a).speakers.length ≤ Config.speakerCap := by
    unfold s3
    split
    · exact ⟨h.more le_rfl (Nat.le_add_right ..) kept2, capped⟩
    · have := h.requeueAll (s := s2) trimmed (placed.speakers.filter _) (fun i hi => ?_) kept2
      · exact ⟨h.more le_rfl (Nat.add_le_add_left listed n) this.1, by rw [this.2]; exact capped⟩
      · obtain ⟨hmem, hgone⟩ := List.mem_filter.mp hi
        obtain ⟨e, he, rfl⟩ := List.mem_map.mp hmem
        refine ⟨by rw [members2]; exact placed.within.1 e he, by simpa using hgone, hasRequest_eq_false.mpr fun q hq => ?_⟩
        rw [queue, floor1] at hq
        exact (placed.apart e he q hq).symm
  have kept4 : D (m + gathered.speakers.length) (n + gathered.speakers.length) s4 := h.caps requeued.2 requeued.1
  have kept5 : D (m + gathered.speakers.length) (n + gathered.speakers.length) s5 := by
    unfold s5
    split
    · exact h.removesRequests _ _ kept4
    · exact kept4
  have kept6 : D (m + gathered.speakers.length) (n + gathered.speakers.length) s6 := by
    unfold s6
    split
    · exact h.suspends kept5
    · exact h.resumes kept5
  exact h.advance _ (h.idle (commitPriority_idle old a s6) kept6)

end

/-! ### The floors of all new rooms -/

/-- The speaker entries that a commit gathers for the new rooms `l`. -/
def gatheredCount (old : State) (affected : List Segment) (members : Segment → List Segment) (l : List Segment) : Nat :=
  (l.map fun a => (gatherFloor old affected (members a)).speakers.length).sum

/-- A condition `D rest` on a hall in which the new rooms `rest` are still to be built survives their building. -/
theorem foldl_buildFloor {sets : Sets} {old : State} {affected : List Segment}
    {B : Segment → List Segment → Nat → Nat → State → Prop} {D : List Segment → Nat → Nat → State → Prop}
    (place : ∀ {a rest m n s}, a ∉ rest → D (a :: rest) m n s →
      B a rest m n (s.modFloor a fun _ => gatherFloor old affected (membersOf s a)))
    (build : ∀ a rest, a ∉ rest → BuildCondition sets a (B a rest) (D rest)) {news : List Segment} (hn : news.Nodup)
    {m n : Nat} {s : State} (hs : D news m n s) :
    D [] (m + gatheredCount old affected (membersOf s) news) (n + gatheredCount old affected (membersOf s) news)
      (news.foldl (buildFloor sets old affected) s) := by
  induction news generalizing m n s with
  | nil => exact hs
  | cons a rest ih =>
    obtain ⟨ha, hn⟩ := List.nodup_cons.mp hn
    have step := (build a rest ha).build old affected (place ha hs)
    have done := ih hn step
    rw [(buildFloor_floorFrame ..).membersOf] at done
    rw [List.foldl_cons]
    simpa only [gatheredCount, List.map_cons, List.sum_cons, Nat.add_assoc] using done

/-- Every entry is gathered for one new room at most. -/
theorem sum_countP_le {α : Type} {p : Segment → α → Bool} {room : α → Segment}
    (hp : ∀ a x, p a x = true → room x = a) {news : List Segment} (hn : news.Nodup) (l : List α) :
    (news.map fun a => l.countP (p a)).sum ≤ l.length := by
  induction l with
  | nil => simp
  | cons x l ih =>
    have one : (news.map fun a => if p a x = true then 1 else 0).sum ≤ 1 := by
      calc (news.map fun a => if p a x = true then 1 else 0).sum
          ≤ (news.map fun a => if a = room x then 1 else 0).sum := by
            refine List.sum_le_sum fun a _ => ?_
            split
            · next h => rw [if_pos (hp a x h).symm]
            · exact Nat.zero_le _
        _ = news.count (room x) := by
            clear hn ih
            induction news with
            | nil => rfl
            | cons a news ih => simp only [List.map_cons, List.sum_cons, ih, List.count_cons, beq_iff_eq]; omega
        _ ≤ 1 := List.nodup_iff_count_le_one.mp hn _
    simp only [List.countP_cons, List.sum_map_add, List.length_cons]
    omega

theorem gatheredCount_le {old : State} {affected : List Segment} {members : Segment → List Segment}
    {room : Segment → Segment} (hm : ∀ a g, g ∈ members a → room g = a) {news : List Segment} (hn : news.Nodup) :
    gatheredCount old affected members news ≤ ((affected.map (floorOf old)).flatMap Floor.speakers).length := by
  have count (a : Segment) : (gatherFloor old affected (members a)).speakers.length =
      ((affected.map (floorOf old)).flatMap Floor.speakers).countP fun e => (members a).contains (segmentOf e.seat) := by
    rw [gatherFloor, length_sortBy, List.countP_eq_length_filter]
  simp only [gatheredCount, count]
  exact sum_countP_le (p := fun a (e : Speaker) => (members a).contains (segmentOf e.seat))
    (room := fun e => room (segmentOf e.seat)) (fun a e h => hm a _ (List.contains_iff_mem.mp h)) hn _

theorem length_gathered_le {old : State} {affected : List Segment} (ha : affected.Nodup)
    (h : ∀ a, (old.floors.get a).speakers.length ≤ Config.speakerCap) :
    ((affected.map (floorOf old)).flatMap Floor.speakers).length ≤ 60 := by
  have six : affected.length ≤ 6 := by
    have := List.Nodup.length_le_card ha
    simpa using this
  have : ((affected.map (floorOf old)).flatMap Floor.speakers).length ≤ affected.length * 10 := by
    clear ha six
    induction affected with
    | nil => simp
    | cons a l ih =>
      have := h a
      simp only [Config.speakerCap] at this
      simp only [List.map_cons, List.flatMap_cons, List.length_append, List.length_cons, floorOf]
      omega
  omega

/-! ### The shares of a commit -/

/-- Conditions on a hall in which the commit of the repartition `rp` in state `s` is under way: where the release sets stand,
and whether the floor controller's share is taken. It may take `c` stamps of each counter. -/
structure CommitCondition (s : State) (rp : Repartition) (c : Nat) (W : Sets → Bool → Nat → Nat → State → Prop)
    (H : Sets → Segment → Bool → Nat → Nat → State → Prop) : Prop where
  start : W (.before (roomOf s)) false 0 0 (commitPartition rp s)
  idle : ∀ {sets fl m n u v}, Idle u v → W sets fl m n u → W sets fl m n v
  mix : ∀ {fl m n u}, membersOf u = membersOf (rebuilt rp s) → W (.before (roomOf s)) fl m n u →
    W .current fl m n (commitMix rp.affected (newRooms s rp.target) u)
  floor : ∀ {sets m n u}, sets = .current ∨ sets = .before (roomOf s) → membersOf u = membersOf (rebuilt rp s) →
    W sets false m n u → W sets true (m + c) (n + c) (commitFloors sets s rp.affected (newRooms s rp.target) u)
  events : ∀ sets, FloorCondition sets (W sets true) (H sets)

/-- The stamps of a counter that a share may take. -/
def shareCost (s : State) (c : Nat) : CommitShare → Nat
  | .floor => c
  | .trunk k => (s.trunks.get k).intake.length
  | _ => 0

theorem setsAfter_cases (s : State) (done : List CommitShare) :
    setsAfter s done = .current ∨ setsAfter s done = .before (roomOf s) := by
  unfold setsAfter
  split
  exacts [.inl rfl, .inr rfl]

theorem shareOrder_cost (s : State) (c : Nat) (order : List CommitShare) :
    ((shareOrder order).map (shareCost s c)).sum ≤ c + (allSegments.map fun k => (s.trunks.get k).intake.length).sum := by
  have ok := shareOrder_ok order
  simp only [orderOk, Bool.and_eq_true, decide_eq_true_eq] at ok
  have whole (x : CommitShare) : x ∈ allShares := by
    cases x with
    | trunk k => revert k; decide
    | _ => decide
  obtain ⟨l, perm, sub⟩ := ok.1.1.subperm fun x _ => whole x
  rw [← (perm.map (shareCost s c)).sum_eq]
  refine (List.Sublist.sum_le_sum (sub.map (shareCost s c)) fun _ _ => Nat.zero_le _).trans (le_of_eq ?_)
  simp [allShares, shareCost, allSegments, List.finRange]

theorem CommitCondition.shares {s : State} {rp : Repartition} {c : Nat} {W : Sets → Bool → Nat → Nat → State → Prop}
    {H : Sets → Segment → Bool → Nat → Nat → State → Prop} (h : CommitCondition s rp c W H) (hrooms : roomsOk s)
    (hrp : s.repartition = some rp) (order : List CommitShare) :
    W .current true ((shareOrder order).map (shareCost s c)).sum ((shareOrder order).map (shareCost s c)).sum
      (commitStep order rp s) := by
  have all : Underway s rp (shareOrder order) (commitStep order rp s) ∧
      W (setsAfter s (shareOrder order)) ((shareOrder order).contains .floor)
        ((shareOrder order).map (shareCost s c)).sum ((shareOrder order).map (shareCost s c)).sum (commitStep order rp s) := by
    refine takeShares_induction (P := fun done u => Underway s rp done u ∧
      W (setsAfter s done) (done.contains .floor) (done.map (shareCost s c)).sum (done.map (shareCost s c)).sum u) order ⟨underway_start hrooms hrp, h.start⟩ fun done x u hx ⟨hu, hw⟩ => ?_
    refine ⟨hu.share hrooms hrp hx, ?_⟩
    have members : membersOf u = membersOf (rebuilt rp s) := funext hu.progress.members
    rw [List.map_append, List.sum_append, List.map_singleton, List.sum_singleton]
    have calm (hne : x ≠ .mix) (hnf : x ≠ .floor) (hc : shareCost s c x = 0) {v : State} (hv : Idle u v) :
        W (setsAfter s (done ++ [x])) ((done ++ [x]).contains .floor) ((done.map (shareCost s c)).sum + shareCost s c x)
          ((done.map (shareCost s c)).sum + shareCost s c x) v := by
      rw [setsAfter_append s done hne, hc, show (done ++ [x]).contains .floor = done.contains .floor by
        rw [Bool.eq_iff_iff]; simp [Ne.symm hnf]]
      exact h.idle hv hw
    cases x with
    | mix =>
      rw [setsAfter_mix, show (done ++ [CommitShare.mix]).contains .floor = done.contains .floor by
        rw [Bool.eq_iff_iff]; simp]
      rw [setsAfter, if_neg hx.fresh] at hw
      exact h.mix members hw
    | floor =>
      rw [setsAfter_append s done (c := .floor) nofun, show (done ++ [CommitShare.floor]).contains .floor = true by simp]
      rw [show done.contains .floor = false by simpa using hx.fresh] at hw
      exact h.floor (setsAfter_cases s done) members hw
    | booths => exact calm nofun nofun rfl (commitBooths_boothFrame ..).idle
    | taps => exact calm nofun nofun rfl (commitTaps_boothFrame u).idle
    | startTest => exact calm nofun nofun rfl (startTest_idle ..)
    | trunk k =>
      have hf : done.contains .floor = true := List.contains_iff_mem.mpr (hx.afterFloor rfl)
      rw [setsAfter_append s done (c := .trunk k) nofun, show (done ++ [CommitShare.trunk k]).contains .floor = true by simpa using hf]
      rw [hf] at hw
      have replayed := (h.events _).commitTrunk (rp.affected.flatMap (membersOf s)) k hw
      rw [hu.progress.intake k (by simpa using hx.fresh)] at replayed
      exact replayed
  have taken := all.2
  rwa [setsAfter, if_pos (mem_shareOrder order (by decide)),
    List.contains_iff_mem.mpr (mem_shareOrder order (by decide))] at taken

/-- A commit keeps a condition that its shares keep. -/
theorem takeCommit_keeps {Q : State → Prop} {s : State} (order : List CommitShare) (hs : Q s)
    (commit : ∀ rp, s.repartition = some rp → Q (commitStep order rp s)) : Q (takeCommit order s) := by
  unfold takeCommit
  split
  · next rp hrp =>
    split
    · exact commit rp hrp
    · exact hs
  · exact hs

end Sys2Proof.Machine
end


section
/-! Floor entries stay housed, and holders stay chairs with speaker entries, through a commit (R62, R67, R69, R92 to R95,
R97, R112). -/

namespace Sys2Proof.Machine
open Sys2Proof.Safety

/-! ### Gathered floors (R92) -/

section
variable {s : State} {affected Z : List Segment}

theorem mem_gathered_speakers {e : Speaker} :
    e ∈ (gatherFloor s affected Z).speakers ↔ (∃ b ∈ affected, e ∈ (s.floors.get b).speakers) ∧ segmentOf e.seat ∈ Z := by
  simp [gatherFloor, mem_sortBy, floorOf]

theorem mem_gathered_queue {q : Request} :
    q ∈ (gatherFloor s affected Z).queue ↔ (∃ b ∈ affected, q ∈ (s.floors.get b).queue) ∧ segmentOf q.seat ∈ Z := by
  simp [gatherFloor, floorOf]

theorem mem_gathered_holders {x : Holder} :
    x ∈ (gatherFloor s affected Z).holders ↔ (∃ b ∈ affected, x ∈ (s.floors.get b).holders) ∧ segmentOf x.seat ∈ Z := by
  simp [gatherFloor, floorOf]

/-- Entries of different rooms are of different seats, so that gathering them keeps one to a seat. -/
theorem nodup_gathered {α : Type} {f : Floor → List α} {seat : α → SeatId} (hn : affected.Nodup)
    (one : ∀ a, ((f (s.floors.get a)).map seat).Nodup)
    (home : ∀ a, ∀ x ∈ f (s.floors.get a), roomOf s (segmentOf (seat x)) = a) :
    (((affected.map (floorOf s)).flatMap f).map seat).Nodup := by
  rw [List.flatMap_map, List.map_flatMap, List.nodup_flatMap]
  refine ⟨fun a _ => one a, hn.imp fun {a b} hab i ha hb => hab ?_⟩
  obtain ⟨x, hx, rfl⟩ := List.mem_map.mp ha
  obtain ⟨y, hy, hxy⟩ := List.mem_map.mp hb
  rw [← home a x hx, ← home b y hy, hxy]

theorem Housed.room_of_request (h : Housed s) {a : Segment} {q : Request} (hq : q ∈ (s.floors.get a).queue) :
    roomOf s (segmentOf q.seat) = a :=
  h.rooms.mp ((h.floors a).within.2 q hq)

theorem gatherFloor_housed (h : Housed s) (hn : affected.Nodup) (Z : List Segment) :
    FloorHoused Z (gatherFloor s affected Z) where
  speakers := by
    have all := nodup_gathered (f := Floor.speakers) hn (fun a => (h.floors a).speakers) fun _ _ he =>
      h.room_of_speaker he
    exact ((sortBy_perm ..).map _).nodup_iff.mpr (all.sublist (List.filter_sublist.map _))
  queue :=
    (nodup_gathered (f := Floor.queue) hn (fun a => (h.floors a).queue) fun _ _ hq => h.room_of_request hq).sublist
      (List.filter_sublist.map _)
  apart e he q hq := by
    obtain ⟨⟨b, -, he⟩, -⟩ := mem_gathered_speakers.mp he
    obtain ⟨⟨c, -, hq⟩, -⟩ := mem_gathered_queue.mp hq
    intro heq
    have same : b = c := by rw [← h.room_of_speaker he, ← h.room_of_request hq, heq]
    subst same
    exact (h.floors b).apart e he q hq heq
  within := ⟨fun _ he => (mem_gathered_speakers.mp he).2, fun _ hq => (mem_gathered_queue.mp hq).2⟩

theorem gatherFloor_chaired (h : Chaired s) (hn : affected.Nodup) (Z : List Segment) :
    FloorChaired (chairOf s) (gatherFloor s affected Z) where
  nodup := by
    refine (nodup_gathered (f := Floor.holders) hn (fun a => (h.floors a).nodup) fun a x hx => ?_).sublist
      (List.filter_sublist.map _)
    obtain ⟨e, he, hs, -⟩ := (h.floors a).entries x hx
    rw [← hs]
    exact h.housed.room_of_speaker he
  entries x hx := by
    obtain ⟨⟨b, hb, hx⟩, hz⟩ := mem_gathered_holders.mp hx
    obtain ⟨e, he, hs, hc⟩ := (h.floors b).entries x hx
    exact ⟨e, mem_gathered_speakers.mpr ⟨⟨b, hb, he⟩, hs ▸ hz⟩, hs, hc⟩
  chairs e he := by
    obtain ⟨⟨b, -, he⟩, -⟩ := mem_gathered_speakers.mp he
    exact (h.floors b).chairs e he

end

/-! ### Capped floors (R94, R112) -/

section
variable {f : Floor} {Z : List Segment} {chair : SeatId → Bool}

theorem capped_speakers (now : Clock) (f : Floor) :
    ∃ g : Speaker → Speaker, (∀ e, g e = { e with byPriority := (g e).byPriority }) ∧
      (f.capped now).speakers = f.speakers.map g :=
  ⟨_, fun e => by split <;> rfl, rfl⟩

theorem FloorHoused.capped (h : FloorHoused Z f) (now : Clock) : FloorHoused Z (f.capped now) := by
  obtain ⟨g, hg, speakers⟩ := capped_speakers now f
  refine h.of_perm ?_ (sortBy_perm ..)
  rw [speakers, List.map_map]
  exact .of_eq (List.map_congr_left fun e _ => by rw [Function.comp, hg])

theorem mem_capped_holders {now : Clock} {x : Holder} (hx : x ∈ (f.capped now).holders) : x ∈ f.holders :=
  mem_sortBy.mp (List.mem_of_mem_take hx)

theorem FloorChaired.capped (h : FloorChaired chair f) (now : Clock) : FloorChaired chair (f.capped now) := by
  obtain ⟨g, hg, speakers⟩ := capped_speakers now f
  refine ⟨?_, fun x hx => ?_, fun x hx => ?_⟩
  · have sorted := ((sortBy_perm (holderBefore now) f.holders).map Holder.seat).nodup_iff.mpr h.nodup
    exact sorted.sublist ((List.take_sublist ..).map _)
  · obtain ⟨e, he, hs, hc⟩ := h.entries x (mem_capped_holders hx)
    refine ⟨g e, by rw [speakers]; exact List.mem_map_of_mem he, ?_, ?_⟩
    · rw [hg]; exact hs
    · rw [hg]; exact hc
  · rw [speakers] at hx
    obtain ⟨e, he, rfl⟩ := List.mem_map.mp hx
    rw [hg]
    exact h.chairs e he

end

/-! ### The rooms of a commit -/

section
variable {s u : State} {rp : Repartition} (hrooms : roomsOk s) (hrp : s.repartition = some rp)
include hrooms hrp

/-- A room that stays keeps its members (R25, R29). -/
theorem members_kept {a g : Segment} (ha : a ∉ rp.affected) (hg : g ∈ membersOf s a) : g ∈ membersOf (rebuilt rp s) a := by
  have anchor := (mem_membersOf_iff hrooms.1).mp hg
  have anchored : anchorIn (committedMap s) a = a := by rw [← anchor, anchorIn_anchorIn]
  have same : component rp.target a = component (committedMap s) a := by
    by_contra hne
    exact ha ((mem_affected_iff hrooms hrp).mpr ⟨anchored, hne⟩)
  have inside : g ∈ component rp.target a := by
    rw [same, ← anchor, component_anchorIn]
    exact self_mem_component _ g
  rw [mem_members_rebuilt hrooms hrp, anchorIn_congr (component_eq_of_mem inside), anchorIn_congr same, anchored]

theorem rooms_rebuilt (hu : membersOf u = membersOf (rebuilt rp s)) {a g : Segment} :
    g ∈ membersOf u a ↔ roomOf u g = a := by
  rw [hu, roomOf_congr (congrFun hu), mem_members_rebuilt hrooms hrp, roomOf_rebuilt hrooms hrp]

theorem affected_nodup : rp.affected.Nodup := by
  rw [(affected_of_roomsOk hrooms hrp).1]
  exact (List.nodup_finRange 6).filter _

omit hrooms hrp in
theorem newRooms_nodup (s : State) (m : WallMap) : (newRooms s m).Nodup :=
  ((List.nodup_finRange 6).filter _).filter _

/-- The floors once the records of the affected rooms are discarded (R92). -/
def clearedFloors (affected : List Segment) (u : State) : State :=
  u.setFloors (Tab.ofFn fun a => if affected.contains a then Floor.empty else u.floors.get a)

omit hrooms hrp in
theorem clearedFloors_get (affected : List Segment) (u : State) (a : Segment) :
    (clearedFloors affected u).floors.get a = if a ∈ affected then Floor.empty else u.floors.get a := by
  rw [clearedFloors, State.setFloors_floors, Tab.get_ofFn]
  simp only [List.contains_iff_mem]

omit hrooms hrp in
theorem floorHoused_empty (Z : List Segment) : FloorHoused Z Floor.empty :=
  ⟨.nil, .nil, nofun, nofun, nofun⟩

theorem cleared_housed (h : Housed s) (hf : u.floors = s.floors) (hu : membersOf u = membersOf (rebuilt rp s)) :
    Housed (clearedFloors rp.affected u) where
  rooms := rooms_rebuilt hrooms hrp hu
  floors a := by
    rw [clearedFloors_get]
    split
    · exact floorHoused_empty _
    · next ha =>
      obtain ⟨hs, hq, apart, within⟩ := h.floors a
      rw [hf, show membersOf (clearedFloors rp.affected u) = membersOf (rebuilt rp s) from hu]
      exact ⟨hs, hq, apart, fun e he => members_kept hrooms hrp ha (within.1 e he),
        fun q hq => members_kept hrooms hrp ha (within.2 q hq)⟩

theorem cleared_chaired (h : Chaired s) (hf : u.floors = s.floors) (hc : chairOf u = chairOf s)
    (hu : membersOf u = membersOf (rebuilt rp s)) : Chaired (clearedFloors rp.affected u) where
  housed := cleared_housed hrooms hrp h.housed hf hu
  floors a := by
    rw [clearedFloors_get, show chairOf (clearedFloors rp.affected u) = chairOf s from hc]
    split
    · exact ⟨.nil, nofun, nofun⟩
    · rw [hf]
      exact h.floors a

end

/-! ### Building a floor -/

section
variable {a : Segment} {s t u : State} {i : SeatId}

theorem Housed.place (h : Housed u) (hs : Housed s) {affected : List Segment} (hn : affected.Nodup) (a : Segment) :
    Housed (u.modFloor a fun _ => gatherFloor s affected (membersOf u a)) :=
  h.modify (f := fun _ => gatherFloor s affected (membersOf u a)) rfl rfl fun _ => gatherFloor_housed hs hn _

theorem Chaired.place (h : Chaired u) (hs : Chaired s) (hc : chairOf u = chairOf s) {affected : List Segment}
    (hn : affected.Nodup) (a : Segment) : Chaired (u.modFloor a fun _ => gatherFloor s affected (membersOf u a)) :=
  h.modify (f := fun _ => gatherFloor s affected (membersOf u a)) (h.housed.place hs.housed hn a) rfl rfl fun _ => by
    rw [hc]
    exact gatherFloor_chaired hs hn _

theorem Housed.requeues (h : Housed s) (hz : segmentOf i ∈ membersOf s a) (hs : hasSpeaker (floorOf s a) i = false)
    (hq : hasRequest (floorOf s a) i = false) : Housed (requeueSpeaker a s i) := by
  obtain ⟨added, only, floors⟩ := requeueSpeaker_queue a s i
  refine h.modify (requeueSpeaker_floorFrame a i s).membersOf floors fun own => ?_
  rcases only with rfl | rfl
  · simpa using own
  · exact own.queued (q := returnedRequest s i) hz hs hq

theorem Housed.caps (h : Housed s) (a : Segment) : Housed (s.modFloor a (Floor.capped s.clock)) :=
  h.modify rfl rfl fun own => own.capped _

theorem Housed.suspends (h : Housed s) (a : Segment) : Housed (suspendAll a s) :=
  h.modify (suspendAll_floorFrame a s).membersOf (suspendAll_floors a s) fun own =>
    own.map_speakers (suspended_seat s.clock) rfl rfl

theorem Housed.resumes (h : Housed s) (a : Segment) : Housed (resumeAll a s) :=
  h.modify (resumeAll_floorFrame a s).membersOf (resumeAll_floors a s) fun own =>
    own.map_speakers (resumed_seat s.clock) rfl rfl

theorem Housed.mayGrant_queued (h : Housed s) (hg : ∃ q ∈ (floorOf s a).queue, q.seat = i) :
    segmentOf i ∈ membersOf s a ∧ hasSpeaker (floorOf s a) i = false :=
  h.mayGrant (.inl hg)

/-- The seats that are chairs stay chairs while floors are built. -/
structure ChairedAs (chair : SeatId → Bool) (s : State) : Prop where
  chaired : Chaired s
  chairs : chairOf s = chair

theorem ChairedAs.of_frame {chair : SeatId → Bool} (h : ChairedAs chair s) (ht : Chaired t) (frame : FloorFrame s t) :
    ChairedAs chair t :=
  ⟨ht, by rw [← h.chairs]; funext i; rw [chairOf, frame.seats, chairOf]⟩

theorem chaired_buildCondition (sets : Sets) (chair : SeatId → Bool) (a : Segment) :
    BuildCondition sets a (fun _ _ => ChairedAs chair) fun _ _ => ChairedAs chair where
  housed h := h.chaired.housed.floors a
  more _ _ h := h
  trims _ _ h := h.of_frame (h.chaired.removes ..) (removeSpeaker_floorFrame ..)
  requeues {_ _ s i} hz hs hq h := by
    obtain ⟨added, -, floors⟩ := requeueSpeaker_queue a s i
    have frame := requeueSpeaker_floorFrame a i s
    exact h.of_frame (h.chaired.modify (h.chaired.housed.requeues hz hs hq) frame.seats floors fun own =>
      own.of_holders rfl (.refl _)) frame
  caps {_ _ s} _ h := h.of_frame (h.chaired.modify (h.chaired.housed.caps a) rfl rfl fun own => own.capped s.clock)
    (modFloor_floorFrame ..)
  idle hi h := ⟨(chaired_floorCondition sets).idle (m := 0) (n := 0) hi h.chaired, hi.chairOf.trans h.chairs⟩
  dequeues i h := h.of_frame ((chaired_floorCondition sets).takesRequest (a := a) (m := 0) (n := 0) i h.chaired)
    (takeRequest_floorFrame ..)
  suspends {_ _ s} h := h.of_frame (h.chaired.modify (h.chaired.housed.suspends a) (suspendAll_floorFrame a s).seats
    (suspendAll_floors a s) fun own =>
      own.map_speakers (suspended_seat s.clock) (suspended_chairAtGrant s.clock) rfl (.refl _)) (suspendAll_floorFrame a s)
  resumes {_ _ s} h := h.of_frame (h.chaired.modify (h.chaired.housed.resumes a) (resumeAll_floorFrame a s).seats
    (resumeAll_floors a s) fun own =>
      own.map_speakers (resumed_seat s.clock) (resumed_chairAtGrant s.clock) rfl (.refl _)) (resumeAll_floorFrame a s)
  grants hg _ h := by
    obtain ⟨hz, hs⟩ := h.chaired.housed.mayGrant_queued hg
    exact h.of_frame (h.chaired.grants sets .none false hz hs) (grantSeat_floorFrame ..)

end

/-! ### The shares of the partition controller and the mix engine -/

/-- The mix engine's rooms with the release entries gathered for the new ones (R159, R160). -/
def mixesPlaced (affected news : List Segment) (s : State) : State :=
  s.setMixes (Tab.ofFn fun a =>
    if news.contains a then newMix s a (affected.flatMap fun a => (s.mixes.get a).release)
    else if affected.contains a then MixRoom.atReset
    else s.mixes.get a)

/-- The release sets of the new rooms with their newest entries, before any room is reported ready (R160). -/
def mixesMade (affected news : List Segment) (s : State) : State :=
  news.foldl (fun s a => capRelease a s) (mixesPlaced affected news s)

theorem commitMix_idle (affected news : List Segment) (s : State) :
    Idle (mixesMade affected news s) (commitMix affected news s) :=
  .foldl (fun s a => reportReady_idle a s) _ _

theorem mixesMade_floorFrame (affected news : List Segment) (s : State) :
    FloorFrame (mixesPlaced affected news s) (mixesMade affected news s) :=
  .foldl (fun s a => capRelease_floorFrame a s) news _

theorem commitMix_members (affected news : List Segment) (s : State) :
    membersOf (commitMix affected news s) = membersOf s := by
  rw [funext (commitMix_idle ..).members, (mixesMade_floorFrame ..).membersOf]
  rfl

theorem commitMix_chairs (affected news : List Segment) (s : State) : chairOf (commitMix affected news s) = chairOf s := by
  rw [(commitMix_idle ..).chairOf]
  funext i
  rw [chairOf, (mixesMade_floorFrame ..).seats]
  rfl

theorem commitPartition_seats (rp : Repartition) (s : State) : (commitPartition rp s).seats = s.seats := by
  rw [commitPartition_sends, sendAll_frame, rebuilt_frame]

/-! ### The commit -/

/-- The hall of a commit, before and after the floor controller's share. -/
def ChairedUnderway (s : State) (floored : Bool) (u : State) : Prop :=
  if floored = true then Chaired u else u.floors = s.floors ∧ chairOf u = chairOf s

section
variable {s : State} {rp : Repartition} (hrooms : roomsOk s) (hrp : s.repartition = some rp)
include hrooms hrp

theorem commitFloors_chaired (h : Chaired s) (sets : Sets) {u : State} (hf : u.floors = s.floors)
    (hc : chairOf u = chairOf s) (hu : membersOf u = membersOf (rebuilt rp s)) {news : List Segment} (hn : news.Nodup) :
    Chaired (commitFloors sets s rp.affected news u) :=
  (foldl_buildFloor (B := fun _ _ _ _ => ChairedAs (chairOf s)) (D := fun _ _ _ => ChairedAs (chairOf s))
    (fun {a _ _ _ _} _ hv => ⟨hv.chaired.place h hv.chairs (affected_nodup hrooms hrp) a, hv.chairs⟩)
    (fun a _ _ => chaired_buildCondition sets _ a) hn (m := 0) (n := 0) (s := clearedFloors rp.affected u)
    ⟨cleared_chaired hrooms hrp h hf hc hu, hc⟩).chaired

theorem chaired_commitCondition (h : Chaired s) :
    CommitCondition s rp 0 (fun _ fl _ _ => ChairedUnderway s fl) fun _ _ _ _ _ => Chaired where
  start := ⟨commitPartition_floors rp s, by
    funext i
    rw [chairOf, commitPartition_seats, chairOf]⟩
  idle {_ fl _ _ _ _} hi hu := by
    cases fl with
    | true => exact (chaired_floorCondition .current).idle (m := 0) (n := 0) hi hu
    | false => exact ⟨hi.floors.trans hu.1, hi.chairOf.trans hu.2⟩
  mix {fl _ _ u} hm hu := by
    cases fl with
    | true => exact hu.congr (hu.housed.congr (commitMix_members ..) (commitMix_floors ..)) (commitMix_chairs ..) (commitMix_floors ..)
    | false => exact ⟨(commitMix_floors ..).trans hu.1, (commitMix_chairs ..).trans hu.2⟩
  floor _ hm hu := commitFloors_chaired hrooms hrp h _ hu.1 hu.2 hm (newRooms_nodup ..)
  events := chaired_floorCondition

end

theorem takeCommit_chaired (order : List CommitShare) {s : State} (hrooms : roomsOk s) (h : Chaired s) :
    Chaired (takeCommit order s) :=
  takeCommit_keeps order h fun _ hrp => (chaired_commitCondition hrooms hrp h).shares hrooms hrp order

/-! ### Every step -/

theorem powerOn_floors (levels : WallMap) (a : Segment) : (State.powerOn levels).floors.get a = Floor.empty := by
  simp [State.powerOn]

theorem housed_powerOn (levels : WallMap) : Housed (State.powerOn levels) where
  rooms := rooms_of_roomsOk (roomsOk_powerOn levels)
  floors a := by
    rw [powerOn_floors]
    exact floorHoused_empty _

theorem chaired_powerOn (levels : WallMap) : Chaired (State.powerOn levels) where
  housed := housed_powerOn levels
  floors a := by
    rw [powerOn_floors]
    exact ⟨.nil, nofun, nofun⟩

/-- Settles O12: SUSPENDED entries follow the holds, and holders stay chairs with speaker entries. -/
theorem stepKeepsPriority : Obligations.StepKeepsPriority := by
  refine ⟨fun _ _ => step_priorityOk, fun s t hrooms hentries hholders ht => ?_⟩
  have chaired : Chaired s := ⟨housed_of_ok hrooms hentries, holdersOk_iff.mp hholders⟩
  have kept : Chaired t := chaired_eventCondition.keeps (fun h => h.congr (h.housed.congr rfl rfl) rfl rfl)
    chaired_powerOn
    (fun order l => takeCommit_chaired order (s := { s with pending := l }) hrooms
      (chaired.congr (chaired.housed.congr rfl rfl) rfl rfl)) chaired ht
  exact holdersOk_iff.mpr kept.floors

end Sys2Proof.Machine
end


section
/-! What a condition on the sounding seats, with their channels and release entries, must survive (R50, R51, R75, R148,
R149). -/

namespace Sys2Proof.Machine
open Sys2Proof.Safety

/-! ### Changes that leave the sounding seats alone -/

/-- The speaker entries keep their seats and places, and release sets, channels and the release counter are as they were. -/
structure Quiet (s t : State) : Prop where
  members : membersOf t = membersOf s
  speakers : ∀ a, (t.floors.get a).speakers.map Speaker.seat = (s.floors.get a).speakers.map Speaker.seat
  releases : ∀ a, (t.mixes.get a).release = (s.mixes.get a).release
  channels : ∀ k, (t.trunks.get k).channels = (s.trunks.get k).channels
  releaseCounter : t.releaseCounter = s.releaseCounter

section
variable {s t : State} {a : Segment} {f : Floor → Floor}

theorem Idle.quiet (h : Idle s t) : Quiet s t :=
  ⟨funext h.members, fun _ => by rw [h.floors], h.releases, h.channels, h.releaseCounter⟩

theorem Quiet.of_floor (members : membersOf t = membersOf s) (floors : t.floors = s.floors.modify a f)
    (speakers : ∀ f', (f f').speakers.map Speaker.seat = f'.speakers.map Speaker.seat) (mixes : t.mixes = s.mixes)
    (trunks : t.trunks = s.trunks) (counter : t.releaseCounter = s.releaseCounter) : Quiet s t where
  members := members
  speakers b := by
    rw [floors, Tab.get_modify]
    split
    · next hb => subst hb; exact speakers _
    · rfl
  releases b := by rw [mixes]
  channels k := by rw [trunks]
  releaseCounter := counter

theorem map_seats {g : Speaker → Speaker} (hg : ∀ e, (g e).seat = e.seat) (l : List Speaker) :
    (l.map g).map Speaker.seat = l.map Speaker.seat := by
  rw [List.map_map]
  exact List.map_congr_left fun e _ => hg e

theorem takeRequest_quiet (a : Segment) (i : SeatId) (s : State) : Quiet s (takeRequest a i s) :=
  .of_floor (takeRequest_floorFrame a i s).membersOf (takeRequest_floors a i s) (fun _ => rfl) (takeRequest_mixes a i s)
    (by rw [takeRequest_eq]; rfl) (by rw [takeRequest_eq]; rfl)

theorem unheld_quiet (a : Segment) (i : SeatId) (s : State) : Quiet s (s.modFloor a (Floor.unheld i)) :=
  .of_floor rfl (State.modFloor_floors ..) (fun _ => rfl) rfl rfl rfl

theorem resumeAll_quiet (a : Segment) (s : State) : Quiet s (resumeAll a s) :=
  .of_floor (resumeAll_floorFrame a s).membersOf (resumeAll_floors a s) (fun f => map_seats (resumed_seat s.clock) f.speakers)
    (resumeAll_mixes a s) (by rw [resumeAll_eq, sendAll_trunks]; rfl) (by rw [resumeAll_eq, sendAll_releaseCounter]; rfl)

theorem suspendAll_quiet (a : Segment) (s : State) : Quiet s (suspendAll a s) :=
  .of_floor (suspendAll_floorFrame a s).membersOf (suspendAll_floors a s)
    (fun f => map_seats (suspended_seat s.clock) f.speakers) (suspendAll_mixes a s)
    (by rw [suspendAll_eq, sendAll_trunks]; rfl) (by rw [suspendAll_eq, sendAll_releaseCounter]; rfl)

theorem joinHold_quiet (a : Segment) (i : SeatId) (s : State) : Quiet s (joinHold a i s) :=
  .of_floor (joinHold_floorFrame a i s).membersOf (joinHold_floors a i s)
    (fun f => map_seats (suspended_seat s.clock) f.speakers) (joinHold_mixes a i s)
    (by rw [joinHold_eq, sendAll_trunks]; rfl) (by rw [joinHold_eq, sendAll_releaseCounter]; rfl)

theorem enqueueSeat_quiet (a : Segment) (i : SeatId) (reason : FloorReason) (s : State) :
    Quiet s (enqueueSeat a i reason s) :=
  .of_floor (enqueueSeat_floorFrame a i reason s).membersOf (enqueueSeat_floors a i reason s) (fun _ => rfl) rfl rfl rfl

theorem requeueSpeaker_quiet (a : Segment) (i : SeatId) (s : State) : Quiet s (requeueSpeaker a s i) := by
  obtain ⟨l, -, floors⟩ := requeueSpeaker_queue a s i
  refine .of_floor (requeueSpeaker_floorFrame a i s).membersOf floors (fun _ => rfl) ?_ ?_ ?_
  all_goals
    unfold requeueSpeaker
    split <;> rfl

theorem capped_quiet (a : Segment) (s : State) : Quiet s (s.modFloor a (Floor.capped s.clock)) :=
  .of_floor rfl (State.modFloor_floors ..) (fun f => by
    obtain ⟨g, hg, speakers⟩ := capped_speakers s.clock f
    rw [speakers]
    exact map_seats (fun e => by rw [hg]) _) rfl rfl rfl

end

/-! ### Conditions on the sounding seats -/

/-- A condition on the sounding seats, with the stamps `m` that may have been taken from the release counter: it is enough
that it survives removals, everything of a seat leaving, and grants. -/
structure SoundCondition (sets : Sets) (P : Nat → State → Prop) : Prop where
  homed : ∀ {m s}, P m s → Homed sets s
  capped : ∀ {m s}, P m s → ∀ a, (s.floors.get a).speakers.length ≤ Config.speakerCap
  more : ∀ {m m' s}, m ≤ m' → P m s → P m' s
  quiet : ∀ {m s t}, Quiet s t → Housed t → P m s → P m t
  removes : ∀ {a m s i e reason}, keepsGain reason = true → speakerOf (s.floors.get a) i = some e → P m s →
    P (m + 1) (removeSpeaker sets a i reason s)
  drops : ∀ {m s i reason}, keepsGain reason = false → P m s → P m (dropSeat sets (seatRoom s i) i reason s)
  grants : ∀ {a m s i} reason byPriority, segmentOf i ∈ membersOf s a → hasSpeaker (floorOf s a) i = false →
    listHasRoom (floorOf s a) = true → P m s → P m (grantSeat sets a i reason byPriority s)

theorem speakerOf_mem {f : Floor} {e : Speaker} (he : e ∈ f.speakers) : ∃ x, speakerOf f e.seat = some x := by
  have found : (speakerOf f e.seat).isSome = true := by
    rw [← hasSpeaker_eq_isSome]
    exact hasSpeaker_iff.mpr ⟨e, he, rfl⟩
  exact Option.isSome_iff_exists.mp found

theorem listHasRoom_iff {f : Floor} : listHasRoom f = true ↔ f.speakers.length < Config.speakerCap := by
  simp [listHasRoom]

section
variable {sets : Sets} {P : Nat → State → Prop} (h : SoundCondition sets P)
include h

theorem SoundCondition.removesAny {a : Segment} {m : Nat} {s : State} (i : SeatId) {reason : FloorReason}
    (hk : keepsGain reason = true) (hs : P m s) : P (m + 1) (removeSpeaker sets a i reason s) := by
  cases he : speakerOf (s.floors.get a) i with
  | none =>
    rw [removeSpeaker_none he]
    exact h.more (Nat.le_succ m) hs
  | some e => exact h.removes hk he hs

/-- A removal makes room for a grant. -/
theorem SoundCondition.replaces {a : Segment} {m : Nat} {s : State} {i : SeatId} {e : Speaker} (reason reason' : FloorReason)
    (byPriority : Bool) (hk : keepsGain reason = true) (hg : MayGrant s a i) (he : e ∈ (floorOf s a).speakers)
    (hs : P m s) : P (m + 1) (grantSeat sets a i reason' byPriority (removeSpeaker sets a e.seat reason s)) := by
  obtain ⟨x, hx⟩ := speakerOf_mem he
  have removed := h.removes (a := a) hk hx hs
  obtain ⟨hz, silent⟩ := (h.homed removed).housed.mayGrant (hg.after_removal sets e.seat reason)
  refine h.grants reason' byPriority hz silent (listHasRoom_iff.mpr ?_) removed
  rw [floor_removeSpeaker, Floor.closed_speakers, List.length_eraseP_of_mem he (by simp)]
  have := h.capped hs a
  have pos := List.length_pos_of_mem he
  simp only [Config.speakerCap, floorOf] at this pos ⊢
  omega

theorem SoundCondition.floorCondition : FloorCondition sets (fun m _ => P m) fun _ _ m _ => P m where
  idle hi hs := h.quiet hi.quiet ((housed_floorCondition sets).idle (m := 0) (n := 0) hi (h.homed hs).housed) hs
  waits hi hs := h.quiet hi.quiet ((housed_floorCondition sets).idle (m := 0) (n := 0) hi (h.homed hs).housed) hs
  mono hm _ hs := h.more hm hs
  spares hs := h.more (Nat.le_succ _) hs
  opens hs := hs
  closes hs _ := hs
  resumes hs _ := h.quiet (resumeAll_quiet ..) ((h.homed hs).housed.resumes _) hs
  removes i _ hk hs := h.removesAny i hk hs
  dequeues {a w _ _ _} i hs := h.quiet (takeRequest_quiet ..)
    ((housed_floorCondition sets).dequeues (a := a) (w := w) (m := 0) (n := 0) i (h.homed hs).housed) hs
  leaves {a w _ _ _} i hs := h.quiet (unheld_quiet ..)
    ((housed_floorCondition sets).leaves (a := a) (w := w) (m := 0) (n := 0) i (h.homed hs).housed) hs
  drops hk hs := h.drops hk hs
  grants reason byPriority hg room _ hs := by
    obtain ⟨hz, silent⟩ := (h.homed hs).housed.mayGrant hg
    exact h.grants reason byPriority hz silent room hs
  enqueues reason hr hk hq hs := h.quiet (enqueueSeat_quiet ..)
    ((housed_floorCondition sets).enqueues (m := 0) (n := 0) reason hr hk hq (h.homed hs).housed) hs
  joins _ _ _ _ hs := h.quiet (joinHold_quiet ..) ((h.homed hs).housed.joins ..) hs
  replaces reason reason' hk _ hg he _ hs := h.replaces reason reason' false hk hg he hs
  bumps _ _ _ hk he _ hs := by
    have replaced := h.replaces .priorityBump .bySeat true rfl (.inr ⟨.inl rfl, hk⟩) he hs
    exact h.quiet (joinHold_quiet ..) ((h.homed replaced).housed.joins ..) replaced

theorem SoundCondition.eventCondition (hc : sets = .current)
    (releaseEnd : ∀ {m s} i, P m s → P m (releaseEndOf (seatRoom s i) i s))
    (frame : ∀ {m s} levels inputs, P m s → P m (frameStep levels inputs s)) :
    EventCondition (fun m _ => P m) fun _ _ m _ => P m where
  toFloorCondition := hc ▸ h.floorCondition
  setSeat {_ _ s i} enabled chair _ hs := h.quiet (s := s) (t := s.modSeat i fun r => { r with enabled := enabled, chair := chair })
    ⟨rfl, fun _ => rfl, fun _ => rfl, fun _ => rfl, rfl⟩ ((h.homed hs).housed.congr rfl rfl) hs
  releaseEnd i hs := releaseEnd i hs
  frame levels inputs hs := frame levels inputs hs

end

end Sys2Proof.Machine
end


section
/-! Speaker lists, release sets and holder sets stay within their capacities (R65, R97, R148, R149, R160). -/

namespace Sys2Proof.Machine
open Sys2Proof.Safety

/-! ### Release sets -/

/-- The seats with a release entry under the anchor `o`. -/
def releaseSeats (s : State) (o : Segment) : List SeatId :=
  (s.mixes.get o).release.map Release.seat

/-- At most six release entries of a room stand under an anchor. -/
def PartsBounded (s : State) : Prop :=
  ∀ o a, (releaseSeats s o).countP (fun i => (membersOf s a).contains (segmentOf i)) ≤ Config.releaseCap

section
variable {sets : Sets} {a o : Segment} {s t : State} {i : SeatId}

theorem releaseSeats_modify {f : List Release → List Release}
    (ht : t.mixes = s.mixes.modify o fun m => { m with release := f m.release }) (b : Segment) :
    releaseSeats t b = if o = b then (f (s.mixes.get o).release).map Release.seat else releaseSeats s b := by
  rw [releaseSeats, ht, Tab.get_modify]
  split
  · next h => subst h; rfl
  · rfl

/-- Entries may leave. -/
theorem PartsBounded.of_sublist (h : PartsBounded s) (hm : membersOf t = membersOf s)
    (ht : ∀ o, (releaseSeats t o).Sublist (releaseSeats s o)) : PartsBounded t := fun o a => by
  rw [hm]
  exact ((ht o).countP_le ..).trans (h o a)

theorem releaseSeats_filter {p : Release → Bool}
    (ht : t.mixes = s.mixes.modify o fun m => { m with release := m.release.filter p }) (b : Segment) :
    (releaseSeats t b).Sublist (releaseSeats s b) := by
  rw [releaseSeats_modify ht]
  split
  · next h => subst h; exact List.filter_sublist.map _
  · exact .refl _

theorem removeSpeaker_releaseSeats {e : Speaker} {reason : FloorReason} (he : speakerOf (s.floors.get a) i = some e)
    (hk : keepsGain reason = true) (b : Segment) :
    releaseSeats (removeSpeaker sets a i reason s) b =
      if sets.roomFor a i = b then
        (keptReleases sets (membersOf s a) ((s.mixes.get b).release ++ [newRelease s i e.gain])).map Release.seat
      else releaseSeats s b := by
  rw [releaseSeats_modify (f := fun l => keptReleases sets (membersOf s a) (l ++ [newRelease s i e.gain]))
    (removeSpeaker_mixes he hk)]
  split
  · next h => subst h; rfl
  · rfl

/-- A removal puts its entry in the part of its own room, of which six entries stay (R149, R160). -/
theorem PartsBounded.removes (h : PartsBounded s) (hs : Housed s) {e : Speaker} {reason : FloorReason}
    (he : speakerOf (s.floors.get a) i = some e) (hk : keepsGain reason = true) :
    PartsBounded (removeSpeaker sets a i reason s) := fun o b => by
  rw [(removeSpeaker_floorFrame ..).membersOf, removeSpeaker_releaseSeats he hk]
  split
  · next ho =>
    by_cases hb : b = a
    · subst hb
      rw [List.countP_map, List.countP_eq_length_filter]
      exact length_keptReleases ..
    · have foreign : (membersOf s b).contains (segmentOf i) = false := by
        rw [← Bool.not_eq_true, List.contains_iff_mem, hs.rooms, hs.rooms.mp (hs.resident_of_speaker he)]
        exact Ne.symm hb
      refine (((keptReleases_sublist ..).map Release.seat).countP_le ..).trans ?_
      rw [List.map_append, List.countP_append, List.map_singleton, List.countP_singleton, newRelease, if_neg (ne_true_of_eq_false foreign)]
      exact h o b
  · exact h o b

end

/-! ### Speaker lists and release sets -/

/-- Entries are at home, and the lists of the hall are within their capacities, but for the speaker lists that `wide`
names. -/
structure Bounded (sets : Sets) (wide : Segment → Prop) (s : State) : Prop where
  homed : Homed sets s
  speakers : ∀ a, ¬wide a → (s.floors.get a).speakers.length ≤ Config.speakerCap
  parts : PartsBounded s

section
variable {sets : Sets} {wide : Segment → Prop} {a : Segment} {s t : State} {i : SeatId}

theorem Quiet.length (h : Quiet s t) (a : Segment) :
    (t.floors.get a).speakers.length = (s.floors.get a).speakers.length := by
  have := congrArg List.length (h.speakers a)
  rwa [List.length_map, List.length_map] at this

theorem Quiet.releaseSeats (h : Quiet s t) : releaseSeats t = releaseSeats s := by
  funext o
  rw [Machine.releaseSeats, h.releases, Machine.releaseSeats]

theorem Homed.quiet (h : Homed sets s) (hq : Quiet s t) (ht : Housed t) : Homed sets t :=
  h.congr ht hq.members hq.releases

theorem Bounded.quiet (h : Bounded sets wide s) (hq : Quiet s t) (ht : Housed t) : Bounded sets wide t where
  homed := h.homed.quiet hq ht
  speakers a ha := by rw [hq.length]; exact h.speakers a ha
  parts := h.parts.of_sublist hq.members fun o => by rw [hq.releaseSeats]

theorem length_removeSpeaker_le (sets : Sets) (a b : Segment) (i : SeatId) (reason : FloorReason) (s : State) :
    ((removeSpeaker sets a i reason s).floors.get b).speakers.length ≤ (s.floors.get b).speakers.length := by
  rw [removeSpeaker_floors, Tab.get_modify]
  split
  · next hb =>
    subst hb
    rw [Floor.closed_speakers]
    exact List.eraseP_sublist.length_le
  · exact le_rfl

theorem Bounded.removes (h : Bounded sets wide s) {e : Speaker} {reason : FloorReason} (hk : keepsGain reason = true)
    (he : speakerOf (s.floors.get a) i = some e) : Bounded sets wide (removeSpeaker sets a i reason s) where
  homed := h.homed.removes hk
  speakers b hb := (length_removeSpeaker_le ..).trans (h.speakers b hb)
  parts := h.parts.removes h.homed.housed he hk

theorem Homed.drops (h : Homed sets s) {reason : FloorReason} (hk : keepsGain reason = false) :
    Homed sets (dropSeat sets (seatRoom s i) i reason s) :=
  (homed_floorCondition sets).drops (w := true) (m := 0) (n := 0) hk h

theorem Bounded.drops (h : Bounded sets wide s) {reason : FloorReason} (hk : keepsGain reason = false) :
    Bounded sets wide (dropSeat sets (seatRoom s i) i reason s) where
  homed := h.homed.drops hk
  speakers b hb := by
    refine le_trans ?_ (h.speakers b hb)
    rw [dropSeat_floors, Tab.get_modify]
    split
    · next hb => subst hb; exact List.eraseP_sublist.length_le
    · exact le_rfl
  parts := h.parts.of_sublist (dropSeat_floorFrame ..).membersOf fun o => releaseSeats_filter (dropSeat_core hk).1 o

theorem Bounded.grants (h : Bounded sets wide s) (reason : FloorReason) (byPriority : Bool)
    (hz : segmentOf i ∈ membersOf s a) (hs : hasSpeaker (floorOf s a) i = false) (room : listHasRoom (floorOf s a) = true) :
    Bounded sets wide (grantSeat sets a i reason byPriority s) where
  homed := h.homed.grants reason byPriority hz hs
  speakers b hb := by
    rw [grantSeat_floors, Tab.get_modify]
    split
    · next hb' =>
      subst hb'
      have room := listHasRoom_iff.mp room
      have length : ((s.floors.get a).dequeued i |>.joined s.clock (newSpeaker s a i byPriority)).speakers.length =
          (s.floors.get a).speakers.length + 1 := (insertBy_perm ..).length_eq
      rw [length]
      exact room
    · exact h.speakers b hb
  parts := h.parts.of_sublist (grantSeat_floorFrame ..).membersOf fun o => releaseSeats_filter (grantSeat_mixes byPriority) o

end

theorem bounded_soundCondition (sets : Sets) : SoundCondition sets fun _ => Bounded sets fun _ => False where
  homed h := h.homed
  capped h a := h.speakers a id
  more _ h := h
  quiet hq ht h := h.quiet hq ht
  removes hk he h := h.removes hk he
  drops hk h := h.drops hk
  grants reason byPriority hz hs room h := h.grants reason byPriority hz hs room

/-! ### Release ends and the frame event (R150) -/

theorem releaseEndOf_floors (a : Segment) (i : SeatId) (s : State) : (releaseEndOf a i s).floors = s.floors := by
  unfold releaseEndOf
  split <;> rfl

theorem releaseEndOf_seats (a : Segment) (i : SeatId) (s : State) (b : Segment) :
    (releaseSeats (releaseEndOf a i s) b).Sublist (releaseSeats s b) := by
  rcases releaseEndOf_mixes a i s with hx | hx
  · rw [releaseSeats, hx, ← releaseSeats]
  · exact releaseSeats_filter hx b

theorem Bounded.releaseEnd {wide : Segment → Prop} {s : State} (h : Bounded .current wide s) (i : SeatId) :
    Bounded .current wide (releaseEndOf (seatRoom s i) i s) where
  homed := releaseEndOf_homed i h.homed
  speakers b hb := by rw [releaseEndOf_floors]; exact h.speakers b hb
  parts := h.parts.of_sublist (releaseEndOf_floorFrame ..).membersOf fun _ => releaseEndOf_seats ..

theorem frameStep_releaseSeats (levels : WallMap) (inputs : Tab 8 (Option Sys2Proof.BoothFrame)) (s : State)
    (b : Segment) : (releaseSeats (frameStep levels inputs s) b).Sublist (releaseSeats s b) :=
  frameStep_release_sublist levels inputs s b (k := Release.seat) fun _ _ h _ => h

theorem Bounded.frame {wide : Segment → Prop} {s : State} (levels : WallMap)
    (inputs : Tab 8 (Option Sys2Proof.BoothFrame)) (h : Bounded .current wide s) :
    Bounded .current wide (frameStep levels inputs s) where
  homed := frameStep_homed levels inputs h.homed
  speakers b hb := by
    have := (frameStep_seatsPerm levels inputs s b).length_eq
    rw [List.length_map, List.length_map] at this
    rw [this]
    exact h.speakers b hb
  parts := h.parts.of_sublist (frameStep_members ..) fun _ => frameStep_releaseSeats ..

theorem bounded_eventCondition :
    EventCondition (fun _ _ => Bounded .current fun _ => False) fun _ _ _ _ => Bounded .current fun _ => False :=
  (bounded_soundCondition .current).eventCondition rfl (fun i h => h.releaseEnd i) fun levels inputs h =>
    h.frame levels inputs

/-! ### Holder sets (R97, R112) -/

/-- Every holder set is within its capacity. -/
def HoldersBounded (s : State) : Prop :=
  ∀ a, (s.floors.get a).holders.length ≤ Config.holderCap

section
variable {a : Segment} {s t : State} {f : Floor → Floor}

theorem HoldersBounded.modify (h : HoldersBounded s) (ht : t.floors = s.floors.modify a f)
    (own : (f (s.floors.get a)).holders.length ≤ (s.floors.get a).holders.length) : HoldersBounded t := fun b => by
  rw [ht, Tab.get_modify]
  split
  · next hb => subst hb; exact own.trans (h a)
  · exact h b

theorem HoldersBounded.congr (h : HoldersBounded s) (ht : t.floors = s.floors) : HoldersBounded t := fun a => by
  rw [ht]
  exact h a

theorem HoldersBounded.removes (h : HoldersBounded s) (sets : Sets) (a : Segment) (i : SeatId) (reason : FloorReason) :
    HoldersBounded (removeSpeaker sets a i reason s) :=
  h.modify (removeSpeaker_floors ..) (Floor.closed_holders_sublist ..).length_le

theorem HoldersBounded.grants (h : HoldersBounded s) (sets : Sets) (a : Segment) (i : SeatId) (reason : FloorReason)
    (byPriority : Bool) : HoldersBounded (grantSeat sets a i reason byPriority s) :=
  h.modify (grantSeat_floors ..) le_rfl

theorem HoldersBounded.joins (h : HoldersBounded s) {i : SeatId}
    (room : (floorOf s a).holders.length < Config.holderCap) : HoldersBounded (joinHold a i s) := fun b => by
  rw [joinHold_floors, Tab.get_modify]
  split
  · next hb =>
    subst hb
    have length : ((s.floors.get a).held s.clock i).holders.length = (s.floors.get a).holders.length + 1 :=
      (insertBy_perm ..).length_eq
    rw [length]
    exact room
  · exact h b

end

theorem holders_floorCondition (sets : Sets) :
    FloorCondition sets (fun _ _ => HoldersBounded) fun _ _ _ _ => HoldersBounded where
  idle hi h := h.congr hi.floors
  waits hi h := h.congr hi.floors
  mono _ _ h := h
  spares h := h
  opens h := h
  closes h _ := h
  resumes h _ := h.modify (resumeAll_floors ..) le_rfl
  removes _ _ _ h := h.removes _ _ _ _
  dequeues _ h := h.modify (takeRequest_floors ..) le_rfl
  leaves i h := h.modify (f := Floor.unheld i) rfl (List.length_filter_le ..)
  drops _ h := h.modify (dropSeat_floors ..) (List.filter_sublist.trans List.filter_sublist).length_le
  grants _ _ _ _ _ h := h.grants _ _ _ _ _
  enqueues _ _ _ _ h := h.modify (enqueueSeat_floors ..) le_rfl
  joins _ _ room _ h := h.joins room
  replaces _ _ _ _ _ _ _ h := (h.removes _ _ _ _).grants _ _ _ _ _
  bumps {_ _ s i e} _ hi room _ _ _ h := by
    have holds : (floorOf (removeSpeaker sets (seatRoom s i) e.seat .priorityBump s) (seatRoom s i)).holders.Sublist
        (floorOf s (seatRoom s i)).holders := by
      rw [floor_removeSpeaker]
      exact Floor.closed_holders_sublist ..
    obtain ⟨-, room', -⟩ := joins_guards (sets := sets) (reason := .bySeat)
      (isHolder_eq_false.mpr fun x hx => isHolder_eq_false.mp hi x (holds.subset hx)) (holds.length_le.trans_lt room)
    exact ((h.removes _ _ _ _).grants _ _ _ _ _).joins room'

theorem holders_eventCondition : EventCondition (fun _ _ => HoldersBounded) fun _ _ _ _ => HoldersBounded where
  toFloorCondition := holders_floorCondition .current
  setSeat _ _ _ h := h
  releaseEnd i h := h.congr (releaseEndOf_floors ..)
  frame levels inputs h a := by
    rw [frameStep_holders, length_sortBy]
    exact h a

end Sys2Proof.Machine
end


section
/-! No seat sounds twice, and the channel table of each trunk holds exactly its sounding seats (R50, R51, R148). -/

namespace Sys2Proof.Machine
open Sys2Proof.Safety

/-! ### Sounding seats -/

/-- The seat has a speaker entry, or one that a commit has still to carry into its new room. -/
def Speaking (pending : SeatId → Prop) (s : State) (i : SeatId) : Prop :=
  (∃ a, hasSpeaker (s.floors.get a) i = true) ∨ pending i

/-- The seat has a release entry. -/
def Releasing (s : State) (i : SeatId) : Prop :=
  ∃ o, i ∈ releaseSeats s o

/-- The seat holds a channel of its trunk. -/
def HasChannel (s : State) (i : SeatId) : Prop :=
  ∃ c, (s.trunks.get (segmentOf i)).channels.get c = some i

/-- No seat has two release entries under one anchor, nor one beside a speaker entry. -/
structure Voiced (pending : SeatId → Prop) (s : State) : Prop where
  once : ∀ o, (releaseSeats s o).Nodup
  apart : ∀ {i}, Releasing s i → ¬Speaking pending s i

/-- Channel tables are in order and hold exactly the sounding seats. -/
structure Channelled (pending : SeatId → Prop) (s : State) : Prop where
  ok : channelsOk s
  exact : ∀ i, HasChannel s i ↔ Releasing s i ∨ Speaking pending s i

/-- No seat of the room is pending. -/
def Settled (pending : SeatId → Prop) (s : State) (a : Segment) : Prop :=
  ∀ i, pending i → segmentOf i ∉ membersOf s a

section
variable {sets : Sets} {pending : SeatId → Prop} {a : Segment} {s t : State} {i j : SeatId}

theorem mem_releaseSeats {o : Segment} : i ∈ releaseSeats s o ↔ ∃ e ∈ (s.mixes.get o).release, e.seat = i :=
  List.mem_map

theorem Homed.releases_at (h : Homed sets s) {o : Segment} (hi : i ∈ releaseSeats s o) : homeOf sets s i = o := by
  obtain ⟨e, he, rfl⟩ := mem_releaseSeats.mp hi
  exact h.home o e he

/-! ### Where speaker entries change -/

/-- The floor of one room changes. -/
theorem speaking_modify {f : Floor → Floor} (ht : t.floors = s.floors.modify a f) :
    Speaking pending t j ↔ hasSpeaker (f (s.floors.get a)) j = true ∨
      (∃ b, b ≠ a ∧ hasSpeaker (s.floors.get b) j = true) ∨ pending j := by
  unfold Speaking
  rw [ht, ← or_assoc]
  refine or_congr_left ⟨?_, ?_⟩
  · rintro ⟨b, hb⟩
    rw [Tab.get_modify] at hb
    split at hb
    · next h => subst h; exact .inl hb
    · next h => exact .inr ⟨b, Ne.symm h, hb⟩
  · rintro (h | ⟨b, hb, h⟩)
    · exact ⟨a, by rw [Tab.get_modify_self]; exact h⟩
    · exact ⟨b, by rw [Tab.get_modify_ne _ _ (Ne.symm hb)]; exact h⟩

theorem speaking_split (a : Segment) : Speaking pending s j ↔ hasSpeaker (s.floors.get a) j = true ∨
    (∃ b, b ≠ a ∧ hasSpeaker (s.floors.get b) j = true) ∨ pending j :=
  speaking_modify (t := s) (f := id) (Tab.modify_of_fixed rfl).symm

/-- A seat of a room speaks there alone. -/
theorem Housed.not_elsewhere (h : Housed s) (hz : segmentOf j ∈ membersOf s a) (hp : Settled pending s a) :
    ¬((∃ b, b ≠ a ∧ hasSpeaker (s.floors.get b) j = true) ∨ pending j) := by
  rintro (⟨b, hb, hj⟩ | hj)
  · obtain ⟨e, he, rfl⟩ := hasSpeaker_iff.mp hj
    exact hb ((h.room_of_speaker he).symm.trans (h.rooms.mp hz))
  · exact hp j hj hz

/-- Every speaker entry of one seat leaves its room. -/
theorem speaking_without {f : Floor → Floor} (h : Housed s) (ht : t.floors = s.floors.modify a f)
    (hf : ∀ e, e ∈ (f (s.floors.get a)).speakers ↔ e ∈ (s.floors.get a).speakers ∧ e.seat ≠ i)
    (hz : segmentOf i ∈ membersOf s a) (hp : Settled pending s a) :
    Speaking pending t j ↔ Speaking pending s j ∧ j ≠ i := by
  have own : hasSpeaker (f (s.floors.get a)) j = true ↔ hasSpeaker (s.floors.get a) j = true ∧ j ≠ i := by
    simp only [hasSpeaker_iff, hf]
    exact ⟨fun ⟨e, ⟨he, hne⟩, hj⟩ => ⟨⟨e, he, hj⟩, hj ▸ hne⟩, fun ⟨⟨e, he, hj⟩, hne⟩ => ⟨e, ⟨he, hj ▸ hne⟩, hj⟩⟩
  have others : ((∃ b, b ≠ a ∧ hasSpeaker (s.floors.get b) j = true) ∨ pending j) → j ≠ i := by
    rintro hj rfl
    exact h.not_elsewhere hz hp hj
  rw [speaking_modify ht, speaking_split a, own, or_and_right, and_iff_left_of_imp others]

theorem removeSpeaker_speaking (h : Housed s) {e : Speaker} {reason : FloorReason}
    (he : speakerOf (s.floors.get a) i = some e) (hp : Settled pending s a) :
    Speaking pending (removeSpeaker sets a i reason s) j ↔ Speaking pending s j ∧ j ≠ i :=
  speaking_without h (removeSpeaker_floors ..) (fun _ => (h.floors a).mem_closed i) (h.resident_of_speaker he) hp

theorem dropSeat_speaking (h : Housed s) {reason : FloorReason} (hp : Settled pending s (seatRoom s i)) :
    Speaking pending (dropSeat sets (seatRoom s i) i reason s) j ↔ Speaking pending s j ∧ j ≠ i :=
  speaking_without h (dropSeat_floors ..) (fun _ => mem_eraseP_seat (h.floors _).speakers i) (h.rooms.mpr rfl) hp

theorem grantSeat_speaking (reason : FloorReason) (byPriority : Bool) :
    Speaking pending (grantSeat sets a i reason byPriority s) j ↔ Speaking pending s j ∨ j = i := by
  rw [speaking_modify (grantSeat_floors ..), speaking_split a]
  have own : hasSpeaker (((s.floors.get a).dequeued i).joined s.clock (newSpeaker s a i byPriority)) j = true ↔
      j = i ∨ hasSpeaker (s.floors.get a) j = true := by
    simp only [hasSpeaker_iff, Floor.joined, mem_insertBy, Floor.dequeued, or_and_right, exists_or, exists_eq_left]
    exact or_congr_left eq_comm
  rw [own, or_assoc, or_comm]

/-! ### Where release entries change -/

theorem releasing_filter (h : Homed sets s) {o : Segment} (ho : homeOf sets s i = o)
    (ht : t.mixes = s.mixes.modify o fun m => { m with release := m.release.filter fun e => e.seat != i }) :
    Releasing t j ↔ Releasing s j ∧ j ≠ i := by
  have seats (b : Segment) : j ∈ releaseSeats t b ↔ j ∈ releaseSeats s b ∧ j ≠ i := by
    rw [releaseSeats_modify (f := List.filter fun e => e.seat != i) ht]
    split
    · next hb =>
      subst hb
      simp only [List.mem_map, List.mem_filter, bne_iff_ne, releaseSeats]
      exact ⟨fun ⟨e, ⟨he, hne⟩, hj⟩ => ⟨⟨e, he, hj⟩, hj ▸ hne⟩, fun ⟨⟨e, he, hj⟩, hne⟩ => ⟨e, ⟨he, hj ▸ hne⟩, hj⟩⟩
    · next hb => exact (and_iff_left_of_imp fun hj e => hb (by rw [← ho, ← h.releases_at hj, e])).symm
  simp only [Releasing, seats, exists_and_right]

theorem grantSeat_releasing (h : Homed sets s) (reason : FloorReason) (byPriority : Bool)
    (hz : segmentOf i ∈ membersOf s a) :
    Releasing (grantSeat sets a i reason byPriority s) j ↔ Releasing s j ∧ j ≠ i :=
  releasing_filter h (h.housed.roomFor_eq sets hz).symm (grantSeat_mixes byPriority)

theorem dropSeat_releasing (h : Homed sets s) {reason : FloorReason} (hk : keepsGain reason = false) :
    Releasing (dropSeat sets (seatRoom s i) i reason s) j ↔ Releasing s j ∧ j ≠ i :=
  releasing_filter h (h.housed.roomFor_eq sets (h.housed.rooms.mpr rfl)).symm (dropSeat_core hk).1

theorem mem_keptSeats {members : List Segment} {l : List Release} (hl : (l.map Release.seat).Nodup) :
    j ∈ (keptReleases sets members l).map Release.seat ↔ j ∈ l.map Release.seat ∧ j ∉ lostSeats sets members l := by
  constructor
  · intro hj
    obtain ⟨e, he, rfl⟩ := List.mem_map.mp hj
    exact ⟨List.mem_map_of_mem ((keptReleases_sublist ..).subset he), not_mem_lostSeats sets members l hl he⟩
  · rintro ⟨hj, hlost⟩
    obtain ⟨e, he, rfl⟩ := List.mem_map.mp hj
    exact List.mem_map_of_mem ((mem_keptReleases_or sets members l he).resolve_right hlost)

/-- The seats that lose their release entries and channels where seat `i` leaves the list of the room with anchor `a`. -/
def lostBy (sets : Sets) (s : State) (a : Segment) (i : SeatId) (gain : Nat) : List SeatId :=
  lostSeats sets (membersOf s a) ((s.mixes.get (sets.roomFor a i)).release ++ [newRelease s i gain])

theorem mem_lostBy {gain : Nat} (hj : j ∈ lostBy sets s a i gain) : j ∈ releaseSeats s (sets.roomFor a i) ∨ j = i := by
  obtain ⟨e, he, rfl⟩ := mem_lostSeats _ _ _ hj
  refine (List.mem_append.mp he).imp (fun he => List.mem_map_of_mem he) fun he => ?_
  rw [List.mem_singleton.mp he]
  rfl

theorem Voiced.grown (h : Voiced pending s) {e : Speaker} (he : speakerOf (s.floors.get a) i = some e) (o : Segment)
    (gain : Nat) : (((s.mixes.get o).release ++ [newRelease s i gain]).map Release.seat).Nodup := by
  rw [List.map_append, List.map_singleton]
  refine List.nodup_append.mpr ⟨h.once o, List.nodup_singleton _, fun x hx y hy hxy => ?_⟩
  have speaks : hasSpeaker (s.floors.get a) i = true := by rw [hasSpeaker_eq_isSome, he]; rfl
  refine h.apart (i := i) ⟨o, ?_⟩ (.inl ⟨a, speaks⟩)
  rwa [hxy, List.mem_singleton.mp hy] at hx

theorem removeSpeaker_releasing (h : Homed sets s) (hv : Voiced pending s) {e : Speaker} {reason : FloorReason}
    (he : speakerOf (s.floors.get a) i = some e) (hk : keepsGain reason = true) :
    Releasing (removeSpeaker sets a i reason s) j ↔
      (Releasing s j ∨ j = i) ∧ j ∉ lostBy sets s a i e.gain := by
  have home : sets.roomFor a i = homeOf sets s i := h.housed.roomFor_eq sets (h.housed.resident_of_speaker he)
  have seats (b : Segment) : j ∈ releaseSeats (removeSpeaker sets a i reason s) b ↔
      (j ∈ releaseSeats s b ∨ sets.roomFor a i = b ∧ j = i) ∧ j ∉ lostBy sets s a i e.gain := by
    rw [removeSpeaker_releaseSeats he hk]
    split
    · next hb =>
      subst hb
      rw [mem_keptSeats (hv.grown he ..), List.map_append, List.mem_append, List.map_singleton, List.mem_singleton]
      simp [newRelease, releaseSeats, lostBy]
    · next hb =>
      simp only [hb, false_and, or_false]
      refine (and_iff_left_of_imp fun hj hlost => hb ?_).symm
      rcases mem_lostBy hlost with hl | rfl
      · rw [← h.releases_at hl, h.releases_at hj]
      · rw [home, h.releases_at hj]
  simp only [Releasing, seats, exists_and_right, exists_or, exists_eq', true_and]

/-! ### Removals, grants and everything of a seat leaving -/

theorem keptSeats_nodup {members : List Segment} {l : List Release} (hl : (l.map Release.seat).Nodup) :
    ((keptReleases sets members l).map Release.seat).Nodup :=
  hl.sublist ((keptReleases_sublist ..).map _)

theorem Voiced.removes (hv : Voiced pending s) (h : Homed sets s) (hp : Settled pending s a) {e : Speaker}
    {reason : FloorReason} (hk : keepsGain reason = true) (he : speakerOf (s.floors.get a) i = some e) :
    Voiced pending (removeSpeaker sets a i reason s) where
  once o := by
    rw [removeSpeaker_releaseSeats he hk]
    split
    · exact keptSeats_nodup (hv.grown he ..)
    · exact hv.once o
  apart {j} hr hs := by
    obtain ⟨hs, hne⟩ := (removeSpeaker_speaking h.housed he hp).mp hs
    exact hv.apart (((removeSpeaker_releasing h hv he hk).mp hr).1.resolve_right hne) hs

theorem Voiced.filtered (hv : Voiced pending s) (h : Homed sets s) {o : Segment} (ho : homeOf sets s i = o)
    (ht : t.mixes = s.mixes.modify o fun m => { m with release := m.release.filter fun e => e.seat != i })
    (hs : ∀ j, j ≠ i → Speaking pending t j → Speaking pending s j) : Voiced pending t where
  once b := (hv.once b).sublist (releaseSeats_filter ht b)
  apart {j} hr hj := by
    obtain ⟨hr, hne⟩ := (releasing_filter h ho ht).mp hr
    exact hv.apart hr (hs j hne hj)

theorem Voiced.drops (hv : Voiced pending s) (h : Homed sets s) (hp : Settled pending s (seatRoom s i))
    {reason : FloorReason} (hk : keepsGain reason = false) :
    Voiced pending (dropSeat sets (seatRoom s i) i reason s) :=
  hv.filtered h (h.housed.roomFor_eq sets (h.housed.rooms.mpr rfl)).symm (dropSeat_core hk).1 fun _ _ hj =>
    ((dropSeat_speaking h.housed hp).mp hj).1

theorem Voiced.grants (hv : Voiced pending s) (h : Homed sets s) (reason : FloorReason) (byPriority : Bool)
    (hz : segmentOf i ∈ membersOf s a) : Voiced pending (grantSeat sets a i reason byPriority s) :=
  hv.filtered h (h.housed.roomFor_eq sets hz).symm (grantSeat_mixes byPriority) fun _ hne hj =>
    ((grantSeat_speaking reason byPriority).mp hj).resolve_right hne

/-! ### Quiet changes -/

theorem Quiet.speaking (hq : Quiet s t) : Speaking pending t j ↔ Speaking pending s j := by
  have own (b : Segment) : hasSpeaker (t.floors.get b) j = hasSpeaker (s.floors.get b) j := by
    have seats (f : Floor) : hasSpeaker f j = (f.speakers.map Speaker.seat).any (· == j) := by
      rw [List.any_map]
      rfl
    rw [seats, seats, hq.speakers]
  simp only [Speaking, own]

theorem Quiet.releasing (hq : Quiet s t) : Releasing t j ↔ Releasing s j := by
  rw [Releasing, hq.releaseSeats, Releasing]

theorem Voiced.quiet (hv : Voiced pending s) (hq : Quiet s t) : Voiced pending t where
  once o := by rw [hq.releaseSeats]; exact hv.once o
  apart hr hs := hv.apart (hq.releasing.mp hr) (hq.speaking.mp hs)

end

end Sys2Proof.Machine
end


section
/-! The channel tables follow the sounding seats (R50, R51, R75, R150). -/

namespace Sys2Proof.Machine
open Sys2Proof.Safety

section
variable {sets : Sets} {pending : SeatId → Prop} {a : Segment} {s t : State} {i j : SeatId}

/-! ### Freed channels (R51) -/

section
variable {p : SeatId → Bool} (ht : ∀ k, (t.trunks.get k).channels = withoutSeats p k (s.trunks.get k).channels)
include ht

theorem channel_without {k : TrunkId} {c : Channel} :
    (t.trunks.get k).channels.get c = some j ↔
      (s.trunks.get k).channels.get c = some j ∧ (p j = true → segmentOf j ≠ k) := by
  rw [ht, withoutSeats, Tab.get_map, Option.filter_eq_some_iff]
  simp only [Bool.not_eq_true', Bool.and_eq_false_imp, beq_eq_false_iff_ne]

theorem hasChannel_without : HasChannel t j ↔ HasChannel s j ∧ p j = false := by
  simp only [HasChannel, channel_without ht, ne_eq, not_true_eq_false, imp_false, exists_and_right, Bool.not_eq_true]

theorem channelsOk_without (h : channelsOk s) : channelsOk t := fun k c j hj => by
  obtain ⟨home, once⟩ := h k c j ((channel_without ht).mp hj).1
  exact ⟨home, fun c' hc' => once c' ((channel_without ht).mp hc').1⟩

end

theorem channelsOk_congr (h : channelsOk s) (ht : ∀ k, (t.trunks.get k).channels = (s.trunks.get k).channels) :
    channelsOk t := fun k c j hj => by
  rw [ht] at hj ⊢
  exact h k c j hj

theorem hasChannel_congr (ht : ∀ k, (t.trunks.get k).channels = (s.trunks.get k).channels) :
    HasChannel t j ↔ HasChannel s j := by
  simp only [HasChannel, ht]

/-! ### Claimed channels (R50, R75) -/

/-- A claim changes nothing, or gives a free channel to a seat that has none. -/
theorem claimed_cases (channels : Tab 16 (Option SeatId)) (i : SeatId) :
    claimed channels i = channels ∧ ((∃ c, channels.get c = some i) ∨ ∀ c, channels.get c ≠ none) ∨
      ∃ c, channels.get c = none ∧ (∀ c', channels.get c' ≠ some i) ∧ claimed channels i = channels.set c (some i) := by
  unfold claimed
  split
  · next h => exact .inl ⟨rfl, .inl (Tab.mem_items.mp (List.contains_iff_mem.mp h))⟩
  · next h =>
    have unheld (c : Channel) : channels.get c ≠ some i := fun hc =>
      h (List.contains_iff_mem.mpr (Tab.mem_items.mpr ⟨c, hc⟩))
    split
    · next c hc => exact .inr ⟨c, by simpa using List.find?_some hc, unheld, rfl⟩
    · next hc =>
      refine .inl ⟨rfl, .inr fun c hn => ?_⟩
      have := List.find?_eq_none.mp hc c (List.mem_finRange c)
      rw [hn] at this
      exact this rfl

/-- The channel tables with a claim of seat `i`. -/
def ClaimedBy (i : SeatId) (s t : State) : Prop :=
  ∀ k, (t.trunks.get k).channels =
    if segmentOf i = k then claimed (s.trunks.get k).channels i else (s.trunks.get k).channels

theorem grantSeat_claimed (sets : Sets) (a : Segment) (i : SeatId) (reason : FloorReason) (byPriority : Bool) (s : State) :
    ClaimedBy i s (grantSeat sets a i reason byPriority s) := fun k => by
  rw [grantSeat_trunks, Tab.get_modify]
  split
  · next h => subst h; rfl
  · rfl

theorem ClaimedBy.channelsOk (ht : ClaimedBy i s t) (h : channelsOk s) : channelsOk t := fun k c j hj => by
  rw [ht] at hj ⊢
  split at hj
  · next hk =>
    rw [if_pos hk]
    rcases claimed_cases (s.trunks.get k).channels i with ⟨same, -⟩ | ⟨d, free, unheld, new⟩
    · rw [same] at hj ⊢
      exact h k c j hj
    · rw [new] at hj ⊢
      rw [Tab.get_set] at hj
      split at hj
      · next hd =>
        obtain rfl := Option.some.inj hj
        refine ⟨hk, fun c' hc' => ?_⟩
        rw [Tab.get_set] at hc'
        split at hc'
        · next hd' => rw [← hd, ← hd']
        · exact absurd hc' (unheld c')
      · next hd =>
        obtain ⟨home, once⟩ := h k c j hj
        refine ⟨home, fun c' hc' => ?_⟩
        rw [Tab.get_set] at hc'
        split at hc'
        · exact absurd (Option.some.inj hc' ▸ hj) (unheld c)
        · exact once c' hc'
  · next hk =>
    rw [if_neg hk]
    exact h k c j hj

/-- A claim keeps the channels of the other seats, and gives the seat one where one is free. -/
theorem ClaimedBy.hasChannel (ht : ClaimedBy i s t)
    (free : HasChannel s i ∨ ∃ c, (s.trunks.get (segmentOf i)).channels.get c = none) :
    HasChannel t j ↔ HasChannel s j ∨ j = i := by
  unfold HasChannel
  rw [ht]
  split
  · next hk =>
    rw [← hk]
    rcases claimed_cases (s.trunks.get (segmentOf i)).channels i with ⟨same, held⟩ | ⟨d, hd, unheld, new⟩
    · rw [same]
      refine (or_iff_left_of_imp fun hj => ?_).symm
      subst hj
      exact held.elim id fun none_free => free.elim id fun ⟨c, hc⟩ => absurd hc (none_free c)
    · rw [new]
      constructor
      · rintro ⟨c, hc⟩
        rw [Tab.get_set] at hc
        split at hc
        · exact .inr (Option.some.inj hc).symm
        · exact .inl ⟨c, hc⟩
      · rintro (⟨c, hc⟩ | rfl)
        · have other : d ≠ c := fun e => by rw [← e, hd] at hc; cases hc
          exact ⟨c, by rw [Tab.get_set_ne _ _ other]; exact hc⟩
        · exact ⟨d, Tab.get_set_self ..⟩
  · next hk =>
    refine (or_iff_left_of_imp fun hj => ?_).symm
    subst hj
    exact absurd rfl hk

/-! ### A free channel for a grant (R50) -/

/-- The seats that sound on one trunk are 16 at most: a grant finds a channel. -/
theorem exists_free (h : Homed sets s) (hb : PartsBounded s) (hc : Channelled pending s) (hp : Settled pending s a)
    (hz : segmentOf i ∈ membersOf s a) (room : listHasRoom (floorOf s a) = true) :
    ∃ c, (s.trunks.get (segmentOf i)).channels.get c = none := by
  by_contra full
  push Not at full
  choose held held_eq using fun c => Option.ne_none_iff_exists'.mp (full c)
  have home (c : Channel) : segmentOf (held c) = segmentOf i := (hc.ok _ c _ (held_eq c)).1
  have distinct : ((List.finRange 16).map held).Nodup :=
    (List.nodup_finRange 16).map fun c c' e => (hc.ok _ c' _ (held_eq c')).2 c (e ▸ held_eq c)
  have among : ∀ j ∈ (List.finRange 16).map held, j ∈ (s.floors.get a).speakers.map Speaker.seat ++
      (releaseSeats s (homeOf sets s i)).filter fun j => (membersOf s a).contains (segmentOf j) := by
    intro j hj
    obtain ⟨c, -, rfl⟩ := List.mem_map.mp hj
    have hz' : segmentOf (held c) ∈ membersOf s a := home c ▸ hz
    have sounds := (hc.exact (held c)).mp ⟨c, by rw [home]; exact held_eq c⟩
    rcases sounds with ⟨o, ho⟩ | hspeak
    · refine List.mem_append_right _ (List.mem_filter.mpr ⟨?_, List.contains_iff_mem.mpr hz'⟩)
      have : homeOf sets s (held c) = homeOf sets s i := by
        cases sets <;> simp only [homeOf, seatRoom, home]
      rw [← this, h.releases_at ho]
      exact ho
    · have own := ((speaking_split a).mp hspeak).resolve_right (h.housed.not_elsewhere hz' hp)
      obtain ⟨e, he, hes⟩ := hasSpeaker_iff.mp own
      exact List.mem_append_left _ (List.mem_map.mpr ⟨e, he, hes⟩)
  have count := (distinct.subperm among).length_le
  have six := hb (homeOf sets s i) a
  have nine := listHasRoom_iff.mp room
  simp only [Config.speakerCap, Config.releaseCap, floorOf] at nine six
  simp only [List.length_map, List.length_finRange, List.length_append, ← List.countP_eq_length_filter] at count
  omega

/-! ### Removals, grants and everything of a seat leaving -/

theorem removeSpeaker_without {e : Speaker} {reason : FloorReason} (he : speakerOf (s.floors.get a) i = some e)
    (hk : keepsGain reason = true) (k : TrunkId) :
    ((removeSpeaker sets a i reason s).trunks.get k).channels =
      withoutSeats (fun j => (lostBy sets s a i e.gain).contains j) k (s.trunks.get k).channels := by
  rw [removeSpeaker_channels he hk, freed_eq_withoutSeats]
  rfl

theorem Channelled.removes (hc : Channelled pending s) (h : Homed sets s) (hv : Voiced pending s)
    (hp : Settled pending s a) {e : Speaker} {reason : FloorReason} (hk : keepsGain reason = true)
    (he : speakerOf (s.floors.get a) i = some e) : Channelled pending (removeSpeaker sets a i reason s) where
  ok := channelsOk_without (removeSpeaker_without he hk) hc.ok
  exact j := by
    have speaks : Speaking pending s i := .inl ⟨a, by rw [hasSpeaker_eq_isSome, he]; rfl⟩
    have lost_apart (hne : j ≠ i) (hs : Speaking pending s j) : j ∉ lostBy sets s a i e.gain := fun hl =>
      hv.apart ⟨_, (mem_lostBy hl).resolve_right hne⟩ hs
    rw [hasChannel_without (removeSpeaker_without he hk), hc.exact, removeSpeaker_releasing h hv he hk,
      removeSpeaker_speaking h.housed he hp, ← Bool.not_eq_true, List.contains_iff_mem]
    constructor
    · rintro ⟨hr | hs, hl⟩
      · exact .inl ⟨.inl hr, hl⟩
      · by_cases hj : j = i
        · exact .inl ⟨.inr hj, hl⟩
        · exact .inr ⟨hs, hj⟩
    · rintro (⟨hr | rfl, hl⟩ | ⟨hs, hne⟩)
      exacts [⟨.inl hr, hl⟩, ⟨.inr speaks, hl⟩, ⟨.inr hs, lost_apart hne hs⟩]

theorem Channelled.drops (hc : Channelled pending s) (h : Homed sets s) (hp : Settled pending s (seatRoom s i))
    {reason : FloorReason} (hk : keepsGain reason = false) :
    Channelled pending (dropSeat sets (seatRoom s i) i reason s) where
  ok := channelsOk_without (dropSeat_core hk).2.1 hc.ok
  exact j := by
    rw [hasChannel_without (dropSeat_core hk).2.1, hc.exact, dropSeat_releasing h hk, dropSeat_speaking h.housed hp,
      ← or_and_right, beq_eq_false_iff_ne]

theorem Channelled.grants (hc : Channelled pending s) (h : Homed sets s) (hb : PartsBounded s)
    (hp : Settled pending s a) (reason : FloorReason) (byPriority : Bool) (hz : segmentOf i ∈ membersOf s a)
    (room : listHasRoom (floorOf s a) = true) : Channelled pending (grantSeat sets a i reason byPriority s) where
  ok := (grantSeat_claimed _ _ _ _ _ _).channelsOk hc.ok
  exact j := by
    rw [(grantSeat_claimed sets a i reason byPriority s).hasChannel (.inr (exists_free h hb hc hp hz room)), hc.exact,
      grantSeat_releasing h reason byPriority hz, grantSeat_speaking reason byPriority]
    by_cases hj : j = i <;> simp [hj]

theorem Channelled.quiet (hc : Channelled pending s) (hq : Quiet s t) : Channelled pending t where
  ok := channelsOk_congr hc.ok hq.channels
  exact j := by rw [hasChannel_congr hq.channels, hc.exact, hq.releasing, hq.speaking]

end

/-! ### Conditions without pending seats -/

/-- No seat is pending. -/
def NoSeat (_ : SeatId) : Prop :=
  False

theorem settled_noSeat {s : State} {a : Segment} : Settled NoSeat s a :=
  fun _ h => h.elim

/-- Lists are within their capacities, and no seat sounds twice. -/
structure Clear (sets : Sets) (s : State) : Prop where
  bounded : Bounded sets (fun _ => False) s
  voiced : Voiced NoSeat s

/-- Besides, channel tables hold exactly the sounding seats. -/
structure Tuned (sets : Sets) (s : State) : Prop where
  clear : Clear sets s
  channelled : Channelled NoSeat s

theorem clear_soundCondition (sets : Sets) : SoundCondition sets fun _ => Clear sets where
  homed h := h.bounded.homed
  capped h a := h.bounded.speakers a id
  more _ h := h
  quiet hq ht h := ⟨h.bounded.quiet hq ht, h.voiced.quiet hq⟩
  removes hk he h := ⟨h.bounded.removes hk he, h.voiced.removes h.bounded.homed settled_noSeat hk he⟩
  drops hk h := ⟨h.bounded.drops hk, h.voiced.drops h.bounded.homed settled_noSeat hk⟩
  grants reason byPriority hz hs room h :=
    ⟨h.bounded.grants reason byPriority hz hs room, h.voiced.grants h.bounded.homed reason byPriority hz⟩

theorem tuned_soundCondition (sets : Sets) : SoundCondition sets fun _ => Tuned sets where
  homed h := h.clear.bounded.homed
  capped h a := h.clear.bounded.speakers a id
  more _ h := h
  quiet hq ht h := ⟨(clear_soundCondition sets).quiet (m := 0) hq ht h.clear, h.channelled.quiet hq⟩
  removes hk he h := ⟨(clear_soundCondition sets).removes (m := 0) hk he h.clear,
    h.channelled.removes h.clear.bounded.homed h.clear.voiced settled_noSeat hk he⟩
  drops hk h := ⟨(clear_soundCondition sets).drops (m := 0) hk h.clear,
    h.channelled.drops h.clear.bounded.homed settled_noSeat hk⟩
  grants reason byPriority hz hs room h := ⟨(clear_soundCondition sets).grants (m := 0) reason byPriority hz hs room h.clear,
    h.channelled.grants h.clear.bounded.homed h.clear.bounded.parts settled_noSeat reason byPriority hz room⟩

end Sys2Proof.Machine
end


section
/-! Sounding seats and channels through release ends, frame events and the reset (R150, R197). -/

namespace Sys2Proof.Machine
open Sys2Proof.Safety

section
variable {pending : SeatId → Prop} {s t : State} {i j : SeatId}

/-- Changes that leave the floors' seats alone and only take out release entries. -/
theorem Voiced.of_sublist (hv : Voiced pending s) (seats : ∀ o, (releaseSeats t o).Sublist (releaseSeats s o))
    (hs : ∀ j, Speaking pending t j → Speaking pending s j) : Voiced pending t where
  once o := (hv.once o).sublist (seats o)
  apart := fun ⟨o, ho⟩ hj => hv.apart ⟨o, (seats o).subset ho⟩ (hs _ hj)

theorem speaking_congr (ht : t.floors = s.floors) : Speaking pending t j ↔ Speaking pending s j := by
  simp only [Speaking, ht]

/-! ### RELEASE_END -/

theorem Voiced.releaseEnd (hv : Voiced pending s) (a : Segment) (i : SeatId) : Voiced pending (releaseEndOf a i s) :=
  hv.of_sublist (fun _ => releaseEndOf_seats ..) fun _ => (speaking_congr (releaseEndOf_floors ..)).mp

theorem Channelled.releaseEnd (hc : Channelled pending s) (h : Homed .current s) (hv : Voiced pending s) (i : SeatId) :
    Channelled pending (releaseEndOf (seatRoom s i) i s) := by
  unfold releaseEndOf
  split
  · next hend =>
    have releases : Releasing s i := by
      obtain ⟨e, he, hi⟩ := List.any_eq_true.mp hend
      exact ⟨seatRoom s i, mem_releaseSeats.mpr ⟨e, he, by simpa using (Bool.and_eq_true_iff.mp hi).1⟩⟩
    have channels (k : TrunkId) : ((freeChannel i (endRelease (seatRoom s i) i s)).trunks.get k).channels =
        withoutSeats (fun j => j == i) k (s.trunks.get k).channels := by
      rw [freeChannel_trunk]
      rfl
    have ended (j : SeatId) := releasing_filter (t := freeChannel i (endRelease (seatRoom s i) i s)) (j := j) h (i := i)
      (o := seatRoom s i) rfl rfl
    refine ⟨channelsOk_without channels hc.ok, fun j => ?_⟩
    rw [hasChannel_without channels, hc.exact, ended, beq_eq_false_iff_ne, or_and_right]
    refine or_congr_right (and_iff_left_of_imp ?_)
    rintro hs rfl
    exact hv.apart releases hs
  · exact hc

/-! ### The frame event -/

theorem frameStep_channels (levels : WallMap) (inputs : Tab 8 (Option Sys2Proof.BoothFrame)) (s : State) (k : TrunkId) :
    ((frameStep levels inputs s).trunks.get k).channels =
      withoutSeats (fun i => endsAtFrame s i) k (s.trunks.get k).channels := by
  have sent := frameStep_trunk levels inputs s k
  generalize frameStep levels inputs s = u at sent ⊢
  exact congrArg Trunk.channels sent

theorem frameStep_speaking (levels : WallMap) (inputs : Tab 8 (Option Sys2Proof.BoothFrame)) (s : State) :
    Speaking pending (frameStep levels inputs s) j ↔ Speaking pending s j := by
  have own (a : Segment) : hasSpeaker ((frameStep levels inputs s).floors.get a) j = true ↔
      hasSpeaker (s.floors.get a) j = true := by
    have seats (f : Floor) : hasSpeaker f j = true ↔ j ∈ f.speakers.map Speaker.seat := by
      rw [hasSpeaker_iff, List.mem_map]
    rw [seats, seats, (frameStep_seatsPerm levels inputs s a).mem_iff]
  simp only [Speaking, own]

theorem mem_lowered (s : State) (b : Segment) : j ∈ (lowered s b).map Release.seat ↔ j ∈ releaseSeats s b := by
  obtain ⟨g, hg, hl⟩ := lowered_map s b
  rw [hl, List.map_map, releaseSeats]
  exact iff_of_eq (congrArg (j ∈ ·) (List.map_congr_left fun e _ => (hg e).1))

theorem releasing_of_endsIn {b : Segment} (hj : endsIn (lowered s b) j = true) : j ∈ releaseSeats s b := by
  obtain ⟨e, he, hej⟩ := List.any_eq_true.mp hj
  rw [← mem_lowered]
  exact List.mem_map.mpr ⟨e, he, by simpa using (Bool.and_eq_true_iff.mp hej).1⟩

theorem endsAtFrame_iff : endsAtFrame s j = true ↔ ∃ b, endsIn (lowered s b) j = true := by
  rw [endsAtFrame, List.any_eq_true]
  simp only [endsIn_eq, allSegments, List.mem_finRange, true_and]

theorem frameStep_releasing (h : Homed .current s) (levels : WallMap) (inputs : Tab 8 (Option Sys2Proof.BoothFrame)) :
    Releasing (frameStep levels inputs s) j ↔ Releasing s j ∧ endsAtFrame s j = false := by
  have seats (b : Segment) : j ∈ releaseSeats (frameStep levels inputs s) b ↔
      j ∈ releaseSeats s b ∧ endsIn (lowered s b) j = false := by
    rw [releaseSeats, frameStep_releases, ← mem_lowered]
    simp only [List.mem_map, List.mem_filter, Bool.not_eq_true']
    exact ⟨fun ⟨e, ⟨he, hn⟩, hj⟩ => ⟨⟨e, he, hj⟩, hj ▸ hn⟩, fun ⟨⟨e, he, hj⟩, hn⟩ => ⟨e, ⟨he, hj ▸ hn⟩, hj⟩⟩
  have one {b : Segment} (hb : j ∈ releaseSeats s b) : endsAtFrame s j = false ↔ endsIn (lowered s b) j = false := by
    rw [← Bool.not_eq_true, ← Bool.not_eq_true, not_iff_not, endsAtFrame_iff]
    refine ⟨fun ⟨c, hc⟩ => ?_, fun hb => ⟨b, hb⟩⟩
    rwa [← h.releases_at hb, h.releases_at (releasing_of_endsIn hc)]
  constructor
  · rintro ⟨b, hb⟩
    obtain ⟨hb, he⟩ := (seats b).mp hb
    exact ⟨⟨b, hb⟩, (one hb).mpr he⟩
  · rintro ⟨⟨b, hb⟩, he⟩
    exact ⟨b, (seats b).mpr ⟨hb, (one hb).mp he⟩⟩

theorem Voiced.frame (hv : Voiced pending s) (levels : WallMap) (inputs : Tab 8 (Option Sys2Proof.BoothFrame)) :
    Voiced pending (frameStep levels inputs s) :=
  hv.of_sublist (fun _ => frameStep_releaseSeats ..) fun _ => (frameStep_speaking levels inputs s).mp

theorem Channelled.frame (hc : Channelled pending s) (h : Homed .current s) (hv : Voiced pending s) (levels : WallMap)
    (inputs : Tab 8 (Option Sys2Proof.BoothFrame)) : Channelled pending (frameStep levels inputs s) where
  ok := channelsOk_without (frameStep_channels levels inputs s) hc.ok
  exact j := by
    rw [hasChannel_without (frameStep_channels levels inputs s), hc.exact, frameStep_releasing h,
      frameStep_speaking, or_and_right]
    refine or_congr_right (and_iff_left_of_imp fun hs => ?_)
    rw [← Bool.not_eq_true, endsAtFrame_iff]
    rintro ⟨b, hb⟩
    exact hv.apart ⟨b, releasing_of_endsIn hb⟩ hs

end

theorem clear_eventCondition : EventCondition (fun _ _ => Clear .current) fun _ _ _ _ => Clear .current :=
  (clear_soundCondition .current).eventCondition rfl
    (fun i h => ⟨h.bounded.releaseEnd i, h.voiced.releaseEnd ..⟩)
    fun levels inputs h => ⟨h.bounded.frame levels inputs, h.voiced.frame levels inputs⟩

theorem tuned_eventCondition : EventCondition (fun _ _ => Tuned .current) fun _ _ _ _ => Tuned .current :=
  (tuned_soundCondition .current).eventCondition rfl
    (fun i h => ⟨clear_eventCondition.releaseEnd (m := 0) (n := 0) i h.clear,
      h.channelled.releaseEnd h.clear.bounded.homed h.clear.voiced i⟩)
    fun levels inputs h => ⟨clear_eventCondition.frame (m := 0) (n := 0) levels inputs h.clear,
      h.channelled.frame h.clear.bounded.homed h.clear.voiced levels inputs⟩

/-! ### Channel tables by themselves (R50) -/

/-- The operations of the floor controller free and claim channels. -/
theorem channels_floorCondition (sets : Sets) :
    FloorCondition sets (fun _ _ => channelsOk) fun _ _ _ _ => channelsOk where
  idle hi h := channelsOk_congr h hi.channels
  waits hi h := channelsOk_congr h hi.channels
  mono _ _ h := h
  spares h := h
  opens h := h
  closes h _ := h
  resumes h _ := channelsOk_congr h (resumeAll_quiet ..).channels
  removes _ _ hk h := removes_cases _ h fun _ he => channelsOk_without (removeSpeaker_without he hk) h
  dequeues _ h := channelsOk_congr h (takeRequest_quiet ..).channels
  leaves _ h := channelsOk_congr h (unheld_quiet ..).channels
  drops hk h := channelsOk_without (dropSeat_core hk).2.1 h
  grants _ _ _ _ _ h := (grantSeat_claimed _ _ _ _ _ _).channelsOk h
  enqueues _ _ _ _ h := channelsOk_congr h (enqueueSeat_quiet ..).channels
  joins _ _ _ _ h := channelsOk_congr h (joinHold_quiet ..).channels
  replaces _ _ hk _ _ _ _ h := (grantSeat_claimed _ _ _ _ _ _).channelsOk
    (removes_cases _ h fun _ he => channelsOk_without (removeSpeaker_without he hk) h)
  bumps _ _ _ _ _ _ h := channelsOk_congr ((grantSeat_claimed _ _ _ _ _ _).channelsOk
    (removes_cases _ h fun _ he => channelsOk_without (removeSpeaker_without he rfl) h)) (joinHold_quiet ..).channels

theorem channels_eventCondition : EventCondition (fun _ _ => channelsOk) fun _ _ _ _ => channelsOk where
  toFloorCondition := channels_floorCondition .current
  setSeat _ _ _ h := h
  releaseEnd {_ _ s} i h := by
    unfold releaseEndOf
    split
    · exact channelsOk_without (s := s) (p := fun j => j == i) (fun k => by rw [freeChannel_trunk]; rfl) h
    · exact h
  frame levels inputs h := channelsOk_without (frameStep_channels levels inputs _) h

end Sys2Proof.Machine
end


section
/-! The release sets and channels that the mix engine's share of a commit leaves (R159, R160). -/

namespace Sys2Proof.Machine
open Sys2Proof.Safety

/-! ### Explicit release sets -/

/-- The release entries gathered under the anchor `a`, before the newest six are chosen (R160). -/
def placedRelease (affected news : List Segment) (u : State) (a : Segment) : List Release :=
  if a ∈ news then
    sortBy releaseBefore ((affected.flatMap fun b => (u.mixes.get b).release).filter fun e =>
      (membersOf u a).contains (segmentOf e.seat))
  else if a ∈ affected then []
  else (u.mixes.get a).release

/-- The seats of the entries beyond the newest six. -/
def oldest (l : List Release) : List SeatId :=
  (l.take (l.length - 6)).map Release.seat

/-- The newest six entries. -/
def newest (l : List Release) : List Release :=
  l.drop (l.length - 6)

/-- The seats whose entries find no place in a new room (R160). -/
def crowdedOut (affected news : List Segment) (u : State) : List SeatId :=
  news.flatMap fun a => oldest (placedRelease affected news u a)

theorem capRelease_release (a b : Segment) (s : State) :
    ((capRelease a s).mixes.get b).release =
      if a = b then newest (s.mixes.get b).release else (s.mixes.get b).release := by
  rw [capRelease_eq]
  change ((s.mixes.modify a _).get b).release = _
  rw [Tab.get_modify]
  split
  · next h => subst h; rfl
  · rfl

theorem capRelease_channels (a : Segment) (k : TrunkId) (s : State) :
    ((capRelease a s).trunks.get k).channels =
      withoutSeats (fun i => (oldest (s.mixes.get a).release).contains i) k (s.trunks.get k).channels := by
  rw [capRelease_eq, ← freed_eq_withoutSeats]
  exact congrArg Trunk.channels (Tab.get_ofFn _ k)

theorem foldl_capRelease_release (l : List Segment) (hl : l.Nodup) (b : Segment) (s : State) :
    ((l.foldl (fun s a => capRelease a s) s).mixes.get b).release =
      if b ∈ l then newest (s.mixes.get b).release else (s.mixes.get b).release := by
  induction l generalizing s with
  | nil => simp
  | cons a l ih =>
    obtain ⟨ha, hl⟩ := List.nodup_cons.mp hl
    rw [List.foldl_cons, ih hl, capRelease_release]
    by_cases hb : a = b
    · subst hb
      simp [ha]
    · simp [hb, Ne.symm hb]

theorem foldl_capRelease_channels (l : List Segment) (hl : l.Nodup) (k : TrunkId) (s : State) :
    ((l.foldl (fun s a => capRelease a s) s).trunks.get k).channels =
      withoutSeats (fun i => (l.flatMap fun a => oldest (s.mixes.get a).release).contains i) k
        (s.trunks.get k).channels := by
  induction l generalizing s with
  | nil => exact (withoutSeats_none (by simp) k _).symm
  | cons a l ih =>
    obtain ⟨ha, hl⟩ := List.nodup_cons.mp hl
    have same : (l.flatMap fun b => oldest ((capRelease a s).mixes.get b).release) =
        l.flatMap fun b => oldest (s.mixes.get b).release :=
      List.flatMap_congr fun b hb => by
        rw [capRelease_release, if_neg fun e : a = b => ha (by rw [e]; exact hb)]
    rw [List.foldl_cons, ih hl, capRelease_channels, same, withoutSeats_comp]
    simp only [List.flatMap_cons, List.contains_eq_mem, List.mem_append, Bool.decide_or]

section
variable {affected news : List Segment} {u : State}

theorem mixesPlaced_release (affected news : List Segment) (u : State) (a : Segment) :
    ((mixesPlaced affected news u).mixes.get a).release = placedRelease affected news u a := by
  rw [mixesPlaced, State.setMixes_mixes, Tab.get_ofFn, placedRelease]
  simp only [List.contains_iff_mem]
  split
  · rfl
  · split <;> rfl

theorem commitMix_release (hn : news.Nodup) (a : Segment) :
    ((commitMix affected news u).mixes.get a).release =
      if a ∈ news then newest (placedRelease affected news u a) else placedRelease affected news u a := by
  rw [(commitMix_idle ..).releases, mixesMade, foldl_capRelease_release _ hn, mixesPlaced_release]

theorem commitMix_channels (hn : news.Nodup) (k : TrunkId) :
    ((commitMix affected news u).trunks.get k).channels =
      withoutSeats (fun i => (crowdedOut affected news u).contains i) k (u.trunks.get k).channels := by
  rw [(commitMix_idle ..).channels, mixesMade, foldl_capRelease_channels _ hn]
  simp only [mixesPlaced_release]
  rfl

theorem foldl_capRelease_counters (l : List Segment) (s : State) :
    (l.foldl (fun s a => capRelease a s) s).releaseCounter = s.releaseCounter ∧
      (l.foldl (fun s a => capRelease a s) s).stampCounter = s.stampCounter := by
  induction l generalizing s with
  | nil => exact ⟨rfl, rfl⟩
  | cons a l ih =>
    obtain ⟨hr, hs⟩ := ih (capRelease a s)
    rw [capRelease_eq] at hr hs
    rw [List.foldl_cons, capRelease_eq]
    exact ⟨hr, hs⟩

theorem commitMix_counters (affected news : List Segment) (u : State) :
    (commitMix affected news u).releaseCounter = u.releaseCounter ∧
      (commitMix affected news u).stampCounter = u.stampCounter := by
  rw [(commitMix_idle ..).releaseCounter, (commitMix_idle ..).stampCounter]
  exact foldl_capRelease_counters news _

theorem newest_sublist (l : List Release) : (newest l).Sublist l :=
  List.drop_sublist ..

theorem mem_newest {l : List Release} (hl : (l.map Release.seat).Nodup) {j : SeatId} :
    j ∈ (newest l).map Release.seat ↔ j ∈ l.map Release.seat ∧ j ∉ oldest l :=
  mem_keptSeats (sets := .current) (members := []) hl

theorem length_newest (l : List Release) : (newest l).length ≤ 6 := by
  rw [newest, List.length_drop]
  omega

end

/-! ### Where the entries go (R160) -/

/-- Every release entry stands where `sets` says. -/
def ReleasesFor (sets : Sets) (s : State) : Prop :=
  ∀ o, ∀ e ∈ (s.mixes.get o).release, homeOf sets s e.seat = o

section
variable {s u : State} {rp : Repartition} (hrooms : roomsOk s) (hrp : s.repartition = some rp)
  (hm : membersOf u = membersOf (rebuilt rp s)) (hu : ReleasesFor (.before (roomOf s)) u)

/-- The room after a commit of a seat's segment. -/
def nextRoom (rp : Repartition) (i : SeatId) : Segment :=
  anchorIn rp.target (segmentOf i)

section
include hrooms hrp

/-- A seat that stays in an unaffected room, and one that moves into a new room. -/
theorem nextRoom_mem_news {i : SeatId} : nextRoom rp i ∈ newRooms s rp.target ↔ roomOf s (segmentOf i) ∈ rp.affected := by
  have moves : segmentOf i ∈ movedBy s rp ↔ roomOf s (segmentOf i) ∈ rp.affected := by
    rw [movedBy, List.mem_flatMap]
    constructor
    · rintro ⟨b, hb, hi⟩
      rwa [(rooms_of_roomsOk hrooms).mp hi]
    · exact fun h => ⟨_, h, (rooms_of_roomsOk hrooms).mpr rfl⟩
  rw [← moves]
  refine ⟨fun h => ?_, anchorIn_mem_news hrooms hrp⟩
  exact moved_of_mem_membersOf hrooms hrp h ((mem_members_rebuilt hrooms hrp).mpr rfl)

theorem nextRoom_of_unaffected {i : SeatId} (h : roomOf s (segmentOf i) ∉ rp.affected) :
    nextRoom rp i = roomOf s (segmentOf i) :=
  (mem_members_rebuilt hrooms hrp).mp (members_kept hrooms hrp h ((rooms_of_roomsOk hrooms).mpr rfl))

theorem nextRoom_not_affected {i : SeatId} (h : nextRoom rp i ∉ newRooms s rp.target) :
    nextRoom rp i ∉ rp.affected ∧ nextRoom rp i = roomOf s (segmentOf i) := by
  have stays := mt (nextRoom_mem_news hrooms hrp).mpr h
  have same := nextRoom_of_unaffected hrooms hrp stays
  exact ⟨same ▸ stays, same⟩

end

include hrooms hrp hm hu

omit hu in
theorem mem_members_next {a : Segment} {i : SeatId} : segmentOf i ∈ membersOf u a ↔ nextRoom rp i = a := by
  rw [hm, mem_members_rebuilt hrooms hrp]
  rfl

/-- The gathered entries are those of the hall, each under the anchor of its seat's new room. -/
theorem mem_placedRelease {a : Segment} {e : Release} :
    e ∈ placedRelease rp.affected (newRooms s rp.target) u a ↔
      e ∈ (u.mixes.get (roomOf s (segmentOf e.seat))).release ∧ nextRoom rp e.seat = a := by
  have home {b : Segment} (he : e ∈ (u.mixes.get b).release) : roomOf s (segmentOf e.seat) = b := hu b e he
  unfold placedRelease
  split
  · next ha =>
    rw [mem_sortBy, List.mem_filter, List.contains_iff_mem, mem_members_next hrooms hrp hm]
    refine and_congr_left fun hn => ?_
    rw [List.mem_flatMap]
    constructor
    · rintro ⟨b, hb, he⟩
      rwa [home he]
    · exact fun he => ⟨_, (nextRoom_mem_news hrooms hrp).mp (hn ▸ ha), he⟩
  · next ha =>
    have stays (hn : nextRoom rp e.seat = a) := nextRoom_not_affected hrooms hrp (i := e.seat) (hn ▸ ha)
    split
    · next haff => simp only [List.not_mem_nil, false_iff, not_and]; exact fun _ hn => (stays hn).1 (hn ▸ haff)
    · next haff =>
      constructor
      · intro he
        have := home he
        exact ⟨by rwa [this], by rw [nextRoom_of_unaffected hrooms hrp (this ▸ haff), this]⟩
      · rintro ⟨he, hn⟩
        rwa [← (stays hn).2, hn] at he

omit hm in
theorem placedRelease_nodup (once : ∀ o, (releaseSeats u o).Nodup) (a : Segment) :
    ((placedRelease rp.affected (newRooms s rp.target) u a).map Release.seat).Nodup := by
  unfold placedRelease
  split
  · refine ((sortBy_perm ..).map _).nodup_iff.mpr (List.Nodup.sublist (List.filter_sublist.map _) ?_)
    rw [List.map_flatMap, List.nodup_flatMap]
    refine ⟨fun b _ => once b, (affected_nodup hrooms hrp).imp fun {b c} hbc i hb hc => hbc ?_⟩
    obtain ⟨x, hx, rfl⟩ := List.mem_map.mp hb
    obtain ⟨y, hy, hxy⟩ := List.mem_map.mp hc
    have hy' := hu c y hy
    rw [hxy] at hy'
    exact (hu b x hx).symm.trans hy'
  · split
    · exact .nil
    · exact once a

theorem mem_placedSeats {a : Segment} {j : SeatId} :
    j ∈ (placedRelease rp.affected (newRooms s rp.target) u a).map Release.seat ↔ Releasing u j ∧ nextRoom rp j = a := by
  rw [List.mem_map]
  constructor
  · rintro ⟨e, he, rfl⟩
    obtain ⟨he, hn⟩ := (mem_placedRelease hrooms hrp hm hu).mp he
    exact ⟨⟨_, mem_releaseSeats.mpr ⟨e, he, rfl⟩⟩, hn⟩
  · rintro ⟨⟨o, ho⟩, hn⟩
    obtain ⟨e, he, rfl⟩ := mem_releaseSeats.mp ho
    refine ⟨e, (mem_placedRelease hrooms hrp hm hu).mpr ⟨?_, hn⟩, rfl⟩
    have home : roomOf s (segmentOf e.seat) = o := hu o e he
    rwa [home]

/-! ### What holds afterwards -/

omit hrooms hrp hm hu in
theorem commitMix_sub {a : Segment} :
    (((commitMix rp.affected (newRooms s rp.target) u).mixes.get a).release).Sublist
      (placedRelease rp.affected (newRooms s rp.target) u a) := by
  rw [commitMix_release (newRooms_nodup s rp.target)]
  split
  · exact newest_sublist _
  · exact .refl _

theorem commitMix_releasesFor : ReleasesFor .current (commitMix rp.affected (newRooms s rp.target) u) := fun a e he => by
  have placed := (mem_placedRelease hrooms hrp hm hu).mp (commitMix_sub.subset he)
  have members : membersOf (commitMix rp.affected (newRooms s rp.target) u) = membersOf (rebuilt rp s) :=
    (commitMix_members ..).trans hm
  rw [homeOf, seatRoom, roomOf_congr (congrFun members), roomOf_rebuilt hrooms hrp]
  exact placed.2

theorem commitMix_parts (hb : PartsBounded u) : PartsBounded (commitMix rp.affected (newRooms s rp.target) u) := by
  have six (o : Segment) : (releaseSeats (commitMix rp.affected (newRooms s rp.target) u) o).length ≤ 6 := by
    rw [releaseSeats, List.length_map, commitMix_release (newRooms_nodup s rp.target)]
    split
    · exact length_newest _
    · next ho =>
      rw [placedRelease, if_neg ho]
      split
      · exact Nat.zero_le _
      · next haff =>
        refine le_trans (le_of_eq ?_) (hb o o)
        have all : ∀ i ∈ releaseSeats u o, (membersOf u o).contains (segmentOf i) = true := fun i hi => by
          obtain ⟨e, he, rfl⟩ := mem_releaseSeats.mp hi
          have home : roomOf s (segmentOf e.seat) = o := hu o e he
          rw [List.contains_iff_mem, mem_members_next hrooms hrp hm,
            nextRoom_of_unaffected hrooms hrp (home ▸ haff), home]
        rw [List.countP_eq_length.mpr all, releaseSeats, List.length_map]
  exact fun o a => List.countP_le_length.trans (six o)

theorem commitMix_releasing (once : ∀ o, (releaseSeats u o).Nodup) {j : SeatId} :
    Releasing (commitMix rp.affected (newRooms s rp.target) u) j ↔
      Releasing u j ∧ j ∉ crowdedOut rp.affected (newRooms s rp.target) u := by
  have placed (a : Segment) := mem_placedSeats (a := a) (j := j) hrooms hrp hm hu
  have crowded : j ∈ crowdedOut rp.affected (newRooms s rp.target) u ↔ nextRoom rp j ∈ newRooms s rp.target ∧
      j ∈ oldest (placedRelease rp.affected (newRooms s rp.target) u (nextRoom rp j)) := by
    rw [crowdedOut, List.mem_flatMap]
    constructor
    · rintro ⟨a, ha, hj⟩
      have : j ∈ (placedRelease rp.affected (newRooms s rp.target) u a).map Release.seat :=
        ((List.take_sublist ..).map _).subset hj
      rw [((placed a).mp this).2]
      exact ⟨ha, hj⟩
    · exact fun ⟨ha, hj⟩ => ⟨_, ha, hj⟩
  have seats (a : Segment) : j ∈ releaseSeats (commitMix rp.affected (newRooms s rp.target) u) a ↔
      (Releasing u j ∧ nextRoom rp j = a) ∧
        ¬(a ∈ newRooms s rp.target ∧ j ∈ oldest (placedRelease rp.affected (newRooms s rp.target) u a)) := by
    rw [releaseSeats, commitMix_release (newRooms_nodup s rp.target)]
    split
    · next ha => simp only [mem_newest (placedRelease_nodup hrooms hrp hu once a), placed, ha, true_and]
    · next ha => simp only [placed, ha, false_and, not_false_iff, and_true]
  simp only [Releasing, seats, crowded]
  constructor
  · rintro ⟨a, ⟨hr, rfl⟩, hn⟩
    exact ⟨hr, hn⟩
  · rintro ⟨hr, hn⟩
    exact ⟨_, ⟨hr, rfl⟩, hn⟩

theorem commitMix_voiced {pending : SeatId → Prop} (hv : Voiced pending u) :
    Voiced pending (commitMix rp.affected (newRooms s rp.target) u) where
  once a := (placedRelease_nodup hrooms hrp hu hv.once a).sublist (commitMix_sub.map _)
  apart hr hs := hv.apart ((commitMix_releasing hrooms hrp hm hu hv.once).mp hr).1
    ((speaking_congr (commitMix_floors ..)).mp hs)

theorem commitMix_channelled {pending : SeatId → Prop} (hv : Voiced pending u) (hc : Channelled pending u) :
    Channelled pending (commitMix rp.affected (newRooms s rp.target) u) where
  ok := channelsOk_without (fun k => commitMix_channels (newRooms_nodup s rp.target) k) hc.ok
  exact j := by
    rw [hasChannel_without (fun k => commitMix_channels (newRooms_nodup s rp.target) k), hc.exact,
      commitMix_releasing hrooms hrp hm hu hv.once, speaking_congr (commitMix_floors ..), ← Bool.not_eq_true,
      List.contains_iff_mem, or_and_right]
    refine or_congr_right (and_iff_left_of_imp fun hs hl => ?_)
    obtain ⟨a, -, ha⟩ := List.mem_flatMap.mp hl
    have placed := ((List.take_sublist ..).map Release.seat).subset ha
    exact hv.apart ((mem_placedSeats hrooms hrp hm hu).mp placed).1 hs

end

end Sys2Proof.Machine
end


section
/-! Sounding seats, their channels and their release entries through the building of the new rooms' floors (R92 to R95). -/

namespace Sys2Proof.Machine
open Sys2Proof.Safety

/-! ### Building a floor -/

/-- Conditions on the sounding seats while the floor of the room with anchor `a` is built: `B` while entries are trimmed, `D`
afterwards. -/
structure SoundBuild (sets : Sets) (a : Segment) (B D : Nat → State → Prop) : Prop where
  homed : ∀ {m s}, B m s → Homed sets s
  homed' : ∀ {m s}, D m s → Homed sets s
  more : ∀ {m m' s}, m ≤ m' → B m s → B m' s
  removes : ∀ {m s i e reason}, keepsGain reason = true → speakerOf (s.floors.get a) i = some e → B m s →
    B (m + 1) (removeSpeaker sets a i reason s)
  quiet : ∀ {m s t}, Quiet s t → Housed t → B m s → B m t
  quiet' : ∀ {m s t}, Quiet s t → Housed t → D m s → D m t
  settles : ∀ {m s}, (floorOf s a).speakers.length ≤ Config.speakerCap → B m s → D m s
  grants : ∀ {m s i} reason byPriority, segmentOf i ∈ membersOf s a → hasSpeaker (floorOf s a) i = false →
    listHasRoom (floorOf s a) = true → D m s → D m (grantSeat sets a i reason byPriority s)

theorem SoundBuild.buildCondition {sets : Sets} {a : Segment} {B D : Nat → State → Prop} (h : SoundBuild sets a B D) :
    BuildCondition sets a (fun m _ => B m) fun m _ => D m where
  housed hs := (h.homed hs).housed.floors a
  more hm _ hs := h.more hm hs
  trims _ he hs := by
    obtain ⟨x, hx⟩ := speakerOf_mem he
    exact h.removes rfl hx hs
  requeues hz hk hq hs := h.quiet (requeueSpeaker_quiet ..) ((h.homed hs).housed.requeues hz hk hq) hs
  caps {_ _ s} hl hs := h.quiet' (capped_quiet a s) ((h.homed hs).housed.caps a) (h.settles hl hs)
  idle hi hs := h.quiet' hi.quiet ((housed_floorCondition sets).idle (m := 0) (n := 0) hi (h.homed' hs).housed) hs
  dequeues {_ _ s} i hs := h.quiet' (takeRequest_quiet a i s)
    ((housed_floorCondition sets).takesRequest (a := a) (m := 0) (n := 0) i (h.homed' hs).housed) hs
  suspends hs := h.quiet' (suspendAll_quiet ..) ((h.homed' hs).housed.suspends a) hs
  resumes hs := h.quiet' (resumeAll_quiet ..) ((h.homed' hs).housed.resumes a) hs
  grants hg room hs := by
    obtain ⟨hz, silent⟩ := (h.homed' hs).housed.mayGrant_queued hg
    exact h.grants .none false hz silent room hs

/-! ### The hall while floors are built -/

/-- A seat with a speaker entry in an affected room whose new room is still to be built. -/
def Pending (s : State) (rp : Repartition) (rest : List Segment) (i : SeatId) : Prop :=
  (∃ b ∈ rp.affected, hasSpeaker (s.floors.get b) i = true) ∧ nextRoom rp i ∈ rest

/-- The rooms are those of the commit, and those still to be built have no speaker entries. -/
structure Laid (s : State) (rp : Repartition) (rest : List Segment) (u : State) : Prop where
  members : membersOf u = membersOf (rebuilt rp s)
  blank : ∀ b ∈ rest, (u.floors.get b).speakers = []

section
variable {s u v : State} {rp : Repartition} {rest : List Segment} {a : Segment} {i j : SeatId} {sets : Sets}

theorem Laid.quiet (h : Laid s rp rest u) (hq : Quiet u v) : Laid s rp rest v where
  members := hq.members.trans h.members
  blank b hb := by
    have := hq.length b
    rw [h.blank b hb] at this
    exact List.length_eq_zero_iff.mp this

theorem Laid.modify {f : Floor → Floor} (h : Laid s rp rest u) (ha : a ∉ rest) (hm : membersOf v = membersOf u)
    (hv : v.floors = u.floors.modify a f) : Laid s rp rest v where
  members := hm.trans h.members
  blank b hb := by
    rw [hv, Tab.get_modify_ne _ _ fun e : a = b => ha (by rw [e]; exact hb)]
    exact h.blank b hb

section
variable (hrooms : roomsOk s) (hrp : s.repartition = some rp)
include hrooms hrp

theorem Laid.next (h : Laid s rp rest u) : segmentOf i ∈ membersOf u a ↔ nextRoom rp i = a :=
  mem_members_next hrooms hrp h.members

/-- No seat of a built room is pending. -/
theorem Laid.settled (h : Laid s rp rest u) (ha : a ∉ rest) : Settled (Pending s rp rest) u a := fun i hi hz => by
  rw [h.next hrooms hrp] at hz
  exact ha (hz ▸ hi.2)

end

/-! ### The records of the affected rooms are discarded, and gathered entries placed (R92) -/

section
variable (hrooms : roomsOk s) (hrp : s.repartition = some rp) (hs : Housed s)
include hrooms hrp hs

/-- A room that is new is affected or was none. -/
theorem floor_blank (ha : a ∈ newRooms s rp.target) (hn : a ∉ rp.affected) : (s.floors.get a).speakers = [] := by
  rw [List.eq_nil_iff_forall_not_mem]
  intro e he
  have home : roomOf s (segmentOf e.seat) = a := hs.room_of_speaker he
  have stays : nextRoom rp e.seat = a :=
    (nextRoom_of_unaffected hrooms hrp (i := e.seat) (home ▸ hn)).trans home
  exact hn (home ▸ (nextRoom_mem_news hrooms hrp (i := e.seat)).mp (stays ▸ ha))

theorem cleared_laid (hm : membersOf u = membersOf (rebuilt rp s)) (hf : u.floors = s.floors) :
    Laid s rp (newRooms s rp.target) (clearedFloors rp.affected u) where
  members := hm
  blank b hb := by
    rw [clearedFloors_get]
    split
    · rfl
    · next hn =>
      rw [hf]
      exact floor_blank hrooms hrp hs hb hn

theorem cleared_speaking (hf : u.floors = s.floors) :
    Speaking (Pending s rp (newRooms s rp.target)) (clearedFloors rp.affected u) j ↔ Speaking NoSeat u j := by
  have moves {b : Segment} (hb : hasSpeaker (s.floors.get b) j = true) :
      nextRoom rp j ∈ newRooms s rp.target ↔ b ∈ rp.affected := by
    obtain ⟨e, he, rfl⟩ := hasSpeaker_iff.mp hb
    rw [nextRoom_mem_news hrooms hrp, hs.room_of_speaker he]
  simp only [Speaking, clearedFloors_get, hf, NoSeat, or_false]
  constructor
  · rintro (⟨b, hb⟩ | ⟨⟨b, -, hb⟩, -⟩)
    · split at hb
      · cases hb
      · exact ⟨b, hb⟩
    · exact ⟨b, hb⟩
  · rintro ⟨b, hb⟩
    by_cases haff : b ∈ rp.affected
    · exact .inr ⟨⟨b, haff, hb⟩, (moves hb).mpr haff⟩
    · exact .inl ⟨b, by rwa [if_neg haff]⟩

omit hs in
/-- What the floor controller gathers for a new room was pending (R92). -/
theorem placed_speaking (h : Laid s rp (a :: rest) u) :
    Speaking (Pending s rp rest) (u.modFloor a fun _ => gatherFloor s rp.affected (membersOf u a)) j ↔
      Speaking (Pending s rp (a :: rest)) u j := by
  have blank : hasSpeaker (u.floors.get a) j = false := by
    rw [hasSpeaker, h.blank a List.mem_cons_self]
    rfl
  have gathered : hasSpeaker (gatherFloor s rp.affected (membersOf u a)) j = true ↔
      (∃ b ∈ rp.affected, hasSpeaker (s.floors.get b) j = true) ∧ nextRoom rp j = a := by
    simp only [hasSpeaker_iff, mem_gathered_speakers, ← h.next hrooms hrp (i := j)]
    constructor
    · rintro ⟨e, ⟨⟨b, hb, he⟩, hz⟩, rfl⟩
      exact ⟨⟨b, hb, e, he, rfl⟩, hz⟩
    · rintro ⟨⟨b, hb, e, he, rfl⟩, hz⟩
      exact ⟨e, ⟨⟨b, hb, he⟩, hz⟩, rfl⟩
  rw [speaking_modify (a := a) (f := fun _ => gatherFloor s rp.affected (membersOf u a)) rfl, speaking_split a, blank, gathered]
  simp only [Bool.false_eq_true, false_or, Pending, List.mem_cons, and_or_left]
  exact or_left_comm

end

/-! ### Tiers of conditions -/

/-- The speaker lists of all rooms, but that of the room being built, are within their capacity. -/
def butOne (a b : Segment) : Prop :=
  b = a

theorem Homed.place (h : Homed sets u) (hs : Housed s) {affected : List Segment} (hn : affected.Nodup) (a : Segment) :
    Homed sets (u.modFloor a fun _ => gatherFloor s affected (membersOf u a)) :=
  h.congr (h.housed.place hs hn a) rfl fun _ => rfl

theorem Bounded.place (h : Bounded sets (fun _ => False) u) (hs : Housed s) {affected : List Segment}
    (hn : affected.Nodup) (a : Segment) :
    Bounded sets (butOne a) (u.modFloor a fun _ => gatherFloor s affected (membersOf u a)) where
  homed := h.homed.place hs hn a
  speakers b hb := by
    rw [State.modFloor_floors, Tab.get_modify_ne _ _ fun e : a = b => hb e.symm]
    exact h.speakers b id
  parts := h.parts

theorem Bounded.settles {a : Segment} (h : Bounded sets (butOne a) u) (ha : (floorOf u a).speakers.length ≤ Config.speakerCap) :
    Bounded sets (fun _ => False) u where
  homed := h.homed
  speakers b _ := by
    by_cases hb : b = a
    · subst hb; exact ha
    · exact h.speakers b hb
  parts := h.parts

theorem Voiced.speakingCongr {pending pending' : SeatId → Prop} (h : Voiced pending u)
    (hr : releaseSeats v = releaseSeats u) (hs : ∀ j, Speaking pending' v j ↔ Speaking pending u j) : Voiced pending' v where
  once o := by rw [hr]; exact h.once o
  apart := fun ⟨o, ho⟩ hj => h.apart ⟨o, hr ▸ ho⟩ ((hs _).mp hj)

theorem Channelled.speakingCongr {pending pending' : SeatId → Prop} (h : Channelled pending u)
    (hr : releaseSeats v = releaseSeats u) (hc : ∀ k, (v.trunks.get k).channels = (u.trunks.get k).channels)
    (hs : ∀ j, Speaking pending' v j ↔ Speaking pending u j) : Channelled pending' v where
  ok := channelsOk_congr h.ok hc
  exact j := by rw [hasChannel_congr hc, h.exact, hs, Releasing, Releasing, hr]

end

end Sys2Proof.Machine
end


section
/-! Homes, capacities, sounding seats and channels through a commit (R29, R50, R51, R65, R148, R149, R159, R160). -/

namespace Sys2Proof.Machine
open Sys2Proof.Safety

/-! ### The building of a floor -/

/-- While the new rooms `rest` are still to be built: homes; with the capacities but those that `wide` names; with one
sound to a seat; with the channels. -/
structure HomedAt (sets : Sets) (s : State) (rp : Repartition) (rest : List Segment) (u : State) : Prop where
  homed : Homed sets u
  laid : Laid s rp rest u

/-- See `HomedAt`. -/
structure BoundedAt (sets : Sets) (s : State) (rp : Repartition) (wide : Segment → Prop) (rest : List Segment) (u : State) :
    Prop where
  bounded : Bounded sets wide u
  laid : Laid s rp rest u

/-- See `HomedAt`. -/
structure ClearAt (sets : Sets) (s : State) (rp : Repartition) (wide : Segment → Prop) (rest : List Segment) (u : State) :
    Prop where
  at' : BoundedAt sets s rp wide rest u
  voiced : Voiced (Pending s rp rest) u

/-- See `HomedAt`. -/
structure TunedAt (sets : Sets) (s : State) (rp : Repartition) (wide : Segment → Prop) (rest : List Segment) (u : State) :
    Prop where
  clear : ClearAt sets s rp wide rest u
  channelled : Channelled (Pending s rp rest) u

section
variable {s u : State} {rp : Repartition} {rest : List Segment} {a : Segment} {i : SeatId} {sets : Sets}
  {wide : Segment → Prop}

theorem Laid.removes (h : Laid s rp rest u) (ha : a ∉ rest) (reason : FloorReason) :
    Laid s rp rest (removeSpeaker sets a i reason u) :=
  h.modify ha (removeSpeaker_floorFrame ..).membersOf (removeSpeaker_floors ..)

theorem Laid.grants (h : Laid s rp rest u) (ha : a ∉ rest) (reason : FloorReason) (byPriority : Bool) :
    Laid s rp rest (grantSeat sets a i reason byPriority u) :=
  h.modify ha (grantSeat_floorFrame ..).membersOf (grantSeat_floors ..)

theorem Laid.place (h : Laid s rp (a :: rest) u) (ha : a ∉ rest) :
    Laid s rp rest (u.modFloor a fun _ => gatherFloor s rp.affected (membersOf u a)) :=
  Laid.modify (f := fun _ => gatherFloor s rp.affected (membersOf u a))
    ⟨h.members, fun b hb => h.blank b (List.mem_cons_of_mem a hb)⟩ ha rfl rfl

theorem homed_soundBuild (sets : Sets) (s : State) (rp : Repartition) (ha : a ∉ rest) :
    SoundBuild sets a (fun _ => HomedAt sets s rp rest) fun _ => HomedAt sets s rp rest where
  homed h := h.homed
  homed' h := h.homed
  more _ h := h
  removes hk _ h := ⟨h.homed.removes hk, h.laid.removes ha _⟩
  quiet hq ht h := ⟨h.homed.quiet hq ht, h.laid.quiet hq⟩
  quiet' hq ht h := ⟨h.homed.quiet hq ht, h.laid.quiet hq⟩
  settles _ h := h
  grants reason byPriority hz hs _ h := ⟨h.homed.grants reason byPriority hz hs, h.laid.grants ha reason byPriority⟩

theorem BoundedAt.quiet {v : State} (h : BoundedAt sets s rp wide rest u) (hq : Quiet u v) (hv : Housed v) :
    BoundedAt sets s rp wide rest v :=
  ⟨h.bounded.quiet hq hv, h.laid.quiet hq⟩

theorem bounded_soundBuild (sets : Sets) (s : State) (rp : Repartition) (ha : a ∉ rest) :
    SoundBuild sets a (fun _ => BoundedAt sets s rp (butOne a) rest)
      fun _ => BoundedAt sets s rp (fun _ => False) rest where
  homed h := h.bounded.homed
  homed' h := h.bounded.homed
  more _ h := h
  removes hk he h := ⟨h.bounded.removes hk he, h.laid.removes ha _⟩
  quiet hq ht h := h.quiet hq ht
  quiet' hq ht h := h.quiet hq ht
  settles hl h := ⟨h.bounded.settles hl, h.laid⟩
  grants reason byPriority hz hs room h :=
    ⟨h.bounded.grants reason byPriority hz hs room, h.laid.grants ha reason byPriority⟩

section
variable (hrooms : roomsOk s) (hrp : s.repartition = some rp)
include hrooms hrp

theorem clear_soundBuild (sets : Sets) (ha : a ∉ rest) :
    SoundBuild sets a (fun _ => ClearAt sets s rp (butOne a) rest) fun _ => ClearAt sets s rp (fun _ => False) rest where
  homed h := h.at'.bounded.homed
  homed' h := h.at'.bounded.homed
  more _ h := h
  removes hk he h := ⟨(bounded_soundBuild sets s rp ha).removes (m := 0) hk he h.at',
    h.voiced.removes h.at'.bounded.homed (h.at'.laid.settled hrooms hrp ha) hk he⟩
  quiet hq ht h := ⟨h.at'.quiet hq ht, h.voiced.quiet hq⟩
  quiet' hq ht h := ⟨h.at'.quiet hq ht, h.voiced.quiet hq⟩
  settles hl h := ⟨(bounded_soundBuild sets s rp ha).settles (m := 0) hl h.at', h.voiced⟩
  grants reason byPriority hz hs room h := ⟨(bounded_soundBuild sets s rp ha).grants (m := 0) reason byPriority hz hs room h.at',
    h.voiced.grants h.at'.bounded.homed reason byPriority hz⟩

theorem tuned_soundBuild (sets : Sets) (ha : a ∉ rest) :
    SoundBuild sets a (fun _ => TunedAt sets s rp (butOne a) rest) fun _ => TunedAt sets s rp (fun _ => False) rest where
  homed h := h.clear.at'.bounded.homed
  homed' h := h.clear.at'.bounded.homed
  more _ h := h
  removes hk he h := ⟨(clear_soundBuild hrooms hrp sets ha).removes (m := 0) hk he h.clear,
    h.channelled.removes h.clear.at'.bounded.homed h.clear.voiced (h.clear.at'.laid.settled hrooms hrp ha) hk he⟩
  quiet hq ht h := ⟨(clear_soundBuild hrooms hrp sets ha).quiet (m := 0) hq ht h.clear, h.channelled.quiet hq⟩
  quiet' hq ht h := ⟨(clear_soundBuild hrooms hrp sets ha).quiet' (m := 0) hq ht h.clear, h.channelled.quiet hq⟩
  settles hl h := ⟨(clear_soundBuild hrooms hrp sets ha).settles (m := 0) hl h.clear, h.channelled⟩
  grants reason byPriority hz hs room h :=
    ⟨(clear_soundBuild hrooms hrp sets ha).grants (m := 0) reason byPriority hz hs room h.clear,
      h.channelled.grants h.clear.at'.bounded.homed h.clear.at'.bounded.parts (h.clear.at'.laid.settled hrooms hrp ha)
        reason byPriority hz room⟩

end

/-! ### The placing of gathered entries -/

theorem HomedAt.place (h : HomedAt sets s rp (a :: rest) u) (ha : a ∉ rest) (hs : Housed s) (hn : rp.affected.Nodup) :
    HomedAt sets s rp rest (u.modFloor a fun _ => gatherFloor s rp.affected (membersOf u a)) :=
  ⟨h.homed.place hs hn a, h.laid.place ha⟩

theorem BoundedAt.place (h : BoundedAt sets s rp (fun _ => False) (a :: rest) u) (ha : a ∉ rest) (hs : Housed s)
    (hn : rp.affected.Nodup) :
    BoundedAt sets s rp (butOne a) rest (u.modFloor a fun _ => gatherFloor s rp.affected (membersOf u a)) :=
  ⟨h.bounded.place hs hn a, h.laid.place ha⟩

section
variable (hrooms : roomsOk s) (hrp : s.repartition = some rp)
include hrooms hrp

theorem ClearAt.place (h : ClearAt sets s rp (fun _ => False) (a :: rest) u) (ha : a ∉ rest) (hs : Housed s) :
    ClearAt sets s rp (butOne a) rest (u.modFloor a fun _ => gatherFloor s rp.affected (membersOf u a)) :=
  ⟨h.at'.place ha hs (affected_nodup hrooms hrp), h.voiced.speakingCongr rfl fun _ => placed_speaking hrooms hrp h.at'.laid⟩

theorem TunedAt.place (h : TunedAt sets s rp (fun _ => False) (a :: rest) u) (ha : a ∉ rest) (hs : Housed s) :
    TunedAt sets s rp (butOne a) rest (u.modFloor a fun _ => gatherFloor s rp.affected (membersOf u a)) :=
  ⟨h.clear.place hrooms hrp ha hs,
    h.channelled.speakingCongr rfl (fun _ => rfl) fun _ => placed_speaking hrooms hrp h.clear.at'.laid⟩

end

/-! ### Before the floor controller's share -/

/-- The floors are those before the commit, and the release entries stand where `sets` says; with parts within their
capacity; with one sound to a seat; with the channels. -/
structure HomedBefore (s : State) (sets : Sets) (u : State) : Prop where
  floors : u.floors = s.floors
  releases : ReleasesFor sets u

/-- See `HomedBefore`. -/
structure BoundedBefore (s : State) (sets : Sets) (u : State) : Prop where
  before : HomedBefore s sets u
  parts : PartsBounded u

/-- See `HomedBefore`. -/
structure ClearBefore (s : State) (sets : Sets) (u : State) : Prop where
  before : BoundedBefore s sets u
  voiced : Voiced NoSeat u

/-- See `HomedBefore`. -/
structure TunedBefore (s : State) (sets : Sets) (u : State) : Prop where
  before : ClearBefore s sets u
  channelled : Channelled NoSeat u

theorem commitPartition_same (rp : Repartition) (s : State) :
    (commitPartition rp s).mixes = s.mixes ∧ (commitPartition rp s).trunks = s.trunks ∧
      (commitPartition rp s).releaseCounter = s.releaseCounter ∧ (commitPartition rp s).stampCounter = s.stampCounter := by
  rw [commitPartition_sends, sendAll_frame, rebuilt_frame]
  exact ⟨rfl, rfl, rfl, rfl⟩

theorem commitPartition_releaseSeats (rp : Repartition) (s : State) :
    releaseSeats (commitPartition rp s) = releaseSeats s := by
  funext o
  rw [releaseSeats, (commitPartition_same rp s).1, releaseSeats]

theorem commitPartition_speaking {pending : SeatId → Prop} (rp : Repartition) (s : State) (j : SeatId) :
    Speaking pending (commitPartition rp s) j ↔ Speaking pending s j :=
  speaking_congr (commitPartition_floors rp s)

theorem homedBefore_start (h : Homed .current s) (rp : Repartition) :
    HomedBefore s (.before (roomOf s)) (commitPartition rp s) where
  floors := commitPartition_floors rp s
  releases o e he := by
    rw [(commitPartition_same rp s).1] at he
    exact h.home o e he

/-- The release set of a room whose entries are at home. -/
theorem Bounded.length_releaseSeats (h : Bounded .current wide s) (o : Segment) : (releaseSeats s o).length ≤ 6 := by
  refine le_trans (le_of_eq ?_) (h.parts o o)
  refine (List.countP_eq_length.mpr fun i hi => ?_).symm
  rw [List.contains_iff_mem, h.homed.housed.rooms]
  exact h.homed.releases_at hi

theorem boundedBefore_start (h : Bounded .current wide s) (rp : Repartition) :
    BoundedBefore s (.before (roomOf s)) (commitPartition rp s) where
  before := homedBefore_start h.homed rp
  parts o a := by
    rw [commitPartition_releaseSeats]
    exact List.countP_le_length.trans (h.length_releaseSeats o)

theorem clearBefore_start (h : Clear .current s) (rp : Repartition) :
    ClearBefore s (.before (roomOf s)) (commitPartition rp s) :=
  ⟨boundedBefore_start h.bounded rp,
    h.voiced.speakingCongr (commitPartition_releaseSeats rp s) (commitPartition_speaking rp s)⟩

theorem tunedBefore_start (h : Tuned .current s) (rp : Repartition) :
    TunedBefore s (.before (roomOf s)) (commitPartition rp s) :=
  ⟨clearBefore_start h.clear rp, h.channelled.speakingCongr (commitPartition_releaseSeats rp s)
    (fun k => by rw [(commitPartition_same rp s).2.1]) (commitPartition_speaking rp s)⟩

theorem ReleasesFor.idle {v : State} (h : ReleasesFor sets u) (hi : Idle u v) : ReleasesFor sets v := fun o e he => by
  rw [hi.releases] at he
  rw [homeOf_congr sets (funext hi.members)]
  exact h o e he

theorem HomedBefore.idle {v : State} (h : HomedBefore s sets u) (hi : Idle u v) : HomedBefore s sets v :=
  ⟨hi.floors.trans h.floors, h.releases.idle hi⟩

theorem BoundedBefore.idle {v : State} (h : BoundedBefore s sets u) (hi : Idle u v) : BoundedBefore s sets v :=
  ⟨h.before.idle hi, h.parts.of_sublist hi.quiet.members fun o => by rw [hi.quiet.releaseSeats]⟩

theorem ClearBefore.idle {v : State} (h : ClearBefore s sets u) (hi : Idle u v) : ClearBefore s sets v :=
  ⟨h.before.idle hi, h.voiced.quiet hi.quiet⟩

theorem TunedBefore.idle {v : State} (h : TunedBefore s sets u) (hi : Idle u v) : TunedBefore s sets v :=
  ⟨h.before.idle hi, h.channelled.quiet hi.quiet⟩

/-! ### The floor controller's share -/

section
variable (hrooms : roomsOk s) (hrp : s.repartition = some rp) (hs : Housed s)
  (hm : membersOf u = membersOf (rebuilt rp s))
include hrooms hrp hs hm

theorem HomedBefore.cleared (h : HomedBefore s sets u) :
    HomedAt sets s rp (newRooms s rp.target) (clearedFloors rp.affected u) :=
  ⟨⟨cleared_housed hrooms hrp hs h.floors hm, h.releases⟩, cleared_laid hrooms hrp hs hm h.floors⟩

theorem BoundedBefore.cleared (h : BoundedBefore s sets u)
    (hc : ∀ a, (s.floors.get a).speakers.length ≤ Config.speakerCap) :
    BoundedAt sets s rp (fun _ => False) (newRooms s rp.target) (clearedFloors rp.affected u) := by
  have homed := h.before.cleared hrooms hrp hs hm
  refine ⟨⟨homed.homed, fun a _ => ?_, h.parts⟩, homed.laid⟩
  rw [clearedFloors_get, h.before.floors]
  split
  · exact Nat.zero_le _
  · exact hc a

theorem ClearBefore.cleared (h : ClearBefore s sets u)
    (hc : ∀ a, (s.floors.get a).speakers.length ≤ Config.speakerCap) :
    ClearAt sets s rp (fun _ => False) (newRooms s rp.target) (clearedFloors rp.affected u) :=
  ⟨h.before.cleared hrooms hrp hs hm hc,
    h.voiced.speakingCongr rfl fun _ => cleared_speaking hrooms hrp hs h.before.before.floors⟩

theorem TunedBefore.cleared (h : TunedBefore s sets u)
    (hc : ∀ a, (s.floors.get a).speakers.length ≤ Config.speakerCap) :
    TunedAt sets s rp (fun _ => False) (newRooms s rp.target) (clearedFloors rp.affected u) :=
  ⟨h.before.cleared hrooms hrp hs hm hc, h.channelled.speakingCongr rfl (fun _ => rfl) fun _ =>
    cleared_speaking hrooms hrp hs h.before.before.before.floors⟩

end

/-- Nothing is pending once all rooms are built. -/
theorem pending_nil (s : State) (rp : Repartition) : Pending s rp [] = NoSeat :=
  funext fun _ => propext ⟨fun h => (nomatch h.2), False.elim⟩

/-! ### The mix engine's share -/

section
variable (hrooms : roomsOk s) (hrp : s.repartition = some rp) (hm : membersOf u = membersOf (rebuilt rp s))
include hrooms hrp hm

theorem Homed.mixed (h : Homed (.before (roomOf s)) u) :
    Homed .current (commitMix rp.affected (newRooms s rp.target) u) where
  housed := h.housed.congr (commitMix_members ..) (commitMix_floors ..)
  home := commitMix_releasesFor hrooms hrp hm h.home

theorem HomedBefore.mixed (h : HomedBefore s (.before (roomOf s)) u) :
    HomedBefore s .current (commitMix rp.affected (newRooms s rp.target) u) where
  floors := (commitMix_floors ..).trans h.floors
  releases := commitMix_releasesFor hrooms hrp hm h.releases

theorem Bounded.mixed (h : Bounded (.before (roomOf s)) wide u) :
    Bounded .current wide (commitMix rp.affected (newRooms s rp.target) u) where
  homed := h.homed.mixed hrooms hrp hm
  speakers a ha := by rw [commitMix_floors]; exact h.speakers a ha
  parts := commitMix_parts hrooms hrp hm h.homed.home h.parts

theorem BoundedBefore.mixed (h : BoundedBefore s (.before (roomOf s)) u) :
    BoundedBefore s .current (commitMix rp.affected (newRooms s rp.target) u) :=
  ⟨h.before.mixed hrooms hrp hm, commitMix_parts hrooms hrp hm h.before.releases h.parts⟩

theorem Clear.mixed (h : Clear (.before (roomOf s)) u) :
    Clear .current (commitMix rp.affected (newRooms s rp.target) u) :=
  ⟨h.bounded.mixed hrooms hrp hm, commitMix_voiced hrooms hrp hm h.bounded.homed.home h.voiced⟩

theorem ClearBefore.mixed (h : ClearBefore s (.before (roomOf s)) u) :
    ClearBefore s .current (commitMix rp.affected (newRooms s rp.target) u) :=
  ⟨h.before.mixed hrooms hrp hm, commitMix_voiced hrooms hrp hm h.before.before.releases h.voiced⟩

theorem Tuned.mixed (h : Tuned (.before (roomOf s)) u) :
    Tuned .current (commitMix rp.affected (newRooms s rp.target) u) :=
  ⟨h.clear.mixed hrooms hrp hm,
    commitMix_channelled hrooms hrp hm h.clear.bounded.homed.home h.clear.voiced h.channelled⟩

theorem TunedBefore.mixed (h : TunedBefore s (.before (roomOf s)) u) :
    TunedBefore s .current (commitMix rp.affected (newRooms s rp.target) u) :=
  ⟨h.before.mixed hrooms hrp hm,
    commitMix_channelled hrooms hrp hm h.before.before.before.releases h.before.voiced h.channelled⟩

end

/-! ### The commit -/

/-- A condition before the floor controller's share, and one after it. -/
def Stage (before after : Sets → State → Prop) (sets : Sets) (floored : Bool) (u : State) : Prop :=
  if floored = true then after sets u else before sets u

theorem stage_commitCondition {before after : Sets → State → Prop}
    (start : before (.before (roomOf s)) (commitPartition rp s))
    (idle : ∀ {sets u v}, Idle u v → before sets u → before sets v)
    (mix : ∀ {u}, membersOf u = membersOf (rebuilt rp s) → before (.before (roomOf s)) u →
      before .current (commitMix rp.affected (newRooms s rp.target) u))
    (mix' : ∀ {u}, membersOf u = membersOf (rebuilt rp s) → after (.before (roomOf s)) u →
      after .current (commitMix rp.affected (newRooms s rp.target) u))
    (floor : ∀ {sets u}, membersOf u = membersOf (rebuilt rp s) → before sets u →
      after sets (commitFloors sets s rp.affected (newRooms s rp.target) u))
    (events : ∀ sets, FloorCondition sets (fun _ _ => after sets) fun _ _ _ _ => after sets) :
    CommitCondition s rp 0 (fun sets fl _ _ => Stage before after sets fl) fun sets _ _ _ _ => after sets where
  start := start
  idle {sets fl _ _ _ _} hi hu := by
    cases fl with
    | true => exact (events sets).idle (m := 0) (n := 0) hi hu
    | false => exact idle hi hu
  mix {fl _ _ _} hm hu := by
    cases fl with
    | true => exact mix' hm hu
    | false => exact mix hm hu
  floor _ hm hu := floor hm hu
  events := events

section
variable (hrooms : roomsOk s) (hrp : s.repartition = some rp)
include hrooms hrp

theorem commitStep_homed (order : List CommitShare) (h : Homed .current s) :
    Homed .current (commitStep order rp s) :=
  (stage_commitCondition (before := HomedBefore s) (after := Homed) (homedBefore_start h rp) (fun hi hu => hu.idle hi)
    (fun hm hu => hu.mixed hrooms hrp hm) (fun hm hu => hu.mixed hrooms hrp hm)
    (fun {sets _} hm hu => (foldl_buildFloor (B := fun _ rest _ _ => HomedAt sets s rp rest)
      (D := fun rest _ _ => HomedAt sets s rp rest)
      (fun ha hv => hv.place ha h.housed (affected_nodup hrooms hrp))
      (fun _ _ ha => (homed_soundBuild sets s rp ha).buildCondition) (newRooms_nodup s rp.target) (m := 0) (n := 0)
      (hu.cleared hrooms hrp h.housed hm)).homed)
    homed_floorCondition).shares hrooms hrp order

theorem commitStep_bounded (order : List CommitShare) (h : Bounded .current (fun _ => False) s) :
    Bounded .current (fun _ => False) (commitStep order rp s) :=
  (stage_commitCondition (before := BoundedBefore s) (after := fun sets => Bounded sets fun _ => False)
    (boundedBefore_start h rp) (fun hi hu => hu.idle hi)
    (fun hm hu => hu.mixed hrooms hrp hm) (fun hm hu => hu.mixed hrooms hrp hm)
    (fun {sets _} hm hu => (foldl_buildFloor (B := fun a rest _ _ => BoundedAt sets s rp (butOne a) rest)
      (D := fun rest _ _ => BoundedAt sets s rp (fun _ => False) rest)
      (fun ha hv => hv.place ha h.homed.housed (affected_nodup hrooms hrp))
      (fun _ _ ha => (bounded_soundBuild sets s rp ha).buildCondition) (newRooms_nodup s rp.target) (m := 0) (n := 0)
      (hu.cleared hrooms hrp h.homed.housed hm fun a => h.speakers a id)).bounded)
    fun sets => (bounded_soundCondition sets).floorCondition).shares hrooms hrp order

theorem commitStep_tuned (order : List CommitShare) (h : Tuned .current s) : Tuned .current (commitStep order rp s) :=
  (stage_commitCondition (before := TunedBefore s) (after := Tuned) (tunedBefore_start h rp) (fun hi hu => hu.idle hi)
    (fun hm hu => hu.mixed hrooms hrp hm) (fun hm hu => hu.mixed hrooms hrp hm)
    (fun {sets u} hm hu => by
      have built := foldl_buildFloor (B := fun a rest _ _ => TunedAt sets s rp (butOne a) rest)
        (D := fun rest _ _ => TunedAt sets s rp (fun _ => False) rest)
        (fun ha hv => hv.place hrooms hrp ha h.clear.bounded.homed.housed)
        (fun _ _ ha => (tuned_soundBuild hrooms hrp sets ha).buildCondition) (newRooms_nodup s rp.target) (m := 0) (n := 0)
        (hu.cleared hrooms hrp h.clear.bounded.homed.housed hm fun a => h.clear.bounded.speakers a id)
      obtain ⟨⟨bounded, voiced⟩, channelled⟩ := built
      rw [pending_nil] at voiced channelled
      exact ⟨⟨bounded.bounded, voiced⟩, channelled⟩)
    fun sets => (tuned_soundCondition sets).floorCondition).shares hrooms hrp order

end

end

end Sys2Proof.Machine
end


section
/-! Every step keeps channel tables, the capacities of lists, and the homes of release entries and held events (R50, R51,
R54, R56, R65, R97, R148, R149). -/

namespace Sys2Proof.Machine
open Sys2Proof.Safety

/-! ### Holder sets through a commit (R112) -/

/-- Floor entries are housed, and every holder set but that of the room with anchor `a` is within its capacity. -/
structure HeldBut (a : Segment) (s : State) : Prop where
  housed : Housed s
  others : ∀ b, b ≠ a → (s.floors.get b).holders.length ≤ Config.holderCap

/-- Floor entries are housed, and every holder set is within its capacity. -/
structure Held (s : State) : Prop where
  housed : Housed s
  holders : HoldersBounded s

section
variable {a : Segment} {s t u : State} {f : Floor → Floor} {rp : Repartition}

theorem HeldBut.modify (h : HeldBut a s) (housed : Housed t) (ht : t.floors = s.floors.modify a f) : HeldBut a t where
  housed := housed
  others b hb := by
    rw [ht, Tab.get_modify_ne _ _ (Ne.symm hb)]
    exact h.others b hb

theorem holders_buildCondition (sets : Sets) (a : Segment) :
    BuildCondition sets a (fun _ _ => HeldBut a) fun _ _ => Held where
  housed h := h.housed.floors a
  more _ _ h := h
  trims _ _ h := h.modify (h.housed.removes ..) (removeSpeaker_floors ..)
  requeues {_ _ s i} hz hk hq h := by
    obtain ⟨l, -, floors⟩ := requeueSpeaker_queue a s i
    exact h.modify (h.housed.requeues hz hk hq) floors
  caps {_ _ s} _ h := by
    refine ⟨h.housed.caps a, fun b => ?_⟩
    rw [State.modFloor_floors, Tab.get_modify]
    split
    · exact List.length_take_le ..
    · next hb => exact h.others b (Ne.symm hb)
  idle hi h := ⟨h.housed.congr (funext hi.members) hi.floors, h.holders.congr hi.floors⟩
  dequeues i h := ⟨(housed_floorCondition sets).takesRequest (a := a) (m := 0) (n := 0) i h.housed,
    h.holders.modify (takeRequest_floors ..) le_rfl⟩
  suspends h := ⟨h.housed.suspends a, h.holders.modify (suspendAll_floors ..) le_rfl⟩
  resumes h := ⟨h.housed.resumes a, h.holders.modify (resumeAll_floors ..) le_rfl⟩
  grants hg _ h := by
    obtain ⟨hz, silent⟩ := h.housed.mayGrant_queued hg
    exact ⟨h.housed.grants sets .none false hz silent, h.holders.grants _ _ _ _ _⟩

theorem HoldersBounded.cleared (h : HoldersBounded u) (affected : List Segment) :
    HoldersBounded (clearedFloors affected u) := fun b => by
  rw [clearedFloors_get]
  split
  · exact Nat.zero_le _
  · exact h b

section
variable (hrooms : roomsOk s) (hrp : s.repartition = some rp)
include hrooms hrp

theorem commitStep_holders (order : List CommitShare) (hs : Housed s) (h : HoldersBounded s) :
    HoldersBounded (commitStep order rp s) :=
  (stage_commitCondition (before := fun _ u => u.floors = s.floors) (after := fun _ => HoldersBounded)
    (commitPartition_floors rp s) (fun hi hu => hi.floors.trans hu)
    (fun _ hu => (commitMix_floors ..).trans hu) (fun _ hu => hu.congr (commitMix_floors ..))
    (fun {sets _} hm hu => (foldl_buildFloor (B := fun a _ _ _ => HeldBut a) (D := fun _ _ _ => Held)
      (fun {a _ _ _ _} _ hv => HeldBut.modify (f := fun _ => gatherFloor s rp.affected (membersOf _ a))
        ⟨hv.housed, fun b _ => hv.holders b⟩ (hv.housed.place hs (affected_nodup hrooms hrp) a) rfl)
      (fun a _ _ => holders_buildCondition sets a) (newRooms_nodup s rp.target) (m := 0) (n := 0)
      ⟨cleared_housed hrooms hrp hs hu hm, (h.congr hu).cleared rp.affected⟩).holders)
    holders_floorCondition).shares hrooms hrp order

end

/-! ### Channel tables through a commit (R50) -/

theorem trimSpeakers_channelsOk (sets : Sets) (n : Nat) (a : Segment) (h : channelsOk s) :
    channelsOk (trimSpeakers sets n a s) := by
  induction n generalizing s with
  | zero => exact h
  | succ n ih =>
    unfold trimSpeakers
    split
    · exact h
    · split
      · exact ih ((channels_floorCondition sets).removes (a := a) (w := true) (m := 0) (n := 0) _ rfl h)
      · exact h

theorem buildFloor_channelsOk (sets : Sets) (old : State) (affected : List Segment) (h : channelsOk s) (a : Segment) :
    channelsOk (buildFloor sets old affected s a) := by
  unfold buildFloor
  extract_lets gathered s1 s2 trimmed direct s3 s4 s5 s6
  have ok2 : channelsOk s2 := trimSpeakers_channelsOk (s := s1) sets _ a h
  have requeued (l : List SeatId) {u : State} (hu : channelsOk u) : channelsOk (l.foldl (requeueSpeaker a) u) := by
    induction l generalizing u with
    | nil => exact hu
    | cons i l ih => exact ih (channelsOk_congr hu (requeueSpeaker_quiet a i u).channels)
  have ok3 : channelsOk s3 := by
    unfold s3
    split
    · exact ok2
    · exact requeued trimmed ok2
  have ok5 : channelsOk s5 := by
    unfold s5
    split
    · exact (channels_floorCondition sets).removesRequests (m := 0) (n := 0) (s := s4) _ _ ok3
    · exact ok3
  have ok6 : channelsOk s6 := by
    unfold s6
    split
    · exact channelsOk_congr ok5 (suspendAll_quiet ..).channels
    · exact channelsOk_congr ok5 (resumeAll_quiet ..).channels
  exact (channels_floorCondition sets).autoAdvance (m := 0) (n := 0)
    ((channels_floorCondition sets).idle (m := 0) (n := 0) (commitPriority_idle old a s6) ok6)

theorem commitMix_channelsOk (affected news : List Segment) (h : channelsOk s) :
    channelsOk (commitMix affected news s) := by
  refine channelsOk_congr ?_ (commitMix_idle ..).channels
  have capped (l : List Segment) {u : State} (hu : channelsOk u) :
      channelsOk (l.foldl (fun s a => capRelease a s) u) := by
    induction l generalizing u with
    | nil => exact hu
    | cons a l ih => exact ih (channelsOk_without (fun k => capRelease_channels a k u) hu)
  exact capped news (u := mixesPlaced affected news s) h

theorem commitShare_channelsOk (sets : Sets) (old : State) (affected news : List Segment) (c : CommitShare)
    (h : channelsOk s) : channelsOk (commitShare sets old affected news s c) := by
  cases c with
  | mix => exact commitMix_channelsOk affected news h
  | floor =>
    have built (l : List Segment) {u : State} (hu : channelsOk u) :
        channelsOk (l.foldl (buildFloor sets old affected) u) := by
      induction l generalizing u with
      | nil => exact hu
      | cons a l ih =>
        have step := buildFloor_channelsOk (s := u) sets old affected hu a
        rw [List.foldl_cons]
        exact ih step
    exact built news (u := clearedFloors affected s) h
  | booths => exact channelsOk_congr h (commitBooths_boothFrame ..).idle.channels
  | taps => exact channelsOk_congr h (commitTaps_boothFrame s).idle.channels
  | trunk k => exact (channels_floorCondition sets).commitTrunk (m := 0) (n := 0) _ k h
  | startTest => exact channelsOk_congr h (startTest_idle ..).channels

theorem takeCommit_channelsOk (order : List CommitShare) (h : channelsOk s) : channelsOk (takeCommit order s) := by
  have shares (affected news : List Segment) (l : List CommitShare) (sets : Sets) {u : State} (hu : channelsOk u) :
      channelsOk (takeShares s affected news sets u l) := by
    induction l generalizing sets u with
    | nil => exact hu
    | cons c l ih => exact ih _ (commitShare_channelsOk sets s affected news c hu)
  refine takeCommit_keeps order h fun rp _ => ?_
  exact shares _ _ _ _ (channelsOk_congr h fun k => by rw [(commitPartition_same rp s).2.1])

end

/-! ### Power-on and the held reset (R2, R197) -/

theorem holdReset_quiet (s : State) : Quiet s (holdReset s) where
  members := rfl
  speakers _ := rfl
  releases _ := rfl
  channels k := by rw [holdReset, Tab.get_map]; rfl
  releaseCounter := rfl

theorem powerOn_releases (levels : WallMap) (o : Segment) : ((State.powerOn levels).mixes.get o).release = [] := by
  simp [State.powerOn, MixRoom.atReset]

theorem tuned_powerOn (levels : WallMap) : Tuned .current (State.powerOn levels) := by
  have seats (o : Segment) : releaseSeats (State.powerOn levels) o = [] := by
    rw [releaseSeats, powerOn_releases]
    rfl
  have silent (j : SeatId) : ¬Releasing (State.powerOn levels) j := fun ⟨o, ho⟩ => by
    rw [seats] at ho
    cases ho
  have still (j : SeatId) : ¬Speaking NoSeat (State.powerOn levels) j := by
    rintro (⟨a, ha⟩ | h)
    · rw [powerOn_floors] at ha
      cases ha
    · exact h
  have free (k : TrunkId) (c : Channel) : ((State.powerOn levels).trunks.get k).channels.get c = none := by
    simp [State.powerOn, Trunk.atReset]
  refine ⟨⟨⟨⟨housed_powerOn levels, fun o e he => ?_⟩, fun a _ => ?_, fun o a => ?_⟩, fun o => ?_, fun hr => ?_⟩,
    fun k c j hj => ?_, fun j => ?_⟩
  · rw [powerOn_releases] at he
    cases he
  · rw [powerOn_floors]
    exact Nat.zero_le _
  · rw [seats]
    exact Nat.zero_le _
  · rw [seats]
    exact .nil
  · exact absurd hr (silent _)
  · rw [free] at hj
    cases hj
  · simp [HasChannel, free, silent j, still j]

theorem holders_powerOn (levels : WallMap) : HoldersBounded (State.powerOn levels) := fun a => by
  rw [powerOn_floors]
  exact Nat.zero_le _

/-! ### Every step -/

section
variable {s t : State}

theorem quiet_pending (s : State) (l : List Instr) : Quiet s { s with pending := l } :=
  (pending_idle s l).quiet

theorem SoundCondition.pending {sets : Sets} {P : Nat → State → Prop} (h : SoundCondition sets P) {m : Nat} (hs : P m s)
    (l : List Instr) : P m { s with pending := l } :=
  h.quiet (quiet_pending s l) ((h.homed hs).housed.congr rfl rfl) hs

theorem SoundCondition.holds {sets : Sets} {P : Nat → State → Prop} (h : SoundCondition sets P) {m : Nat} (hs : P m s) :
    P m (holdReset s) :=
  h.quiet (holdReset_quiet s) ((h.homed hs).housed.congr rfl rfl) hs

theorem step_homed (hrooms : roomsOk s) (h : Homed .current s) (ht : step s = .next t) : Homed .current t :=
  homed_eventCondition.keeps (fun h => h.quiet (holdReset_quiet _) (h.housed.congr rfl rfl))
    (fun levels => (tuned_powerOn levels).clear.bounded.homed)
    (fun order l =>
      have hs : Homed .current { s with pending := l } := h.quiet (quiet_pending s l) (h.housed.congr rfl rfl)
      takeCommit_keeps order hs fun _ hrp => commitStep_homed (s := { s with pending := l }) hrooms hrp order hs) h ht

theorem step_bounded (hrooms : roomsOk s) (h : Bounded .current (fun _ => False) s) (ht : step s = .next t) :
    Bounded .current (fun _ => False) t :=
  bounded_eventCondition.keeps (fun h => (bounded_soundCondition .current).holds (m := 0) h)
    (fun levels => (tuned_powerOn levels).clear.bounded)
    (fun order l =>
      have hs := (bounded_soundCondition .current).pending (m := 0) h l
      takeCommit_keeps order hs fun _ hrp => commitStep_bounded (s := { s with pending := l }) hrooms hrp order hs) h ht

theorem step_tuned (hrooms : roomsOk s) (h : Tuned .current s) (ht : step s = .next t) : Tuned .current t :=
  tuned_eventCondition.keeps (fun h => (tuned_soundCondition .current).holds (m := 0) h) tuned_powerOn
    (fun order l =>
      have hs := (tuned_soundCondition .current).pending (m := 0) h l
      takeCommit_keeps order hs fun _ hrp => commitStep_tuned (s := { s with pending := l }) hrooms hrp order hs) h ht

theorem step_holders (hrooms : roomsOk s) (housed : Housed s) (h : HoldersBounded s) (ht : step s = .next t) :
    HoldersBounded t :=
  holders_eventCondition.keeps (fun h => h) holders_powerOn
    (fun order l => takeCommit_keeps (s := { s with pending := l }) order h fun _ hrp =>
      commitStep_holders (s := { s with pending := l }) hrooms hrp order (housed.congr rfl rfl) h) h ht

theorem step_channelsOk (h : channelsOk s) (ht : step s = .next t) : channelsOk t :=
  channels_eventCondition.keeps (fun h => channelsOk_congr h (holdReset_quiet _).channels)
    (fun levels => (tuned_powerOn levels).channelled.ok)
    (fun order l => takeCommit_channelsOk (s := { s with pending := l }) order h) h ht

/-! ### The conditions of the statements -/

theorem homed_of_ok (hrooms : roomsOk s) (he : entriesOk s) (hr : releasesAtHome s) : Homed .current s :=
  have housed := housed_of_ok hrooms he
  ⟨housed, (releasesAtHome_iff housed).mp hr⟩

theorem Homed.releasesAtHome (h : Homed .current s) : releasesAtHome s :=
  (releasesAtHome_iff h.housed).mpr h.home

theorem bounded_of_ok (h : Homed .current s) (hb : floorsBounded s) : Bounded .current (fun _ => False) s where
  homed := h
  speakers a _ := (hb a).1
  parts o _ := List.countP_le_length.trans (by rw [releaseSeats, List.length_map]; exact (hb o).2.2)

theorem floorsBounded_of (h : Bounded .current (fun _ => False) s) (hh : HoldersBounded s) : floorsBounded s := fun a =>
  ⟨h.speakers a id, hh a, by
    have := h.length_releaseSeats a
    rwa [releaseSeats, List.length_map] at this⟩

theorem mem_soundingSeats {i : SeatId} : i ∈ soundingSeats s ↔ Releasing s i ∨ Speaking NoSeat s i := by
  simp only [soundingSeats, List.mem_append, List.mem_flatMap, allSegments, List.mem_finRange, true_and, Releasing,
    releaseSeats, Speaking, NoSeat, or_false, hasSpeaker_iff, List.mem_map]

/-- Entries of different rooms are of different seats, so that no seat sounds twice where none does in or between its
lists. -/
theorem nodup_soundingSeats_iff (h : Homed .current s) : (soundingSeats s).Nodup ↔ Voiced NoSeat s := by
  have mem (i : SeatId) : (i ∈ allSegments.flatMap fun a => (s.floors.get a).speakers.map Speaker.seat) ↔
      Speaking NoSeat s i := by
    simp only [List.mem_flatMap, allSegments, List.mem_finRange, true_and, Speaking, NoSeat, or_false, hasSpeaker_iff,
      List.mem_map]
  have mem' (i : SeatId) : (i ∈ allSegments.flatMap fun a => (s.mixes.get a).release.map Release.seat) ↔
      Releasing s i := by
    simp only [List.mem_flatMap, allSegments, List.mem_finRange, true_and, Releasing, releaseSeats]
  unfold soundingSeats
  rw [List.nodup_append]
  constructor
  · rintro ⟨releases, -, apart⟩
    exact ⟨fun o => (List.nodup_flatMap.mp releases).1 o (List.mem_finRange o),
      fun hr hs => apart _ ((mem' _).mpr hr) _ ((mem _).mpr hs) rfl⟩
  · intro hv
    refine ⟨List.nodup_flatMap.mpr ⟨fun o _ => hv.once o, ?_⟩, List.nodup_flatMap.mpr
      ⟨fun a _ => (h.housed.floors a).speakers, ?_⟩, fun i hi j hj hij => ?_⟩
    · refine (List.nodup_finRange 6).imp fun {a b} hab i ha hb => hab ?_
      rw [← h.releases_at ha, h.releases_at hb]
    · refine (List.nodup_finRange 6).imp fun {a b} hab i ha hb => hab ?_
      obtain ⟨x, hx, rfl⟩ := List.mem_map.mp ha
      obtain ⟨y, hy, hxy⟩ := List.mem_map.mp hb
      rw [← h.housed.room_of_speaker hx, ← h.housed.room_of_speaker hy, hxy]
    · subst hij
      exact hv.apart ((mem' i).mp hi) ((mem i).mp hj)

theorem channelsExact_iff : channelsExact s ↔ ∀ i, HasChannel s i ↔ Releasing s i ∨ Speaking NoSeat s i := by
  simp only [channelsExact, mem_soundingSeats, HasChannel]

theorem tuned_of_ok (hb : Bounded .current (fun _ => False) s) (hc : channelsOk s) (hn : (soundingSeats s).Nodup)
    (hx : channelsExact s) : Tuned .current s :=
  ⟨⟨hb, (nodup_soundingSeats_iff hb.homed).mp hn⟩, hc, channelsExact_iff.mp hx⟩

end

/-- Settles O9: a grant claims a channel, and removals, release ends and overfull release sets free them. -/
theorem stepKeepsChannels : Obligations.StepKeepsChannels := by
  refine ⟨fun _ _ => step_channelsOk, fun s t hc hrooms he hr _ hb hn hx ht => ?_⟩
  have tuned : Tuned .current t :=
    step_tuned hrooms (tuned_of_ok (bounded_of_ok (homed_of_ok hrooms he hr) hb) hc hn hx) ht
  exact ⟨channelsExact_iff.mpr tuned.channelled.exact,
    (nodup_soundingSeats_iff tuned.clear.bounded.homed).mpr tuned.clear.voiced⟩

end Sys2Proof.Machine
end


section
/-! Release sets stay in the order of their stamps, through the wrap of the release counter (R148). -/

namespace Sys2Proof.Machine
open Sys2Proof.Safety

/-! ### Stamps within a window -/

/-- How far a stamp lies after the stamp `b`. -/
def after (b x : Clock) : Nat :=
  (x - b).toNat

theorem after_injective {b x y : Clock} (h : after b x = after b y) : x = y := by
  have := BitVec.eq_of_toNat_eq h
  exact sub_left_injective this

theorem after_succ {b c : Clock} (h : after b c + 1 < 4294967296) : after b (c + 1) = after b c + 1 := by
  have shift : c + 1 - b = (c - b) + 1 := by ring
  rw [after, shift, BitVec.toNat_add]
  exact Nat.mod_eq_of_lt h

/-- The age of a stamp at a counter. -/
theorem age_eq_after {b c x : Clock} (h : after b x ≤ after b c) : age c x = after b c - after b x := by
  have shift : c - x = (c - b) - (x - b) := by ring
  rw [age, shift]
  exact BitVec.toNat_sub_of_le h

/-- Stamps within 2^31 after `b` compare as their distances. -/
theorem stampEarlier_eq_after {b x y : Clock} (hx : after b x < 2147483648) (hy : after b y < 2147483648) :
    stampEarlier x y = decide (after b x < after b y) := by
  unfold stampEarlier
  unfold after at *
  rw [show x - y = (x - b) - (y - b) by bv_omega]
  generalize x - b = u at *
  generalize y - b = v at *
  rw [decide_eq_decide, BitVec.toInt_eq_toNat_cond, BitVec.toNat_sub]
  omega

/-- Orders that agree on a list sort it alike. -/
theorem sortBy_congr {α : Type} {before before' : α → α → Bool} {l : List α}
    (h : ∀ x ∈ l, ∀ y ∈ l, before x y = before' x y) : sortBy before l = sortBy before' l := by
  have insert (x : α) (hx : x ∈ l) (acc : List α) (hacc : ∀ y ∈ acc, y ∈ l) :
      insertBy before x acc = insertBy before' x acc := by
    induction acc with
    | nil => rfl
    | cons y ys ih =>
      rw [insertBy, insertBy, h x hx y (hacc y List.mem_cons_self), ih fun z hz => hacc z (List.mem_cons_of_mem y hz)]
  have fold (k acc : List α) (hk : ∀ x ∈ k, x ∈ l) (hacc : ∀ y ∈ acc, y ∈ l) :
      k.foldl (fun acc x => insertBy before x acc) acc = k.foldl (fun acc x => insertBy before' x acc) acc := by
    induction k generalizing acc with
    | nil => rfl
    | cons x k ih =>
      have hx := hk x List.mem_cons_self
      rw [List.foldl_cons, List.foldl_cons, insert x hx acc hacc]
      refine ih _ (fun z hz => hk z (List.mem_cons_of_mem x hz)) fun z hz => ?_
      rcases mem_insertBy.mp hz with rfl | hz
      exacts [hx, hacc z hz]
  exact fold l [] (fun _ hx => hx) nofun

/-! ### Stamped entries -/

/-- The entries that `has` names have stamps between `b` and the counter `c`, and no two seats one stamp. -/
structure Stamped {α : Type} (stamp : α → Clock) (seat : α → SeatId) (b c : Clock) (has : α → Prop) : Prop where
  behind : ∀ x, has x → after b (stamp x) < after b c
  one : ∀ x y, has x → has y → stamp x = stamp y → seat x = seat y

section
variable {α : Type} {stamp : α → Clock} {seat : α → SeatId} {b c : Clock} {has has' : α → Prop}

theorem Stamped.of_subset (h : Stamped stamp seat b c has) (hs : ∀ x, has' x → has x) : Stamped stamp seat b c has' :=
  ⟨fun x hx => h.behind x (hs x hx), fun x y hx hy => h.one x y (hs x hx) (hs y hy)⟩

/-- An entry is made with the counter's stamp, and the counter counts. -/
theorem Stamped.add (h : Stamped stamp seat b c has) (hc : after b c + 1 < 4294967296) {i : SeatId}
    (hs : ∀ x, has' x → has x ∨ stamp x = c ∧ seat x = i) : Stamped stamp seat b (c + 1) has' := by
  have old (x : α) (hx : has x) : stamp x ≠ c := fun e => by
    have := h.behind x hx
    rw [e] at this
    exact absurd this (Nat.lt_irrefl _)
  refine ⟨fun x hx => ?_, fun x y hx hy hxy => ?_⟩
  · rw [after_succ hc]
    rcases hs x hx with hx | ⟨e, -⟩
    · exact (h.behind x hx).trans (Nat.lt_succ_self _)
    · rw [e]
      exact Nat.lt_succ_self _
  · rcases hs x hx with hx | ⟨ex, sx⟩ <;> rcases hs y hy with hy | ⟨ey, sy⟩
    · exact h.one x y hx hy hxy
    · exact absurd (hxy.trans ey) (old x hx)
    · exact absurd (hxy.symm.trans ex) (old y hy)
    · rw [sx, sy]

/-- Where no two entries of a list are of one seat, all its stamps differ. -/
theorem Stamped.nodup (h : Stamped stamp seat b c has) {l : List α} (hl : ∀ x ∈ l, has x) (hn : (l.map seat).Nodup) :
    (l.map stamp).Nodup :=
  List.pairwise_map.mpr ((List.pairwise_map.mp hn).imp_of_mem fun hx hy hne e =>
    hne (h.one _ _ (hl _ hx) (hl _ hy) e))

/-- Stamps tell entries apart, and lie behind the counter. -/
theorem stamped_of_ages {span : Nat} (hs : span < 2147483648) {l : List α} (hn : (l.map stamp).Nodup)
    (ha : ∀ x ∈ l, 0 < age c (stamp x) ∧ age c (stamp x) ≤ span) :
    after (c - BitVec.ofNat 32 span) c = span ∧ Stamped stamp seat (c - BitVec.ofNat 32 span) c (· ∈ l) := by
  have counter : after (c - BitVec.ofNat 32 span) c = span := by
    rw [after, sub_sub_cancel, BitVec.toNat_ofNat]
    omega
  refine ⟨counter, fun x hx => ?_, fun x y hx hy hxy => ?_⟩
  · obtain ⟨pos, le⟩ := ha x hx
    have dist : after (c - BitVec.ofNat 32 span) (stamp x) = span - age c (stamp x) := by
      have shift : stamp x - (c - BitVec.ofNat 32 span) = BitVec.ofNat 32 span - (c - stamp x) := by ring
      have le' : (c - stamp x).toNat ≤ (BitVec.ofNat 32 span).toNat := by
        rw [BitVec.toNat_ofNat]
        rw [age] at le
        omega
      rw [after, shift, BitVec.toNat_sub_of_le le', BitVec.toNat_ofNat, age]
      omega
    rw [counter, dist]
    omega
  · rw [List.inj_on_of_nodup_map hn hx hy hxy]

end

/-- A condition on the distances of stamps after some stamp, as long as they stay below 2^31 (R67, R148). -/
def InWindow (span m : Nat) (Q : Clock → Nat → Prop) : Prop :=
  span + m < 2147483648 → ∃ b, Q b (span + m)

theorem InWindow.imp {span m m' : Nat} {Q Q' : Clock → Nat → Prop} (h : InWindow span m Q) (hm : m ≤ m')
    (hq : ∀ b, span + m' < 2147483648 → Q b (span + m) → Q' b (span + m')) : InWindow span m' Q' := fun hw => by
  obtain ⟨b, hb⟩ := h (by omega)
  exact ⟨b, hq b hw hb⟩

/-! ### Release sets -/

/-- Release entries are stamped, their counter at most `limit` after `b`, and every set is in the order of its stamps. -/
structure ReleaseOrder (s : State) (b : Clock) (limit : Nat) : Prop where
  counter : after b s.releaseCounter ≤ limit
  stamped : Stamped Release.stamp Release.seat b s.releaseCounter fun e => ∃ o, e ∈ (s.mixes.get o).release
  sorted : ∀ o, (s.mixes.get o).release.Pairwise fun x y => after b x.stamp ≤ after b y.stamp

section
variable {sets : Sets} {a : Segment} {s t u : State} {i : SeatId} {b : Clock} {limit : Nat}

/-- Entries may leave. -/
theorem ReleaseOrder.of_sublist (h : ReleaseOrder s b limit) (hc : t.releaseCounter = s.releaseCounter)
    (hs : ∀ o, (t.mixes.get o).release.Sublist (s.mixes.get o).release) : ReleaseOrder t b limit where
  counter := by rw [hc]; exact h.counter
  stamped := by
    rw [hc]
    exact h.stamped.of_subset fun x ⟨o, ho⟩ => ⟨o, (hs o).subset ho⟩
  sorted o := (h.sorted o).sublist (hs o)

theorem ReleaseOrder.more {limit' : Nat} (h : ReleaseOrder s b limit) (hl : limit ≤ limit') : ReleaseOrder s b limit' :=
  ⟨h.counter.trans hl, h.stamped, h.sorted⟩

theorem release_filter_sublist {o : Segment} {p : Release → Bool}
    (ht : t.mixes = s.mixes.modify o fun m => { m with release := m.release.filter p }) (b : Segment) :
    (t.mixes.get b).release.Sublist (s.mixes.get b).release := by
  rw [ht, Tab.get_modify]
  split
  · next h => subst h; exact List.filter_sublist
  · exact .refl _

/-- A removal makes the newest entry (R148). -/
theorem ReleaseOrder.removes (h : ReleaseOrder s b limit) (hl : limit + 1 < 4294967296) {e : Speaker} {reason : FloorReason}
    (hk : keepsGain reason = true) (he : speakerOf (s.floors.get a) i = some e) :
    ReleaseOrder (removeSpeaker sets a i reason s) b (limit + 1) := by
  have hc : after b s.releaseCounter + 1 < 4294967296 := (Nat.succ_le_succ h.counter).trans_lt hl
  have mixes := removeSpeaker_mixes (sets := sets) he hk
  have lists (o : Segment) : ((removeSpeaker sets a i reason s).mixes.get o).release =
      if sets.roomFor a i = o then keptReleases sets (membersOf s a) ((s.mixes.get o).release ++ [newRelease s i e.gain])
      else (s.mixes.get o).release := by
    rw [mixes, Tab.get_modify]
    split
    · next h => subst h; rfl
    · rfl
  refine ⟨?_, ?_, fun o => ?_⟩
  · rw [removeSpeaker_releaseCounter he hk, after_succ hc]
    exact Nat.succ_le_succ h.counter
  · rw [removeSpeaker_releaseCounter he hk]
    refine h.stamped.add hc (i := i) fun x ⟨o, ho⟩ => ?_
    rw [lists] at ho
    split at ho
    · rcases List.mem_append.mp ((keptReleases_sublist ..).subset ho) with ho | ho
      · exact .inl ⟨o, ho⟩
      · rw [List.mem_singleton.mp ho]
        exact .inr ⟨rfl, rfl⟩
    · exact .inl ⟨o, ho⟩
  · rw [lists]
    split
    · refine List.Pairwise.sublist (keptReleases_sublist ..) (List.pairwise_append.mpr
        ⟨h.sorted o, List.pairwise_singleton .., fun x hx y hy => ?_⟩)
      rw [List.mem_singleton.mp hy]
      exact (h.stamped.behind x ⟨o, hx⟩).le
    · exact h.sorted o

/-! ### The mix engine's share (R160) -/

theorem sorted_sortBy_release {l : List Release} (hl : ∀ x ∈ l, after b x.stamp < 2147483648) :
    (sortBy releaseBefore l).Pairwise fun x y => after b x.stamp ≤ after b y.stamp := by
  have agree : sortBy releaseBefore l = sortBy (fun x y => decide (after b x.stamp < after b y.stamp)) l :=
    sortBy_congr fun x hx y hy => stampEarlier_eq_after (hl x hx) (hl y hy)
  rw [agree]
  refine sortBy_pairwise (r := fun x y : Release => after b x.stamp ≤ after b y.stamp) (fun x y h => ?_) (fun x y h => ?_)
    (fun _ _ _ => Nat.le_trans) l
  · exact (of_decide_eq_true h).le
  · exact Nat.le_of_not_lt (of_decide_eq_false h)

theorem ReleaseOrder.mixed (h : ReleaseOrder u b limit) (hl : limit < 2147483648) {rp : Repartition} (hrooms : roomsOk s)
    (hrp : s.repartition = some rp) (hm : membersOf u = membersOf (rebuilt rp s))
    (hu : ReleasesFor (.before (roomOf s)) u) :
    ReleaseOrder (commitMix rp.affected (newRooms s rp.target) u) b limit := by
  have counter := (commitMix_counters rp.affected (newRooms s rp.target) u).1
  have window (x : Release) {o : Segment} (hx : x ∈ (u.mixes.get o).release) : after b x.stamp < 2147483648 :=
    ((h.stamped.behind x ⟨o, hx⟩).trans_le h.counter).trans hl
  refine ⟨by rw [counter]; exact h.counter, ?_, fun o => ?_⟩
  · rw [counter]
    exact h.stamped.of_subset fun x ⟨o, ho⟩ =>
      ⟨_, ((mem_placedRelease hrooms hrp hm hu).mp (commitMix_sub.subset ho)).1⟩
  · refine List.Pairwise.sublist commitMix_sub ?_
    unfold placedRelease
    split
    · refine sorted_sortBy_release fun x hx => ?_
      obtain ⟨c, -, hc⟩ := List.mem_flatMap.mp (List.mem_filter.mp hx).1
      exact window x hc
    · split
      · exact .nil
      · exact h.sorted o

/-! ### The frame event (R150) -/

/-- A frame event changes gains, and entries leave. -/
theorem ReleaseOrder.frame (h : ReleaseOrder s b limit) (levels : WallMap) (inputs : Tab 8 (Option Sys2Proof.BoothFrame)) :
    ReleaseOrder (frameStep levels inputs s) b limit := by
  have counter : (frameStep levels inputs s).releaseCounter = s.releaseCounter := by
    rw [frameStep_rest]
    rfl
  have lists (o : Segment) : ∃ g : Release → Release, (∀ e, (g e).seat = e.seat ∧ (g e).stamp = e.stamp) ∧
      ((frameStep levels inputs s).mixes.get o).release.Sublist ((s.mixes.get o).release.map g) := by
    obtain ⟨g, hg, hl⟩ := lowered_map s o
    refine ⟨g, hg, ?_⟩
    rw [frameStep_releases, ← hl]
    exact List.filter_sublist
  refine ⟨by rw [counter]; exact h.counter, ?_, fun o => ?_⟩
  · rw [counter]
    have origin (x : Release) (hx : ∃ o, x ∈ ((frameStep levels inputs s).mixes.get o).release) :
        ∃ y, (∃ o, y ∈ (s.mixes.get o).release) ∧ x.seat = y.seat ∧ x.stamp = y.stamp := by
      obtain ⟨o, ho⟩ := hx
      obtain ⟨g, hg, hl⟩ := lists o
      obtain ⟨y, hy, rfl⟩ := List.mem_map.mp (hl.subset ho)
      exact ⟨y, ⟨o, hy⟩, hg y⟩
    refine ⟨fun x hx => ?_, fun x y hx hy hxy => ?_⟩
    · obtain ⟨x', hx', -, ht⟩ := origin x hx
      rw [ht]
      exact h.stamped.behind x' hx'
    · obtain ⟨x', hx', hsx, htx⟩ := origin x hx
      obtain ⟨y', hy', hsy, hty⟩ := origin y hy
      rw [hsx, hsy]
      exact h.stamped.one x' y' hx' hy' (by rw [← htx, hxy, hty])
  · obtain ⟨g, hg, hl⟩ := lists o
    refine List.Pairwise.sublist hl (List.pairwise_map.mpr ((h.sorted o).imp fun {x y} hxy => ?_))
    rw [(hg x).2, (hg y).2]
    exact hxy

end

end Sys2Proof.Machine
end


section
/-! Every step keeps the order of release sets (R148, R149, R159, R160). -/

namespace Sys2Proof.Machine
open Sys2Proof.Safety

/-- Lists are within their capacities, no seat sounds twice, and release sets are in order while at most `m` stamps are taken
from the counter. -/
structure Released (span : Nat) (sets : Sets) (m : Nat) (s : State) : Prop where
  clear : Clear sets s
  order : InWindow span m (ReleaseOrder s)

section
variable {span m m' : Nat} {s t u : State} {sets : Sets} {a : Segment} {i : SeatId}

theorem InWindow.releasesKept (h : InWindow span m (ReleaseOrder s)) (hc : t.releaseCounter = s.releaseCounter)
    (hs : ∀ o, (t.mixes.get o).release.Sublist (s.mixes.get o).release) : InWindow span m (ReleaseOrder t) :=
  h.imp le_rfl fun _ _ hb => hb.of_sublist hc hs

theorem InWindow.releasesMore (h : InWindow span m (ReleaseOrder s)) (hm : m ≤ m') : InWindow span m' (ReleaseOrder s) :=
  h.imp hm fun _ _ hb => hb.more (Nat.add_le_add_left hm span)

theorem InWindow.releasesQuiet (h : InWindow span m (ReleaseOrder s)) (hq : Quiet s t) : InWindow span m (ReleaseOrder t) :=
  h.releasesKept hq.releaseCounter fun o => by rw [hq.releases]

theorem InWindow.releasesRemoved (h : InWindow span m (ReleaseOrder s)) {e : Speaker} {reason : FloorReason}
    (hk : keepsGain reason = true) (he : speakerOf (s.floors.get a) i = some e) :
    InWindow span (m + 1) (ReleaseOrder (removeSpeaker sets a i reason s)) :=
  h.imp (Nat.le_succ m) fun _ hw hb => hb.removes (by omega) hk he

theorem InWindow.releasesGranted (h : InWindow span m (ReleaseOrder s)) (reason : FloorReason) (byPriority : Bool) :
    InWindow span m (ReleaseOrder (grantSeat sets a i reason byPriority s)) :=
  h.releasesKept (grantSeat_releaseCounter byPriority) (release_filter_sublist (grantSeat_mixes byPriority))

end

theorem released_soundCondition (span : Nat) (sets : Sets) : SoundCondition sets (Released span sets) where
  homed h := h.clear.bounded.homed
  capped h a := h.clear.bounded.speakers a id
  more hm h := ⟨h.clear, h.order.releasesMore hm⟩
  quiet hq ht h := ⟨(clear_soundCondition sets).quiet (m := 0) hq ht h.clear, h.order.releasesQuiet hq⟩
  removes hk he h := ⟨(clear_soundCondition sets).removes (m := 0) hk he h.clear, h.order.releasesRemoved hk he⟩
  drops {_ s i reason} hk h := by
    obtain ⟨mixes, -, counter, -⟩ := dropSeat_core (sets := sets) (a := seatRoom s i) (i := i) (s := s) hk
    exact ⟨(clear_soundCondition sets).drops (m := 0) hk h.clear,
      h.order.releasesKept counter (release_filter_sublist mixes)⟩
  grants reason byPriority hz hs room h :=
    ⟨(clear_soundCondition sets).grants (m := 0) reason byPriority hz hs room h.clear,
      h.order.releasesGranted reason byPriority⟩

theorem releaseEndOf_sublist (a : Segment) (i : SeatId) (s : State) (o : Segment) :
    ((releaseEndOf a i s).mixes.get o).release.Sublist (s.mixes.get o).release := by
  rcases releaseEndOf_mixes a i s with hx | hx
  · rw [hx]
  · exact release_filter_sublist hx o

theorem releaseEndOf_releaseCounter (a : Segment) (i : SeatId) (s : State) :
    (releaseEndOf a i s).releaseCounter = s.releaseCounter := by
  unfold releaseEndOf
  split <;> rfl

theorem released_eventCondition (span : Nat) :
    EventCondition (fun m _ => Released span .current m) fun _ _ m _ => Released span .current m :=
  (released_soundCondition span .current).eventCondition rfl
    (fun i h => ⟨clear_eventCondition.releaseEnd (m := 0) (n := 0) i h.clear,
      h.order.releasesKept (releaseEndOf_releaseCounter ..) (releaseEndOf_sublist _ _ _)⟩)
    fun levels inputs h => ⟨clear_eventCondition.frame (m := 0) (n := 0) levels inputs h.clear,
      h.order.imp le_rfl fun _ _ hb => hb.frame levels inputs⟩

/-! ### The commit -/

/-- As `ClearAt`, with the order of release sets. -/
structure ReleasedAt (span : Nat) (sets : Sets) (s : State) (rp : Repartition) (wide : Segment → Prop) (rest : List Segment)
    (m : Nat) (u : State) : Prop where
  clear : ClearAt sets s rp wide rest u
  order : InWindow span m (ReleaseOrder u)

/-- As `ClearBefore`, with the order of release sets. -/
structure ReleasedBefore (span : Nat) (s : State) (sets : Sets) (m : Nat) (u : State) : Prop where
  clear : ClearBefore s sets u
  order : InWindow span m (ReleaseOrder u)

/-- The release sets before and after the floor controller's share. -/
def ReleasedStage (span : Nat) (s : State) (sets : Sets) (floored : Bool) (m : Nat) (u : State) : Prop :=
  if floored = true then Released span sets m u else ReleasedBefore span s sets m u

section
variable {span m : Nat} {s u : State} {rp : Repartition} {rest : List Segment} {a : Segment} {sets : Sets}
  (hrooms : roomsOk s) (hrp : s.repartition = some rp)
include hrooms hrp

theorem released_soundBuild (span : Nat) (sets : Sets) (ha : a ∉ rest) :
    SoundBuild sets a (ReleasedAt span sets s rp (butOne a) rest) (ReleasedAt span sets s rp (fun _ => False) rest) where
  homed h := h.clear.at'.bounded.homed
  homed' h := h.clear.at'.bounded.homed
  more hm h := ⟨h.clear, h.order.releasesMore hm⟩
  removes hk he h := ⟨(clear_soundBuild hrooms hrp sets ha).removes (m := 0) hk he h.clear, h.order.releasesRemoved hk he⟩
  quiet hq ht h := ⟨(clear_soundBuild hrooms hrp sets ha).quiet (m := 0) hq ht h.clear, h.order.releasesQuiet hq⟩
  quiet' hq ht h := ⟨(clear_soundBuild hrooms hrp sets ha).quiet' (m := 0) hq ht h.clear, h.order.releasesQuiet hq⟩
  settles hl h := ⟨(clear_soundBuild hrooms hrp sets ha).settles (m := 0) hl h.clear, h.order⟩
  grants reason byPriority hz hs room h :=
    ⟨(clear_soundBuild hrooms hrp sets ha).grants (m := 0) reason byPriority hz hs room h.clear,
      h.order.releasesGranted reason byPriority⟩

/-- The entries trimmed at a commit are at most those of the speaker lists. -/
theorem gatheredCount_le_sixty (hm : membersOf u = membersOf (rebuilt rp s))
    (hc : ∀ a, (s.floors.get a).speakers.length ≤ Config.speakerCap) :
    gatheredCount s rp.affected (membersOf u) (newRooms s rp.target) ≤ 60 :=
  (gatheredCount_le (room := anchorIn rp.target) (fun a g hg => by
    rw [hm] at hg
    exact (mem_members_rebuilt hrooms hrp).mp hg) (newRooms_nodup s rp.target)).trans
    (length_gathered_le (affected_nodup hrooms hrp) hc)

theorem commitFloors_released (h : Clear .current s) (hm : membersOf u = membersOf (rebuilt rp s))
    (hu : ReleasedBefore span s sets m u) :
    Released span sets (m + 60) (commitFloors sets s rp.affected (newRooms s rp.target) u) := by
  have cap (a : Segment) := h.bounded.speakers a id
  have built := foldl_buildFloor (B := fun a rest m _ => ReleasedAt span sets s rp (butOne a) rest m)
    (D := fun rest m _ => ReleasedAt span sets s rp (fun _ => False) rest m)
    (fun ha hv => ⟨hv.clear.place hrooms hrp ha h.bounded.homed.housed,
      hv.order.releasesKept rfl fun _ => .refl _⟩)
    (fun _ _ ha => (released_soundBuild hrooms hrp span sets ha).buildCondition) (newRooms_nodup s rp.target)
    (m := m) (n := 0) (s := clearedFloors rp.affected u)
    ⟨hu.clear.cleared hrooms hrp h.bounded.homed.housed hm cap, hu.order.releasesKept rfl fun _ => .refl _⟩
  obtain ⟨⟨bounded, voiced⟩, order⟩ := built
  rw [pending_nil] at voiced
  exact ⟨⟨bounded.bounded, voiced⟩,
    order.releasesMore (Nat.add_le_add_left (gatheredCount_le_sixty hrooms hrp hm cap) m)⟩

theorem released_commitCondition (h : Released span .current 0 s) :
    CommitCondition s rp 60 (fun sets fl m _ => ReleasedStage span s sets fl m)
      fun sets _ _ m _ => Released span sets m where
  start := ⟨clearBefore_start h.clear rp, h.order.releasesKept (commitPartition_same rp s).2.2.1 fun o => by
    rw [(commitPartition_same rp s).1]⟩
  idle {sets fl m _ _ _} hi hu := by
    cases fl with
    | true => exact (released_soundCondition span sets).floorCondition.idle (m := m) (n := 0) hi hu
    | false => exact ⟨ClearBefore.idle hu.clear hi, InWindow.releasesQuiet hu.order hi.quiet⟩
  mix {fl _ _ _} hm hu := by
    cases fl with
    | true => exact ⟨hu.clear.mixed hrooms hrp hm, InWindow.imp hu.order le_rfl fun _ hw hb =>
        hb.mixed hw hrooms hrp hm hu.clear.bounded.homed.home⟩
    | false => exact ⟨hu.clear.mixed hrooms hrp hm, InWindow.imp hu.order le_rfl fun _ hw hb =>
        hb.mixed hw hrooms hrp hm hu.clear.before.before.releases⟩
  floor _ hm hu := commitFloors_released hrooms hrp h.clear hm hu
  events sets := (released_soundCondition span sets).floorCondition

end

/-! ### Every step -/

/-- A commit takes at most 108 stamps of a counter: 60 entries are trimmed, and 48 events replayed (R57, R93). -/
theorem shareOrder_cost_le {s : State} (ht : trunksOk s) (order : List CommitShare) :
    ((shareOrder order).map (shareCost s 60)).sum ≤ 128 := by
  refine (shareOrder_cost s 60 order).trans ?_
  have eight (k : TrunkId) : (s.trunks.get k).intake.length ≤ 8 := (ht k).2.2.2.2.2.2.2.2.2.1
  have := List.sum_le_card_nsmul (allSegments.map fun k => (s.trunks.get k).intake.length) 8 fun x hx => by
    obtain ⟨k, -, rfl⟩ := List.mem_map.mp hx
    exact eight k
  simp only [List.length_map, allSegments, List.length_finRange, smul_eq_mul] at this
  simp only [allSegments]
  omega

/-- A frame's events are at different positions, so that at most 40 are accepted (R38, R53). -/
theorem countP_positionOk_le {events : List UplinkEvent} (h : eventsOk events = true) : events.countP positionOk ≤ 40 := by
  have nodup : ((events.filter positionOk).map UplinkEvent.position).Nodup :=
    (of_decide_eq_true h : (events.map UplinkEvent.position).Nodup).sublist (List.filter_sublist.map _)
  have range : ∀ n ∈ (events.filter positionOk).map UplinkEvent.position, n ∈ List.range' 1 40 := fun n hn => by
    obtain ⟨e, he, rfl⟩ := List.mem_map.mp hn
    have := of_decide_eq_true (List.mem_filter.mp he).2
    rw [List.mem_range'_1]
    omega
  have := (nodup.subperm range).length_le
  rwa [List.length_map, List.length_range', ← List.countP_eq_length_filter] at this

/-- A step on a well-formed command takes at most 128 stamps of a counter. -/
theorem costWithin_of_wellFormed {s : State} (hw : ∀ c ∈ s.pending.head?, wellFormed c = true) (hb : floorsBounded s) :
    ∀ c ∈ s.pending.head?, CostWithin 128 c s := by
  intro c hc
  refine ⟨by decide, fun a => (hb a).1.trans (by decide), fun a => (hb a).2.1.trans (by decide), fun j frame he => ?_⟩
  subst he
  exact (countP_positionOk_le (hw _ hc)).trans (by decide)

theorem released_powerOn (span m : Nat) (levels : WallMap) : Released span .current m (State.powerOn levels) where
  clear := (tuned_powerOn levels).clear
  order _ := by
    have none_there (e : Release) (o : Segment) : e ∉ ((State.powerOn levels).mixes.get o).release := by
      rw [powerOn_releases]
      exact List.not_mem_nil
    refine ⟨(State.powerOn levels).releaseCounter, ?_, ⟨fun x ⟨o, ho⟩ => absurd ho (none_there x o), fun x _ ⟨o, ho⟩ => absurd ho (none_there x o)⟩, fun o => ?_⟩
    · rw [after, sub_self]
      exact Nat.zero_le _
    · rw [powerOn_releases]
      exact .nil

theorem step_released {span : Nat} {s t : State} (hrooms : roomsOk s) (htrunks : trunksOk s)
    (hk : ∀ c ∈ s.pending.head?, CostWithin 128 c s) (h : Released span .current 0 s) (ht : step s = .next t) :
    Released span .current 128 t := by
  have taken := (released_eventCondition span).step (m := 0) (n := 0) (k := 128)
    (fun hs => (released_soundCondition span .current).holds hs) (released_powerOn span 0) hk
    (fun order l => by
      have hs := (released_soundCondition span .current).pending h l
      refine takeCommit_keeps order ((released_soundCondition span .current).more (Nat.zero_le _) hs) fun _ hrp => ?_
      have shared := (released_commitCondition (s := { s with pending := l }) hrooms hrp hs).shares hrooms hrp order
      exact (released_soundCondition span .current).more
        ((shareOrder_cost_le (s := { s with pending := l }) htrunks order).trans (by omega)) shared) h ht
  rwa [Nat.zero_add] at taken

/-! ### The condition of the statement -/

theorem mem_allReleases {s : State} {e : Release} :
    (e ∈ allSegments.flatMap fun a => (s.mixes.get a).release) ↔ ∃ o, e ∈ (s.mixes.get o).release := by
  simp [allSegments]

theorem released_of_ordered {span : Nat} {s : State} (hw : span + 128 < 2147483648) (hb : Bounded .current (fun _ => False) s)
    (h : releasesOrdered span s) : Released span .current 0 s := by
  obtain ⟨sorted, ages, nodup, sounding⟩ := h
  refine ⟨⟨hb, (nodup_soundingSeats_iff hb.homed).mp sounding⟩, fun _ => ⟨s.releaseCounter - BitVec.ofNat 32 span, ?_⟩⟩
  obtain ⟨counter, stamped⟩ := stamped_of_ages (stamp := Release.stamp) (seat := Release.seat) (by omega) nodup ages
  have known (e : Release) (o : Segment) (he : e ∈ (s.mixes.get o).release) := stamped.behind e (mem_allReleases.mpr ⟨o, he⟩)
  refine ⟨counter.le, stamped.of_subset fun x hx => mem_allReleases.mpr hx, fun o => ?_⟩
  refine (sorted o).imp_of_mem fun {x y} hx hy hxy => ?_
  have near (e : Release) (he : e ∈ (s.mixes.get o).release) :
      after (s.releaseCounter - BitVec.ofNat 32 span) e.stamp < 2147483648 := by
    have := known e o he
    omega
  rw [stampEarlier_eq_after (near x hx) (near y hy)] at hxy
  exact (of_decide_eq_true hxy).le

theorem Released.ordered {span : Nat} {t : State} (hw : span + 128 < 2147483648) (h : Released span .current 128 t) :
    releasesOrdered (span + 128) t := by
  obtain ⟨clear, order⟩ := h
  obtain ⟨b, counter, stamped, sorted⟩ := order hw
  have sounding := (nodup_soundingSeats_iff clear.bounded.homed).mpr clear.voiced
  have seats : ((allSegments.flatMap fun a => (t.mixes.get a).release).map Release.seat).Nodup := by
    rw [List.map_flatMap]
    exact (List.nodup_append.mp sounding).1
  have near (x : Release) (hx : ∃ o, x ∈ (t.mixes.get o).release) : after b x.stamp < 2147483648 :=
    ((stamped.behind x hx).trans_le counter).trans hw
  refine ⟨fun o => ?_, fun e he => ?_, stamped.nodup (fun x hx => mem_allReleases.mp hx) seats, sounding⟩
  · have distinct := List.pairwise_map.mp (stamped.nodup (l := (t.mixes.get o).release) (fun x hx => ⟨o, hx⟩) (clear.voiced.once o))
    refine ((sorted o).and distinct).imp_of_mem fun {x y} hx hy hxy => ?_
    rw [stampEarlier_eq_after (near x ⟨o, hx⟩) (near y ⟨o, hy⟩)]
    exact decide_eq_true (lt_of_le_of_ne hxy.1 fun e => hxy.2 (after_injective e))
  · have behind := stamped.behind e (mem_allReleases.mp he)
    rw [age_eq_after behind.le]
    omega

end Sys2Proof.Machine
end


section
/-! Every step keeps the order of request queues, through the wrap of the stamp counter (R67, R68, R94). -/

namespace Sys2Proof.Machine
open Sys2Proof.Safety

/-! ### The order of one queue -/

/-- Returned entries first, and each group by stamp (R67, R68). -/
def queueOrder (b : Clock) (x y : Request) : Prop :=
  x.returned = true ∧ y.returned = false ∨ x.returned = y.returned ∧ after b x.stamp ≤ after b y.stamp

theorem sorted_sortBy_request {b : Clock} {l : List Request} (hl : ∀ x ∈ l, after b x.stamp < 2147483648) :
    (sortBy requestBefore l).Pairwise (queueOrder b) := by
  have agree : sortBy requestBefore l = sortBy (fun x y => (x.returned && !y.returned) ||
      (x.returned == y.returned && decide (after b x.stamp < after b y.stamp))) l :=
    sortBy_congr fun x hx y hy => by rw [requestBefore, stampEarlier_eq_after (hl x hx) (hl y hy)]
  rw [agree]
  refine sortBy_pairwise (fun x y h => ?_) (fun x y h => ?_) (fun x y z h h' => ?_) l
  · unfold queueOrder
    cases hx : x.returned <;> cases hy : y.returned <;> simp_all [Nat.le_of_lt]
  · unfold queueOrder
    cases hx : x.returned <;> cases hy : y.returned <;> simp_all
  · unfold queueOrder at *
    rcases h with ⟨hx, hy⟩ | ⟨hxy, h⟩
    · rcases h' with ⟨hy', -⟩ | ⟨hyz, -⟩
      · rw [hy] at hy'; cases hy'
      · exact .inl ⟨hx, hyz ▸ hy⟩
    · rcases h' with ⟨hy, hz⟩ | ⟨hyz, h'⟩
      · exact .inl ⟨hxy ▸ hy, hz⟩
      · exact .inr ⟨hxy.trans hyz, h.trans h'⟩

/-! ### The hall -/

/-- Request entries, with those that `old` names, are stamped, their counter at most `limit` after `b`, and every queue but
those that `wide` names is in order. -/
structure RequestOrder (old : Request → Prop) (wide : Segment → Prop) (s : State) (b : Clock) (limit : Nat) : Prop where
  counter : after b s.stampCounter ≤ limit
  stamped : Stamped Request.stamp Request.seat b s.stampCounter fun q => old q ∨ ∃ a, q ∈ (s.floors.get a).queue
  sorted : ∀ a, ¬wide a → (s.floors.get a).queue.Pairwise (queueOrder b)

/-- Request entries may leave, and none is made. -/
structure Unstamped (s t : State) : Prop where
  queues : ∀ a, (t.floors.get a).queue.Sublist (s.floors.get a).queue
  counter : t.stampCounter = s.stampCounter

section
variable {sets : Sets} {old : Request → Prop} {wide : Segment → Prop} {a : Segment} {s t u : State} {i : SeatId}
  {b : Clock} {limit : Nat} {f : Floor → Floor}

theorem Unstamped.trans (h : Unstamped s t) (h' : Unstamped t u) : Unstamped s u :=
  ⟨fun a => (h'.queues a).trans (h.queues a), h'.counter.trans h.counter⟩

theorem Unstamped.of_floors (hf : t.floors = s.floors) (hc : t.stampCounter = s.stampCounter) : Unstamped s t :=
  ⟨fun a => by rw [hf], hc⟩

theorem Unstamped.modify (ht : t.floors = s.floors.modify a f) (hc : t.stampCounter = s.stampCounter)
    (own : ∀ f', (f f').queue.Sublist f'.queue) : Unstamped s t where
  queues b := by
    rw [ht, Tab.get_modify]
    split
    · next h => subst h; exact own _
    · exact .refl _
  counter := hc

theorem removeSpeaker_unstamped (sets : Sets) (a : Segment) (i : SeatId) (reason : FloorReason) (s : State) :
    Unstamped s (removeSpeaker sets a i reason s) :=
  .modify (removeSpeaker_floors ..) removeSpeaker_stampCounter fun f => by rw [Floor.closed_queue]

theorem grantSeat_unstamped (sets : Sets) (a : Segment) (i : SeatId) (reason : FloorReason) (byPriority : Bool)
    (s : State) : Unstamped s (grantSeat sets a i reason byPriority s) :=
  .modify (grantSeat_floors ..) (grantSeat_stampCounter byPriority) fun _ => List.eraseP_sublist

theorem joinHold_unstamped (a : Segment) (i : SeatId) (s : State) : Unstamped s (joinHold a i s) :=
  .modify (joinHold_floors ..) (by rw [joinHold_eq, sendAll_stampCounter]; rfl) fun _ => .refl _

theorem resumeAll_unstamped (a : Segment) (s : State) : Unstamped s (resumeAll a s) :=
  .modify (resumeAll_floors ..) (by rw [resumeAll_eq, sendAll_stampCounter]; rfl) fun _ => .refl _

theorem suspendAll_unstamped (a : Segment) (s : State) : Unstamped s (suspendAll a s) :=
  .modify (suspendAll_floors ..) (by rw [suspendAll_eq, sendAll_stampCounter]; rfl) fun _ => .refl _

theorem takeRequest_unstamped (a : Segment) (i : SeatId) (s : State) : Unstamped s (takeRequest a i s) :=
  .modify (takeRequest_floors ..) (by rw [takeRequest_eq]; rfl) fun _ => List.eraseP_sublist

theorem dropSeat_unstamped (a : Segment) {reason : FloorReason} (hk : keepsGain reason = false) :
    Unstamped s (dropSeat sets a i reason s) :=
  .modify (dropSeat_floors ..) (dropSeat_core hk).2.2.2 fun _ => List.eraseP_sublist

theorem RequestOrder.unstamped (h : RequestOrder old wide s b limit) (hu : Unstamped s t) :
    RequestOrder old wide t b limit where
  counter := by rw [hu.counter]; exact h.counter
  stamped := by
    rw [hu.counter]
    exact h.stamped.of_subset fun q hq => hq.imp id fun ⟨a, ha⟩ => ⟨a, (hu.queues a).subset ha⟩
  sorted a ha := (h.sorted a ha).sublist (hu.queues a)

theorem RequestOrder.more {limit' : Nat} (h : RequestOrder old wide s b limit) (hl : limit ≤ limit') :
    RequestOrder old wide s b limit' :=
  ⟨h.counter.trans hl, h.stamped, h.sorted⟩

/-- A request joins the end of a queue with the counter's stamp (R73, R94). -/
theorem RequestOrder.queued (h : RequestOrder old wide s b limit) (hl : limit + 1 < 4294967296) {q : Request}
    (hq : q.stamp = s.stampCounter) (hr : q.returned = false ∨ wide a)
    (ht : t.floors = s.floors.modify a fun f => { f with queue := f.queue ++ [q] })
    (hc : t.stampCounter = s.stampCounter + 1) : RequestOrder old wide t b (limit + 1) := by
  have bound : after b s.stampCounter + 1 < 4294967296 := (Nat.succ_le_succ h.counter).trans_lt hl
  have queue (c : Segment) : (t.floors.get c).queue =
      if a = c then (s.floors.get c).queue ++ [q] else (s.floors.get c).queue := by
    rw [ht, Tab.get_modify]
    split
    · next h => subst h; rfl
    · rfl
  refine ⟨?_, ?_, fun c hwide => ?_⟩
  · rw [hc, after_succ bound]
    exact Nat.succ_le_succ h.counter
  · rw [hc]
    refine h.stamped.add bound (i := q.seat) fun x hx => ?_
    rcases hx with hx | ⟨c, hx⟩
    · exact .inl (.inl hx)
    · rw [queue] at hx
      split at hx
      · rcases List.mem_append.mp hx with hx | hx
        · exact .inl (.inr ⟨c, hx⟩)
        · rw [List.mem_singleton.mp hx]
          exact .inr ⟨hq, rfl⟩
      · exact .inl (.inr ⟨c, hx⟩)
  · rw [queue]
    split
    · next hca =>
      have fresh : q.returned = false := hr.resolve_right (hca ▸ hwide)
      refine List.pairwise_append.mpr ⟨h.sorted c hwide, List.pairwise_singleton .., fun x hx y hy => ?_⟩
      rw [List.mem_singleton.mp hy]
      cases hxr : x.returned with
      | true => exact .inl ⟨hxr, fresh⟩
      | false => exact .inr ⟨hxr.trans fresh.symm, by rw [hq]; exact (h.stamped.behind x (.inr ⟨c, hx⟩)).le⟩
    · exact h.sorted c hwide

end

/-- Floor entries are housed, and request queues are in order while at most `n` stamps are taken from the counter. -/
structure Requested (span : Nat) (old : Request → Prop) (wide : Segment → Prop) (n : Nat) (s : State) : Prop where
  housed : Housed s
  order : InWindow span n (RequestOrder old wide s)

/-- No request. -/
def NoRequest (_ : Request) : Prop :=
  False

section
variable {span n n' : Nat} {old : Request → Prop} {wide : Segment → Prop} {s t : State} {a : Segment} {i : SeatId}

theorem Requested.unstamped (h : Requested span old wide n s) (ht : Housed t) (hu : Unstamped s t) :
    Requested span old wide n t :=
  ⟨ht, h.order.imp le_rfl fun _ _ hb => hb.unstamped hu⟩

theorem Requested.more (h : Requested span old wide n s) (hn : n ≤ n') : Requested span old wide n' s :=
  ⟨h.housed, h.order.imp hn fun _ _ hb => hb.more (Nat.add_le_add_left hn span)⟩

theorem Requested.idle (h : Requested span old wide n s) (hi : Idle s t) : Requested span old wide n t :=
  h.unstamped (h.housed.congr (funext hi.members) hi.floors) (.of_floors hi.floors hi.stampCounter)

end

theorem requested_floorCondition (span : Nat) (sets : Sets) :
    FloorCondition sets (fun _ n => Requested span NoRequest (fun _ => False) n)
      fun _ _ _ n => Requested span NoRequest (fun _ => False) n where
  idle hi h := h.idle hi
  waits hi h := h.idle hi
  mono _ hn h := h.more hn
  spares h := h
  opens h := h
  closes h _ := h
  resumes h _ := h.unstamped (h.housed.resumes _) (resumeAll_unstamped ..)
  removes _ _ _ h := h.unstamped (h.housed.removes ..) (removeSpeaker_unstamped ..)
  dequeues {a w _ _ _} i h :=
    h.unstamped ((housed_floorCondition sets).dequeues (a := a) (w := w) (m := 0) (n := 0) i h.housed)
      (takeRequest_unstamped ..)
  leaves {a w _ _ s} i h :=
    h.unstamped ((housed_floorCondition sets).leaves (a := a) (w := w) (m := 0) (n := 0) i h.housed)
      (.modify (f := Floor.unheld i) rfl rfl fun _ => .refl _)
  drops {w _ _ _ _ _} hk h :=
    h.unstamped ((housed_floorCondition sets).drops (w := w) (m := 0) (n := 0) hk h.housed) (dropSeat_unstamped _ hk)
  grants reason byPriority hg _ _ h := h.unstamped
    (h.housed.grants sets reason byPriority (h.housed.mayGrant hg).1 (h.housed.mayGrant hg).2) (grantSeat_unstamped ..)
  enqueues {a _ _ s i} reason hr hs hq h := by
    refine ⟨(housed_floorCondition sets).enqueues (m := 0) (n := 0) reason hr hs hq h.housed, ?_⟩
    exact h.order.imp (Nat.le_succ _) fun _ hw hb => hb.queued (a := a)
      (q := { seat := i, stamp := s.stampCounter, returned := false }) (by omega) rfl (.inl rfl)
      (enqueueSeat_floors a i reason s) rfl
  joins _ _ _ _ h := h.unstamped (h.housed.joins ..) (joinHold_unstamped ..)
  replaces reason reason' hk free hg he hn h := h.unstamped
    ((housed_floorCondition sets).replaces (m := 0) (n := 0) reason reason' hk free hg he hn h.housed)
    ((removeSpeaker_unstamped ..).trans (grantSeat_unstamped ..))
  bumps hc hi hl hs he hn h := h.unstamped
    ((housed_floorCondition sets).bumps (m := 0) (n := 0) hc hi hl hs he hn h.housed)
    (((removeSpeaker_unstamped ..).trans (grantSeat_unstamped ..)).trans (joinHold_unstamped ..))

theorem requested_eventCondition (span : Nat) :
    EventCondition (fun _ n => Requested span NoRequest (fun _ => False) n)
      fun _ _ _ n => Requested span NoRequest (fun _ => False) n where
  toFloorCondition := requested_floorCondition span .current
  setSeat {_ _ s i} enabled chair hi h := h.unstamped
    (t := s.modSeat i fun r => { r with enabled := enabled, chair := chair })
    (housed_eventCondition.setSeat (m := 0) (n := 0) enabled chair hi h.housed) (.of_floors rfl rfl)
  releaseEnd i h := h.unstamped (housed_eventCondition.releaseEnd (m := 0) (n := 0) i h.housed)
    (.of_floors (releaseEndOf_floors ..) (by
      unfold releaseEndOf
      split <;> rfl))
  frame levels inputs h := h.unstamped (frameStep_housed levels inputs h.housed)
    ⟨fun a => by rw [frameStep_queue], by
      rw [frameStep_rest]
      rfl⟩

/-! ### The commit (R92 to R94) -/

/-- The requests of the affected rooms before the commit. -/
def OldRequest (s : State) (rp : Repartition) (q : Request) : Prop :=
  ∃ b ∈ rp.affected, q ∈ (s.floors.get b).queue

/-- The request queues before and after the floor controller's share. -/
def RequestedStage (span : Nat) (s : State) (floored : Bool) (n : Nat) (u : State) : Prop :=
  if floored = true then Requested span NoRequest (fun _ => False) n u
  else u.floors = s.floors ∧ InWindow span n (RequestOrder NoRequest (fun _ => False) u)

section
variable {span n : Nat} {s u : State} {rp : Repartition} {a : Segment} {sets : Sets}

theorem RequestOrder.capped {old : Request → Prop} {b : Clock} {limit : Nat} (h : RequestOrder old (butOne a) u b limit)
    (hl : limit < 2147483648) : RequestOrder old (fun _ => False) (u.modFloor a (Floor.capped u.clock)) b limit := by
  have queue (c : Segment) : ((u.modFloor a (Floor.capped u.clock)).floors.get c).queue =
      if a = c then sortBy requestBefore (u.floors.get c).queue else (u.floors.get c).queue := by
    rw [State.modFloor_floors, Tab.get_modify]
    split
    · next h => subst h; rfl
    · rfl
  refine ⟨h.counter, h.stamped.of_subset fun q hq => hq.imp id ?_, fun c _ => ?_⟩
  · rintro ⟨c, hc⟩
    rw [queue] at hc
    split at hc
    · exact ⟨c, mem_sortBy.mp hc⟩
    · exact ⟨c, hc⟩
  · rw [queue]
    split
    · exact sorted_sortBy_request fun x hx => ((h.stamped.behind x (.inr ⟨c, hx⟩)).trans_le h.counter).trans hl
    · next hc => exact h.sorted c fun e : c = a => hc e.symm

theorem requested_buildCondition (span : Nat) (sets : Sets) (s : State) (rp : Repartition) (a : Segment) :
    BuildCondition sets a (fun _ n => Requested span (OldRequest s rp) (butOne a) n)
      fun _ n => Requested span (OldRequest s rp) (fun _ => False) n where
  housed h := h.housed.floors a
  more _ hn h := h.more hn
  trims _ _ h := h.unstamped (h.housed.removes ..) (removeSpeaker_unstamped ..)
  requeues {_ n u i} hz hs hq h := by
    have housed := h.housed.requeues hz hs hq
    by_cases hp : u.poolFree = 0
    · have same : requeueSpeaker a u i = u := if_pos hp
      rw [same]
      exact h.more (Nat.le_succ _)
    · refine ⟨housed, h.order.imp (Nat.le_succ _) fun _ hw hb => ?_⟩
      have made : (requeueSpeaker a u i).floors = u.floors.modify a (fun f =>
          { f with queue := f.queue ++ [returnedRequest u i] }) ∧
          (requeueSpeaker a u i).stampCounter = u.stampCounter + 1 := by
        unfold requeueSpeaker
        rw [if_neg hp]
        exact ⟨rfl, rfl⟩
      exact hb.queued (by omega) rfl (.inr rfl) made.1 made.2
  caps _ h := ⟨h.housed.caps a, h.order.imp le_rfl fun _ hw hb => hb.capped hw⟩
  idle hi h := h.idle hi
  dequeues i h := h.unstamped ((housed_floorCondition sets).takesRequest (a := a) (m := 0) (n := 0) i h.housed)
    (takeRequest_unstamped ..)
  suspends h := h.unstamped (h.housed.suspends a) (suspendAll_unstamped ..)
  resumes h := h.unstamped (h.housed.resumes a) (resumeAll_unstamped ..)
  grants hg _ h := by
    obtain ⟨hz, silent⟩ := h.housed.mayGrant_queued hg
    exact h.unstamped (h.housed.grants sets .none false hz silent) (grantSeat_unstamped ..)

theorem RequestOrder.placed {b : Clock} {limit : Nat} (h : RequestOrder (OldRequest s rp) (fun _ => False) u b limit)
    (Z : List Segment) :
    RequestOrder (OldRequest s rp) (butOne a) (u.modFloor a fun _ => gatherFloor s rp.affected Z) b limit where
  counter := h.counter
  stamped := h.stamped.of_subset fun q hq => by
    rcases hq with hq | ⟨c, hc⟩
    · exact .inl hq
    · rw [State.modFloor_floors, Tab.get_modify] at hc
      split at hc
      · exact .inl (mem_gathered_queue.mp hc).1
      · exact .inr ⟨c, hc⟩
  sorted c hc := by
    rw [State.modFloor_floors, Tab.get_modify_ne _ _ fun e : a = c => hc e.symm]
    exact h.sorted c id

theorem RequestOrder.cleared {b : Clock} {limit : Nat} (h : RequestOrder NoRequest (fun _ => False) u b limit)
    (hf : u.floors = s.floors) :
    RequestOrder (OldRequest s rp) (fun _ => False) (clearedFloors rp.affected u) b limit where
  counter := h.counter
  stamped := h.stamped.of_subset fun q hq => by
    rcases hq with ⟨c, -, hc⟩ | ⟨c, hc⟩
    · exact .inr ⟨c, by rw [hf]; exact hc⟩
    · rw [clearedFloors_get] at hc
      split at hc
      · cases hc
      · exact .inr ⟨c, hc⟩
  sorted c _ := by
    rw [clearedFloors_get]
    split
    · exact .nil
    · exact h.sorted c id

section
variable (hrooms : roomsOk s) (hrp : s.repartition = some rp)
include hrooms hrp

theorem commitFloors_requested (hs : Housed s) (hc : ∀ a, (s.floors.get a).speakers.length ≤ Config.speakerCap)
    (hm : membersOf u = membersOf (rebuilt rp s)) (hf : u.floors = s.floors)
    (hu : InWindow span n (RequestOrder NoRequest (fun _ => False) u)) :
    Requested span NoRequest (fun _ => False) (n + 60) (commitFloors sets s rp.affected (newRooms s rp.target) u) := by
  have built := foldl_buildFloor (B := fun a _ _ n => Requested span (OldRequest s rp) (butOne a) n)
    (D := fun _ _ n => Requested span (OldRequest s rp) (fun _ => False) n)
    (fun {a _ _ _ _} _ hv => ⟨hv.housed.place hs (affected_nodup hrooms hrp) a,
      hv.order.imp le_rfl fun _ _ hb => hb.placed _⟩)
    (fun a _ _ => requested_buildCondition span sets s rp a) (newRooms_nodup s rp.target)
    (m := 0) (n := n) (s := clearedFloors rp.affected u)
    ⟨cleared_housed hrooms hrp hs hf hm, hu.imp le_rfl fun _ _ hb => hb.cleared hf⟩
  refine Requested.more ⟨built.housed, built.order.imp le_rfl fun _ _ hb => ?_⟩
    (Nat.add_le_add_left (gatheredCount_le_sixty hrooms hrp hm hc) n)
  exact ⟨hb.counter, hb.stamped.of_subset fun q hq => .inr (hq.resolve_left id), hb.sorted⟩

theorem requested_commitCondition (h : Requested span NoRequest (fun _ => False) 0 s)
    (hc : ∀ a, (s.floors.get a).speakers.length ≤ Config.speakerCap) :
    CommitCondition s rp 60 (fun _ fl _ n => RequestedStage span s fl n)
      fun _ _ _ _ n => Requested span NoRequest (fun _ => False) n where
  start := by
    obtain ⟨-, -, -, counter⟩ := commitPartition_same rp s
    exact ⟨commitPartition_floors rp s,
      h.order.imp le_rfl fun _ _ hb => hb.unstamped (.of_floors (commitPartition_floors rp s) counter)⟩
  idle {sets fl _ n _ _} hi hu := by
    cases fl with
    | true => exact Requested.idle hu hi
    | false => exact ⟨hi.floors.trans hu.1,
        InWindow.imp hu.2 le_rfl fun _ _ hb => hb.unstamped (.of_floors hi.floors hi.stampCounter)⟩
  mix {fl _ _ u} hm hu := by
    have same : Unstamped u (commitMix rp.affected (newRooms s rp.target) u) :=
      .of_floors (commitMix_floors ..) (commitMix_counters ..).2
    cases fl with
    | true => exact Requested.unstamped hu (hu.housed.congr (commitMix_members ..) (commitMix_floors ..)) same
    | false => exact ⟨(commitMix_floors ..).trans hu.1, InWindow.imp hu.2 le_rfl fun _ _ hb => hb.unstamped same⟩
  floor _ hm hu := commitFloors_requested hrooms hrp h.housed hc hm hu.1 hu.2
  events sets := requested_floorCondition span sets

end

end

/-! ### Every step -/

theorem requested_powerOn (span n : Nat) (levels : WallMap) :
    Requested span NoRequest (fun _ => False) n (State.powerOn levels) where
  housed := housed_powerOn levels
  order _ := by
    have none_there (q : Request) (hq : NoRequest q ∨ ∃ a, q ∈ ((State.powerOn levels).floors.get a).queue) : False := by
      rcases hq with hq | ⟨a, ha⟩
      · exact hq
      · rw [powerOn_floors] at ha
        cases ha
    refine ⟨(State.powerOn levels).stampCounter, ?_, ⟨fun q hq => (none_there q hq).elim,
      fun q _ hq => (none_there q hq).elim⟩, fun a _ => ?_⟩
    · rw [after, sub_self]
      exact Nat.zero_le _
    · rw [powerOn_floors]
      exact .nil

theorem step_requested {span : Nat} {s t : State} (hrooms : roomsOk s) (htrunks : trunksOk s)
    (hc : ∀ a, (s.floors.get a).speakers.length ≤ Config.speakerCap)
    (hk : ∀ c ∈ s.pending.head?, CostWithin 128 c s) (h : Requested span NoRequest (fun _ => False) 0 s)
    (ht : step s = .next t) : Requested span NoRequest (fun _ => False) 128 t := by
  have taken := (requested_eventCondition span).step (m := 0) (n := 0) (k := 128)
    (fun hs => hs.unstamped (hs.housed.congr rfl rfl) (.of_floors rfl rfl)) (requested_powerOn span 0) hk
    (fun order l => by
      have hs : Requested span NoRequest (fun _ => False) 0 { s with pending := l } := h.idle (pending_idle s l)
      refine takeCommit_keeps order (hs.more (Nat.zero_le _)) fun _ hrp => ?_
      have shared := (requested_commitCondition (s := { s with pending := l }) hrooms hrp hs hc).shares hrooms hrp order
      exact Requested.more shared
        ((shareOrder_cost_le (s := { s with pending := l }) htrunks order).trans (by omega))) h ht
  rwa [Nat.zero_add] at taken

/-! ### The condition of the statement -/

theorem mem_allRequests {s : State} {q : Request} :
    (q ∈ allSegments.flatMap fun a => (s.floors.get a).queue) ↔ ∃ a, q ∈ (s.floors.get a).queue := by
  simp [allSegments]

theorem Housed.requestSeats_nodup {s : State} (h : Housed s) :
    ((allSegments.flatMap fun a => (s.floors.get a).queue).map Request.seat).Nodup := by
  have all := nodup_gathered (s := s) (affected := allSegments) (f := Floor.queue) (List.nodup_finRange 6)
    (fun a => (h.floors a).queue) fun _ _ hq => h.room_of_request hq
  rwa [List.flatMap_map] at all

theorem requested_of_ordered {span : Nat} {s : State} (hw : span + 128 < 2147483648) (hs : Housed s)
    (h : queuesOrdered span s) : Requested span NoRequest (fun _ => False) 0 s := by
  obtain ⟨sorted, ages, nodup⟩ := h
  refine ⟨hs, fun _ => ⟨s.stampCounter - BitVec.ofNat 32 span, ?_⟩⟩
  obtain ⟨counter, stamped⟩ := stamped_of_ages (stamp := Request.stamp) (seat := Request.seat) (by omega) nodup ages
  refine ⟨counter.le, stamped.of_subset fun q hq => mem_allRequests.mpr (hq.resolve_left id), fun a _ => ?_⟩
  refine (sorted a).imp_of_mem fun {x y} hx hy hxy => hxy.imp id fun ⟨hr, he⟩ => ⟨hr, ?_⟩
  have near (q : Request) (hq : q ∈ (s.floors.get a).queue) :
      after (s.stampCounter - BitVec.ofNat 32 span) q.stamp < 2147483648 := by
    have := stamped.behind q (mem_allRequests.mpr ⟨a, hq⟩)
    omega
  rw [stampEarlier_eq_after (near x hx) (near y hy)] at he
  exact (of_decide_eq_true he).le

theorem Requested.ordered {span : Nat} {t : State} (hw : span + 128 < 2147483648)
    (h : Requested span NoRequest (fun _ => False) 128 t) : queuesOrdered (span + 128) t := by
  obtain ⟨housed, order⟩ := h
  obtain ⟨b, counter, stamped, sorted⟩ := order hw
  have near (q : Request) (a : Segment) (hq : q ∈ (t.floors.get a).queue) : after b q.stamp < 2147483648 :=
    ((stamped.behind q (.inr ⟨a, hq⟩)).trans_le counter).trans hw
  refine ⟨fun a => ?_, fun q hq => ?_, stamped.nodup (fun q hq => .inr (mem_allRequests.mp hq)) housed.requestSeats_nodup⟩
  · have distinct := List.pairwise_map.mp
      (stamped.nodup (l := (t.floors.get a).queue) (fun q hq => .inr ⟨a, hq⟩) (housed.floors a).queue)
    refine ((sorted a id).and distinct).imp_of_mem fun {x y} hx hy ⟨hxy, hne⟩ => hxy.imp id fun ⟨hr, hle⟩ => ⟨hr, ?_⟩
    rw [stampEarlier_eq_after (near x a hx) (near y a hy)]
    exact decide_eq_true (lt_of_le_of_ne hle fun e => hne (after_injective e))
  · have behind := stamped.behind q (.inr (mem_allRequests.mp hq))
    rw [age_eq_after behind.le]
    omega

/-- Settles O10: lists stay within their capacities, at home and in order. -/
theorem stepKeepsCapacities : Obligations.StepKeepsCapacities := by
  refine ⟨fun s t hrooms he hr _ hb ht => ?_, fun s t hrooms he hr hi ht => ?_,
    fun span s t hw hwf hrooms he htrunks hb hr _ ht => ?_, fun _ _ => step_listsOrdered⟩
  · have homed := homed_of_ok hrooms he hr
    exact floorsBounded_of (step_bounded hrooms (bounded_of_ok homed hb) ht)
      (step_holders hrooms homed.housed (fun a => (hb a).2.1) ht)
  · exact ⟨(step_homed hrooms (homed_of_ok hrooms he hr) ht).releasesAtHome, (step_trunksMove ht).intakes hi⟩
  · have homed := homed_of_ok hrooms he hr
    have cost := costWithin_of_wellFormed hwf hb
    exact ⟨fun h => (step_released hrooms htrunks cost (released_of_ordered hw (bounded_of_ok homed hb) h) ht).ordered hw,
      fun h => (step_requested hrooms htrunks (fun a => (hb a).1) cost (requested_of_ordered hw homed.housed h) ht).ordered hw⟩

end Sys2Proof.Machine
end


section
/-! Rooms that a commit ends hold nothing (R92, R159). -/

namespace Sys2Proof.Machine
open Sys2Proof.Safety

/-- The anchor `b` is of no room, and holds no floor entries. -/
structure Deserted (b : Segment) (s : State) : Prop where
  floor : s.floors.get b = Floor.empty
  members : membersOf s b = []
  rooms : ∀ g, roomOf s g ≠ b

section
variable {a b : Segment} {s t : State} {i : SeatId}

theorem Deserted.congr (h : Deserted b s) (hf : t.floors = s.floors) (hm : membersOf t = membersOf s) : Deserted b t where
  floor := by rw [hf]; exact h.floor
  members := by rw [hm]; exact h.members
  rooms g := by rw [roomOf_congr (congrFun hm)]; exact h.rooms g

theorem Deserted.modify {f : Floor → Floor} (h : Deserted b s) (hm : membersOf t = membersOf s)
    (hf : t.floors = s.floors.modify a f) (he : a = b → f Floor.empty = Floor.empty) : Deserted b t where
  floor := by
    rw [hf, Tab.get_modify]
    split
    · next hab => subst hab; rw [h.floor, he rfl]
    · exact h.floor
  members := by rw [hm]; exact h.members
  rooms g := by rw [roomOf_congr (congrFun hm)]; exact h.rooms g

theorem Deserted.not_resident (h : Deserted b s) (hr : Resident s a i) : a ≠ b := by
  rintro rfl
  rcases hr with hr | hr
  · exact h.rooms _ hr.symm
  · rw [h.members] at hr
    cases hr

theorem Deserted.not_granting (h : Deserted b s) (hg : MayGrant s a i) : a ≠ b := by
  rcases hg with ⟨q, hq, -⟩ | ⟨hr, -⟩
  · rintro rfl
    rw [floorOf, h.floor] at hq
    cases hq
  · exact h.not_resident hr

theorem Deserted.not_speaking (h : Deserted b s) (hs : hasSpeaker (floorOf s a) i = true) : a ≠ b := by
  rintro rfl
  rw [floorOf, h.floor] at hs
  cases hs

theorem Deserted.removes (h : Deserted b s) (sets : Sets) (reason : FloorReason) :
    Deserted b (removeSpeaker sets a i reason s) :=
  h.modify (removeSpeaker_floorFrame ..).membersOf (removeSpeaker_floors ..) fun _ => rfl

theorem Deserted.grants (h : Deserted b s) (sets : Sets) (reason : FloorReason) (byPriority : Bool) (ha : a ≠ b) :
    Deserted b (grantSeat sets a i reason byPriority s) :=
  h.modify (grantSeat_floorFrame ..).membersOf (grantSeat_floors ..) fun hab => absurd hab ha

theorem Deserted.joins (h : Deserted b s) (ha : a ≠ b) : Deserted b (joinHold a i s) :=
  h.modify (joinHold_floorFrame ..).membersOf (joinHold_floors ..) fun hab => absurd hab ha

theorem Deserted.idle (h : Deserted b s) (hi : Idle s t) : Deserted b t :=
  h.congr hi.floors (funext hi.members)

theorem deserted_floorCondition (sets : Sets) (b : Segment) :
    FloorCondition sets (fun _ _ => Deserted b) fun _ _ _ _ => Deserted b where
  idle hi h := h.idle hi
  waits hi h := h.idle hi
  mono _ _ h := h
  spares h := h
  opens h := h
  closes h _ := h
  resumes h _ := h.modify (resumeAll_floorFrame ..).membersOf (resumeAll_floors ..) fun _ => rfl
  removes _ _ _ h := h.removes ..
  dequeues _ h := h.modify (takeRequest_floorFrame ..).membersOf (takeRequest_floors ..) fun _ => rfl
  leaves i h := h.modify (f := fun f => { f with holders := f.holders.filter fun h => h.seat != i }) rfl rfl fun _ => rfl
  drops _ h := h.modify (dropSeat_floorFrame ..).membersOf (dropSeat_floors ..) fun _ => rfl
  grants _ _ hg _ _ h := h.grants _ _ _ (h.not_granting hg)
  enqueues _ hr _ _ h := h.modify (enqueueSeat_floorFrame ..).membersOf (enqueueSeat_floors ..) fun hab =>
    absurd hab (h.not_resident hr)
  joins _ _ _ hs h := h.joins (h.not_speaking hs)
  replaces _ _ _ _ hg _ _ h := (h.removes ..).grants _ _ _ (h.not_granting hg)
  bumps _ _ _ _ _ _ h :=
    have home := h.not_resident (.inl rfl)
    ((h.removes ..).grants _ _ _ home).joins home

/-- Another room is built. -/
theorem deserted_buildCondition (sets : Sets) (hab : a ≠ b) (Z : List Segment) :
    BuildCondition sets a (fun _ _ s => Deserted b s ∧ FloorHoused Z (s.floors.get a) ∧ membersOf s a = Z)
      fun _ _ => Deserted b where
  housed h := h.2.2 ▸ h.2.1
  more _ _ h := h
  trims {_ _ s e} _ _ h := by
    have members := (removeSpeaker_floorFrame sets a e.seat .mergeTrim s).membersOf
    refine ⟨h.1.removes .., ?_, by rw [members]; exact h.2.2⟩
    rw [removeSpeaker_floors, Tab.get_modify_self]
    exact h.2.1.closed _
  requeues {_ _ s i} hz hs hq h := by
    obtain ⟨added, only, floors⟩ := requeueSpeaker_queue a s i
    have members := (requeueSpeaker_floorFrame a i s).membersOf
    refine ⟨h.1.modify members floors fun hab' => absurd hab' hab, ?_, by rw [members]; exact h.2.2⟩
    rw [floors, Tab.get_modify_self]
    rcases only with rfl | rfl
    · simpa using h.2.1
    · exact h.2.1.queued (q := returnedRequest s i) (h.2.2 ▸ hz) hs hq
  caps _ h := h.1.modify rfl rfl fun hab' => absurd hab' hab
  idle hi h := h.idle hi
  dequeues _ h := h.modify (takeRequest_floorFrame ..).membersOf (takeRequest_floors ..) fun _ => rfl
  suspends h := h.modify (suspendAll_floorFrame ..).membersOf (suspendAll_floors ..) fun _ => rfl
  resumes h := h.modify (resumeAll_floorFrame ..).membersOf (resumeAll_floors ..) fun _ => rfl
  grants _ _ h := h.grants _ _ _ hab

end

section
variable {s : State} {rp : Repartition} (hrooms : roomsOk s) (hrp : s.repartition = some rp)
include hrooms hrp

/-- An affected room that is not new is gone (R25, R29). -/
theorem gone_members {b : Segment} (hb : b ∈ rp.affected) (hn : b ∉ newRooms s rp.target) :
    membersOf (rebuilt rp s) b = [] ∧ ∀ g, anchorIn rp.target g ≠ b := by
  have gone (g : Segment) : anchorIn rp.target g ≠ b := by
    rintro rfl
    have anchored : anchorIn rp.target (anchorIn rp.target g) = anchorIn rp.target g := anchorIn_anchorIn ..
    exact (unaffected_of_not_new hrooms hrp anchored hn).2 hb
  refine ⟨List.eq_nil_iff_forall_not_mem.mpr fun g hg => gone g ?_, gone⟩
  exact (mem_members_rebuilt hrooms hrp).mp hg

theorem foldl_buildFloor_deserted (hs : Housed s) (sets : Sets) {b : Segment} {l : List Segment} (hl : b ∉ l) {v : State}
    (hv : Deserted b v) : Deserted b (l.foldl (buildFloor sets s rp.affected) v) := by
  induction l generalizing v with
  | nil => exact hv
  | cons a l ih =>
    have hab : a ≠ b := fun hab => hl (hab ▸ List.mem_cons_self)
    have placed : Deserted b (v.modFloor a fun _ => gatherFloor s rp.affected (membersOf v a)) :=
      hv.modify (f := fun _ => gatherFloor s rp.affected (membersOf v a)) rfl rfl fun hab' => absurd hab' hab
    have housed : FloorHoused (membersOf v a)
        ((v.modFloor a fun _ => gatherFloor s rp.affected (membersOf v a)).floors.get a) := by
      rw [State.modFloor_floors, Tab.get_modify_self]
      exact gatherFloor_housed hs (affected_nodup hrooms hrp) _
    have members : membersOf (v.modFloor a fun _ => gatherFloor s rp.affected (membersOf v a)) a = membersOf v a := rfl
    have built : Deserted b (buildFloor sets s rp.affected v a) :=
      (deserted_buildCondition sets hab (membersOf v a)).build (m := 0) (n := 0) (s := v) s rp.affected
        ⟨placed, housed, members⟩
    rw [List.foldl_cons]
    exact ih (fun hb => hl (List.mem_cons_of_mem a hb)) built

theorem commitFloors_deserted (hs : Housed s) {b : Segment} (hb : b ∈ rp.affected) (hn : b ∉ newRooms s rp.target)
    (sets : Sets) {u : State} (hm : membersOf u = membersOf (rebuilt rp s)) :
    Deserted b (commitFloors sets s rp.affected (newRooms s rp.target) u) := by
  obtain ⟨members, gone⟩ := gone_members hrooms hrp hb hn
  refine foldl_buildFloor_deserted hrooms hrp hs sets hn (v := clearedFloors rp.affected u) ⟨?_, ?_, fun g => ?_⟩
  · rw [clearedFloors_get, if_pos hb]
  · exact (congrFun hm b).trans members
  · rw [roomOf_congr (s := rebuilt rp s) (t := clearedFloors rp.affected u) (congrFun hm), roomOf_rebuilt hrooms hrp]
    exact gone g

/-- A room that ends holds nothing after the commit. -/
theorem commitStep_deserted (hs : Housed s) (order : List CommitShare) {b : Segment} (hb : b ∈ rp.affected)
    (hn : b ∉ newRooms s rp.target) : Deserted b (commitStep order rp s) :=
  (stage_commitCondition (before := fun _ _ => True) (after := fun _ => Deserted b) trivial (fun _ _ => trivial)
    (fun _ _ => trivial) (fun _ hu => hu.congr (commitMix_floors ..) (commitMix_members ..))
    (fun hm _ => commitFloors_deserted hrooms hrp hs hb hn _ hm)
    fun sets => deserted_floorCondition sets b).shares hrooms hrp order

theorem commitStep_no_release (hs : Homed .current s) (order : List CommitShare) {b : Segment} (hb : b ∈ rp.affected)
    (hn : b ∉ newRooms s rp.target) : ((commitStep order rp s).mixes.get b).release = [] :=
  List.eq_nil_iff_forall_not_mem.mpr fun e he =>
    (commitStep_deserted hrooms hrp hs.housed order hb hn).rooms _
      ((commitStep_homed hrooms hrp order hs).home b e he)

end

end Sys2Proof.Machine
end


section
/-! The intake queues that a commit leaves (R57). -/

namespace Sys2Proof.Machine
open Sys2Proof.Safety

/-! ### The order of the shares (R29) -/

/-- Among the shares `done`, `x` stands before the first `y`. -/
def beforeIn (done : List CommitShare) (x y : CommitShare) : Bool :=
  (done.takeWhile fun c => c != y).contains x

theorem beforeFloor_eq (l : List CommitShare) : beforeFloor l = l.takeWhile fun c => c != .floor := by
  induction l with
  | nil => rfl
  | cons c l ih =>
    by_cases hc : c = .floor
    · subst hc; rfl
    · rw [List.takeWhile_cons, if_pos (bne_iff_ne.mpr hc), ← ih]
      cases c with
      | floor => exact absurd rfl hc
      | _ => rfl

theorem isBeforeFloor_eq (order : List CommitShare) (x : CommitShare) :
    isBeforeFloor order x = beforeIn (shareOrder order) x .floor := by
  rw [isBeforeFloor, beforeFloor_eq]
  rfl

section
variable {done : List CommitShare} {x y c : CommitShare}

theorem beforeIn_append_of_mem (hy : y ∈ done) (l : List CommitShare) : beforeIn (done ++ l) x y = beforeIn done x y := by
  rw [beforeIn, List.takeWhile_append, if_neg, beforeIn]
  intro e
  have all := List.takeWhile_eq_self_iff.mp ((List.takeWhile_sublist _).eq_of_length e)
  simpa using all y hy

theorem beforeIn_append_self (hy : y ∉ done) : beforeIn (done ++ [y]) x y = done.contains x := by
  have all : ∀ c ∈ done, (c != y) = true := fun c hc => bne_iff_ne.mpr fun e => hy (e ▸ hc)
  rw [beforeIn, List.takeWhile_append_of_pos all]
  simp

theorem startedAt_isSome (done : List CommitShare) : (startedAt done).isSome = done.contains .startTest := by
  unfold startedAt
  split
  · next h => simpa using h
  · next h => simpa using h

end

/-! ### Which shares touch an intake queue (R57) -/

section
variable {sets : Sets} {s u : State} {affected news : List Segment} {k j : TrunkId}

theorem commitMix_intake (affected news : List Segment) (u : State) (k : TrunkId) :
    ((commitMix affected news u).trunks.get k).intake = (u.trunks.get k).intake := by
  have made := mixesMade_floorFrame affected news u
  have same : ((mixesMade affected news u).trunks.get k).intake = (u.trunks.get k).intake := by
    rw [made.trunks k]
    rfl
  rw [← same]
  exact (WallFrame.foldl (fun s a => reportReady_wallFrame a s) _ (mixesMade affected news u)).trunks k ▸ rfl

theorem commitTrunk_intake_ne (segments : List Segment) (h : k ≠ j) :
    ((commitTrunk sets segments k u).trunks.get j).intake = (u.trunks.get j).intake := by
  rw [(commitTrunk_seatFrame sets segments k u).trunks j, State.modTrunk_trunks, Tab.get_modify_ne _ _ h]

theorem commitTrunk_intake_self (segments : List Segment) :
    ((commitTrunk sets segments k u).trunks.get k).intake =
      if segments.contains k && !isDraining u (roomOf u k) then [] else (u.trunks.get k).intake := by
  rw [(commitTrunk_seatFrame sets segments k u).trunks k, State.modTrunk_trunks, Tab.get_modify_self]
  dsimp only
  split <;> rfl

/-- A share that is not the trunk's own. -/
theorem commitShare_intake {c : CommitShare} (hc : c ≠ .trunk k) :
    ((commitShare sets s affected news u c).trunks.get k).intake = (u.trunks.get k).intake := by
  cases c with
  | mix => exact commitMix_intake ..
  | floor => rw [commitShare, (commitFloors_floorFrame sets s affected news u).trunks k]
  | booths => rw [commitShare, (commitBooths_boothFrame affected news u).rest]
  | taps => rw [commitShare, (commitTaps_boothFrame u).rest]
  | trunk j => exact commitTrunk_intake_ne _ fun e => hc (congrArg CommitShare.trunk e)
  | startTest => rw [commitShare, (startTest_wallFrame (sets.uncreated news) u).trunks k]

end

section
variable {s : State} {rp : Repartition} (hrooms : roomsOk s) (hrp : s.repartition = some rp)
include hrooms hrp

/-- The intake queues of the trunks that have taken their shares: replayed, unless the start test has come first and their
rooms drain again (R57). -/
def IntakesTaken (s : State) (rp : Repartition) (done : List CommitShare) (u : State) : Prop :=
  ∀ k ∈ movedBy s rp, .trunk k ∈ done → (u.trunks.get k).intake =
    if (nextRooms s rp).contains (anchorIn rp.target k) && beforeIn done .startTest (.trunk k) then
      (s.trunks.get k).intake
    else []

theorem IntakesTaken.share {done : List CommitShare} {c : CommitShare} {u : State} (h : Underway s rp done u)
    (hi : IntakesTaken s rp done u) (hc : MayFollow done c) :
    IntakesTaken s rp (done ++ [c]) (commitShare (setsAfter s done) s rp.affected (newRooms s rp.target) u c) := by
  intro k hk hmem
  by_cases hck : c = .trunk k
  · subst hck
    have draining : isDraining u (roomOf u k) = drains s rp (startedAt done) (anchorIn rp.target k) := by
      rw [h.progress.isDraining hrooms hrp, h.progress.roomOf hrooms hrp]
    have moved : (rp.affected.flatMap (membersOf s)).contains k = true := List.contains_iff_mem.mpr hk
    rw [commitShare, commitTrunk_intake_self, moved, draining, drains, startedAt_isSome, beforeIn_append_self hc.fresh,
      h.progress.intake k (by simpa using hc.fresh), Bool.true_and, Bool.and_comm]
    cases (nextRooms s rp).contains (anchorIn rp.target k) && done.contains .startTest <;> rfl
  · have old : .trunk k ∈ done := by simpa [Ne.symm hck] using hmem
    rw [commitShare_intake hck, beforeIn_append_of_mem old]
    exact hi k hk old

/-- What a commit makes of the intake queues. -/
theorem commitStep_intakes (order : List CommitShare) : IntakesTaken s rp (shareOrder order) (commitStep order rp s) :=
  (takeShares_induction (P := fun done u => Underway s rp done u ∧ IntakesTaken s rp done u) order
    ⟨underway_start hrooms hrp, fun _ _ h => absurd h List.not_mem_nil⟩ fun _ _ _ hc ⟨h, hi⟩ =>
      ⟨h.share hrooms hrp hc, hi.share hrooms hrp h hc⟩).2

end

end Sys2Proof.Machine
end


section
/-! The shares of a commit that leave the floor controller's business alone, and their notices (R29, R170). -/

namespace Sys2Proof.Machine
open Sys2Proof.Safety

/-! ### Notices of other kinds -/

/-- Between `s` and `t` only notices of other blocks are sent. -/
structure Hushed (s t : State) : Prop where
  clock : t.clock = s.clock
  sent : ∃ l : List Sent, (∀ n ∈ l, isFloorOrSeat n = false) ∧ t.ports = delivered s.clock l s.ports

section
variable {s t u : State}

theorem Hushed.of_same (hc : t.clock = s.clock) (hp : t.ports = s.ports) : Hushed s t :=
  ⟨hc, [], nofun, by rw [hp, delivered_nil]⟩

theorem Hushed.trans (h : Hushed s t) (h' : Hushed t u) : Hushed s u := by
  obtain ⟨hc, l, hl, hp⟩ := h
  obtain ⟨hc', l', hl', hp'⟩ := h'
  refine ⟨hc'.trans hc, l ++ l', fun n hn => ?_, by rw [hp', hc, hp, delivered_append]⟩
  exact (List.mem_append.mp hn).elim (hl n) (hl' n)

theorem Hushed.foldl {α : Type} {f : State → α → State} (h : ∀ s x, Hushed s (f s x)) (l : List α) (s : State) :
    Hushed s (l.foldl f s) := by
  induction l generalizing s with
  | nil => exact .of_same rfl rfl
  | cons x l ih => exact (h s x).trans (ih _)

theorem Hushed.of_sendAll {l : List Sent} (hl : ∀ n ∈ l, isFloorOrSeat n = false) (hc : t.clock = s.clock)
    (hp : t.ports = s.ports) : Hushed s (sendAll l t) :=
  ⟨by rw [sendAll_clock, hc], l, hl, by rw [sendAll_ports, hc, hp]⟩

theorem notify_hushed (who : List Port) (body : NoticeBody) (h : isFloorOrSeat (who, body) = false) (s : State) :
    Hushed s (notify who body s) :=
  ⟨rfl, [(who, body)], by simpa using h, notify_ports ..⟩

/-! ### The shares of the other blocks -/

theorem commitBoothRoom_hushed (s : State) (a : Segment) : Hushed s (commitBoothRoom s a) := by
  unfold commitBoothRoom runAllocator
  extract_lets s1 run s2 changed
  have reverted : Hushed s s1 := .foldl (fun s b =>
    .trans (t := s.modBooth b fun r => { r with source := none }) (.of_same rfl rfl) (notify_hushed _ _ rfl _)) _ s
  have written : Hushed s1 s2 := .trans (t := writeAllocations run.1 s1)
    (.foldl (f := fun s (x : BoothId × Allocation) => s.modBooth x.1 fun r => { r with allocation := x.2 }) (fun _ _ => .of_same rfl rfl) _ _)
    (.of_same rfl rfl)
  exact (reverted.trans written).trans (.foldl (fun s b => notify_hushed _ _ rfl s) _ _)

theorem commitBooths_hushed (affected news : List Segment) (s : State) : Hushed s (commitBooths affected news s) :=
  .trans (.foldl (f := fun s a => s.setSlotMap a (Tab.replicate 6 none)) (fun _ _ => .of_same rfl rfl) affected s) (.foldl commitBoothRoom_hushed news _)

theorem commitTaps_hushed (s : State) : Hushed s (commitTaps s) :=
  .foldl (fun s k => by
    unfold releaseTapIf
    split
    · split
      · exact .trans (t := s.setTapOf k none) (.of_same rfl rfl) (notify_hushed _ _ rfl _)
      · exact .of_same rfl rfl
    · exact .of_same rfl rfl) _ s

theorem startTest_hushed (uncreated : List Segment) (s : State) : Hushed s (startTest uncreated s) := by
  by_cases hn : NothingToStart s
  · rw [startTest_nothing hn]
    exact .of_same rfl rfl
  · by_cases ha : affectedRooms s (effectiveMap s) = []
    · rw [startTest_loop hn ha]
      refine .of_sendAll (fun n hn => ?_) rfl rfl
      obtain ⟨w, -, rfl⟩ := List.mem_map.mp hn
      rfl
    · rw [startTest_drain hn ha]
      refine .of_sendAll (fun n hn => ?_) rfl rfl
      obtain ⟨w, -, rfl⟩ := List.mem_map.mp hn
      rfl

theorem commitPartition_hushed (rp : Repartition) (s : State) : Hushed s (commitPartition rp s) := by
  rw [commitPartition_sends]
  refine .of_sendAll (fun n hn => ?_) (by rw [rebuilt_frame]) (by rw [rebuilt_frame])
  rcases List.mem_append.mp hn with hn | hn
  · obtain ⟨w, -, rfl⟩ := List.mem_map.mp hn
    rfl
  · obtain ⟨w, -, rfl⟩ := List.mem_map.mp hn
    rfl

theorem reportReady_hushed (a : Segment) (s : State) : Hushed s (reportReady a s) := by
  rw [reportReady_eq]
  exact .of_same rfl rfl

theorem commitMix_hushed (affected news : List Segment) (s : State) : Hushed s (commitMix affected news s) := by
  have placed : Hushed s (mixesPlaced affected news s) := .of_same rfl rfl
  have made : Hushed (mixesPlaced affected news s) (mixesMade affected news s) := .foldl (fun s a => by
    rw [capRelease_eq]
    exact .of_same rfl rfl) _ _
  exact (placed.trans made).trans (.foldl (fun s a => reportReady_hushed a s) _ _)

end

/-! ### What the floor controller reads and writes -/

/-- All that the floor controller reads and writes is the same, and only notices of other blocks are sent. -/
structure Aside (s t : State) : Prop where
  hushed : Hushed s t
  profiles : t.profiles = s.profiles
  seats : t.seats = s.seats
  members : membersOf t = membersOf s
  floors : t.floors = s.floors
  poolFree : t.poolFree = s.poolFree
  stampCounter : t.stampCounter = s.stampCounter
  releaseCounter : t.releaseCounter = s.releaseCounter
  refusals : ∀ k, (t.trunks.get k).refusals = (s.trunks.get k).refusals
  releases : ∀ a, (t.mixes.get a).release = (s.mixes.get a).release
  channels : ∀ k, (t.trunks.get k).channels = (s.trunks.get k).channels

section
variable {s t u : State}

theorem Aside.clock (h : Aside s t) : t.clock = s.clock :=
  h.hushed.clock

theorem Aside.refl (s : State) : Aside s s :=
  ⟨.of_same rfl rfl, rfl, rfl, rfl, rfl, rfl, rfl, rfl, fun _ => rfl, fun _ => rfl, fun _ => rfl⟩

theorem Aside.trans (h : Aside s t) (h' : Aside t u) : Aside s u where
  hushed := h.hushed.trans h'.hushed
  profiles := h'.profiles.trans h.profiles
  seats := h'.seats.trans h.seats
  members := h'.members.trans h.members
  floors := h'.floors.trans h.floors
  poolFree := h'.poolFree.trans h.poolFree
  stampCounter := h'.stampCounter.trans h.stampCounter
  releaseCounter := h'.releaseCounter.trans h.releaseCounter
  refusals k := (h'.refusals k).trans (h.refusals k)
  releases a := (h'.releases a).trans (h.releases a)
  channels k := (h'.channels k).trans (h.channels k)

theorem BoothFrame.aside (h : BoothFrame s t) (hs : Hushed s t) : Aside s t where
  hushed := hs
  profiles := by rw [h.rest]
  seats := by rw [h.rest]
  members := membersOf_of_rooms (by rw [h.rest])
  floors := by rw [h.rest]
  poolFree := by rw [h.rest]
  stampCounter := by rw [h.rest]
  releaseCounter := by rw [h.rest]
  refusals k := by rw [h.rest]
  releases a := by rw [h.rest]
  channels k := by rw [h.rest]

theorem WallFrame.aside (h : WallFrame s t) (hm : membersOf t = membersOf s) (hs : Hushed s t) : Aside s t where
  hushed := hs
  profiles := by rw [h.rest]
  seats := by rw [h.rest]
  members := hm
  floors := by rw [h.rest]
  poolFree := by rw [h.rest]
  stampCounter := by rw [h.rest]
  releaseCounter := by rw [h.rest]
  refusals k := by rw [h.trunks k]
  releases a := by rw [h.mixes a]
  channels k := by rw [h.trunks k]

theorem commitBooths_aside (affected news : List Segment) (s : State) : Aside s (commitBooths affected news s) :=
  (commitBooths_boothFrame affected news s).aside (commitBooths_hushed ..)

theorem commitTaps_aside (s : State) : Aside s (commitTaps s) :=
  (commitTaps_boothFrame s).aside (commitTaps_hushed s)

theorem startTest_aside (uncreated : List Segment) (s : State) : Aside s (startTest uncreated s) :=
  (startTest_wallFrame uncreated s).aside (funext (startTest_idle uncreated s).members) (startTest_hushed ..)

/-- A trunk that does not hold any event. -/
theorem commitTrunk_aside (sets : Sets) (segments : List Segment) {k : TrunkId} (hk : (s.trunks.get k).intake = []) :
    Aside s (commitTrunk sets segments k s) := by
  unfold commitTrunk
  split
  · rw [hk]
    have same {α : Type} (f : Trunk → α) (hf : ∀ r : Trunk, f { r with holding := false, intake := [] } = f r) (j : TrunkId) :
        f ((s.trunks.modify k fun r => { r with holding := false, intake := [] }).get j) = f (s.trunks.get j) := by
      rw [Tab.get_modify]
      split
      · exact hf _
      · rfl
    exact ⟨.of_same rfl rfl, rfl, rfl, rfl, rfl, rfl, rfl, rfl, same Trunk.refusals fun _ => rfl, fun _ => rfl,
      same Trunk.channels fun _ => rfl⟩
  · exact .refl s

end

end Sys2Proof.Machine
end


section
/-! The entries that a trim takes, in the order taken (R93). -/

namespace Sys2Proof.Machine
open Sys2Proof.Safety

/-- The speaker entries in the order in which a trim would take them: the latest first, non-chair entries before chair entries,
and holders last. -/
def trimOrder (g : Floor) : List Speaker :=
  (g.speakers.reverse.filter fun e => !e.chairAtGrant) ++
    (g.speakers.reverse.filter fun e => e.chairAtGrant && !isHolder g e.seat) ++
    g.speakers.reverse.filter fun e => e.chairAtGrant && isHolder g e.seat

theorem trimmed_eq (g : Floor) : trimmed g = (trimOrder g).take (g.speakers.length - 10) := rfl

/-- Where no seat has two entries, the first entry of a seat is its only one. -/
theorem eraseP_eq_filter {α : Type} {seat : α → SeatId} {l : List α} (hl : (l.map seat).Nodup) (i : SeatId) :
    (l.eraseP fun x => seat x == i) = l.filter fun x => seat x != i := by
  induction l with
  | nil => rfl
  | cons x l ih =>
    obtain ⟨hx, hl⟩ := List.nodup_cons.mp hl
    by_cases h : seat x = i
    · subst h
      rw [List.eraseP_cons_of_pos (by simp), List.filter_cons, if_neg (by simp)]
      refine (List.filter_eq_self.mpr fun y hy => bne_iff_ne.mpr fun e => hx ?_).symm
      rw [← e]
      exact List.mem_map_of_mem hy
    · rw [List.eraseP_cons_of_neg (by simpa using h), List.filter_cons, if_pos (bne_iff_ne.mpr h), ih hl]

/-- The floor `g` without the speaker entries and holds of the seats `gone`. -/
def Floor.without (g : Floor) (gone : List SeatId) : Floor :=
  { g with
    speakers := g.speakers.filter fun e => !gone.contains e.seat
    holders := g.holders.filter fun h => !gone.contains h.seat }

theorem Floor.without_nil (g : Floor) : g.without [] = g := by
  simp [Floor.without]

section
variable {g : Floor} {e : Speaker}

theorem trimOrder_perm (g : Floor) : (trimOrder g).Perm g.speakers := by
  have chairs : ((g.speakers.reverse.filter fun e => e.chairAtGrant && !isHolder g e.seat) ++
      g.speakers.reverse.filter fun e => e.chairAtGrant && isHolder g e.seat).Perm
      (g.speakers.reverse.filter fun e => e.chairAtGrant) := by
    have parts := List.filter_append_perm (fun e : Speaker => !isHolder g e.seat)
      (g.speakers.reverse.filter fun e => e.chairAtGrant)
    simp only [List.filter_filter, Bool.not_not] at parts
    simpa only [Bool.and_comm] using parts
  have all := List.filter_append_perm (fun e : Speaker => !e.chairAtGrant) g.speakers.reverse
  simp only [Bool.not_not] at all
  rw [trimOrder, List.append_assoc]
  exact ((chairs.append_left _).trans all).trans (List.reverse_perm _)

theorem mem_trimOrder : e ∈ trimOrder g ↔ e ∈ g.speakers :=
  (trimOrder_perm g).mem_iff

theorem length_trimOrder (g : Floor) : (trimOrder g).length = g.speakers.length :=
  (trimOrder_perm g).length_eq

theorem trimmed_length (g : Floor) : (trimmed g).length = g.speakers.length - 10 := by
  rw [trimmed_eq, List.length_take, length_trimOrder]
  omega

theorem trimmed_eq_nil (h : g.speakers.length ≤ 10) : trimmed g = [] := by
  rw [← List.length_eq_zero_iff, trimmed_length]
  omega

theorem mem_trimmed (h : e ∈ trimmed g) : e ∈ g.speakers :=
  mem_trimOrder.mp (List.mem_of_mem_take h)

theorem trimmed_seats_nodup (hg : (g.speakers.map Speaker.seat).Nodup) : ((trimmed g).map Speaker.seat).Nodup := by
  have sorted := ((trimOrder_perm g).map Speaker.seat).nodup_iff.mpr hg
  exact sorted.sublist ((List.take_sublist ..).map _)

/-- A trim takes the first of the order (R93). -/
theorem trimVictim_eq_head (g : Floor) : trimVictim g = (trimOrder g).head? := by
  have last (p : Speaker → Bool) : (g.speakers.filter p).getLast? = (g.speakers.reverse.filter p).head? := by
    rw [List.filter_reverse, List.head?_reverse]
  unfold trimVictim trimOrder
  rw [last, last, ← List.head?_reverse (l := g.speakers)]
  cases hn : (g.speakers.reverse.filter fun e => !e.chairAtGrant) with
  | cons e l => rfl
  | nil =>
    have chair : ∀ e ∈ g.speakers.reverse, e.chairAtGrant = true := fun e he => by
      simpa using List.filter_eq_nil_iff.mp hn e he
    have free : (g.speakers.reverse.filter fun e => !isHolder g e.seat) =
        g.speakers.reverse.filter fun e => e.chairAtGrant && !isHolder g e.seat :=
      List.filter_congr fun e he => by rw [chair e he, Bool.true_and]
    rw [← free]
    cases hf : (g.speakers.reverse.filter fun e => !isHolder g e.seat) with
    | cons e l => rfl
    | nil =>
      have holds : ∀ e ∈ g.speakers.reverse, isHolder g e.seat = true := fun e he => by
        simpa using List.filter_eq_nil_iff.mp hf e he
      have all : (g.speakers.reverse.filter fun e => e.chairAtGrant && isHolder g e.seat) = g.speakers.reverse :=
        List.filter_eq_self.mpr fun e he => by rw [chair e he, holds e he]; rfl
      rw [all]
      rfl

theorem silenced_speakers (hg : (g.speakers.map Speaker.seat).Nodup) (i : SeatId) :
    (g.silenced i).speakers = g.speakers.filter fun e => e.seat != i := by
  exact eraseP_eq_filter hg i

theorem trimOrder_silenced (hg : (g.speakers.map Speaker.seat).Nodup) (i : SeatId) :
    trimOrder (g.silenced i) = (trimOrder g).filter fun e => e.seat != i := by
  have holds {j : SeatId} (hj : j ≠ i) : isHolder (g.silenced i) j = isHolder g j := by
    rw [Bool.eq_iff_iff]
    simp only [isHolder, List.any_eq_true, Floor.silenced, List.mem_filter, bne_iff_ne, beq_iff_eq]
    constructor
    · rintro ⟨h, ⟨hm, -⟩, rfl⟩
      exact ⟨h, hm, rfl⟩
    · rintro ⟨h, hm, rfl⟩
      exact ⟨h, ⟨hm, hj⟩, rfl⟩
  simp only [trimOrder, silenced_speakers hg, ← List.filter_reverse, List.filter_append, List.filter_filter]
  congr 1
  · congr 1
    · exact List.filter_congr fun e _ => Bool.and_comm ..
    · refine List.filter_congr fun e _ => ?_
      by_cases he : e.seat = i
      · simp [he]
      · rw [holds he, Bool.and_comm]
  · refine List.filter_congr fun e _ => ?_
    by_cases he : e.seat = i
    · simp [he]
    · rw [holds he, Bool.and_comm]

/-- What is left of the order once its first entry is taken. -/
theorem trimOrder_silenced_head (hg : (g.speakers.map Speaker.seat).Nodup) {l : List Speaker} (h : trimOrder g = e :: l) :
    trimOrder (g.silenced e.seat) = l := by
  have nodup : ((trimOrder g).map Speaker.seat).Nodup := ((trimOrder_perm g).map Speaker.seat).nodup_iff.mpr hg
  rw [h, List.map_cons, List.nodup_cons] at nodup
  rw [trimOrder_silenced hg, h, List.filter_cons, if_neg (by simp)]
  refine List.filter_eq_self.mpr fun x hx => bne_iff_ne.mpr fun e => nodup.1 ?_
  rw [← e]
  exact List.mem_map_of_mem hx

end

/-! ### Trimming -/

/-- The entries `l` are trimmed in the room with anchor `a`, one after another. -/
def trimAll (sets : Sets) (a : Segment) (l : List Speaker) (s : State) : State :=
  l.foldl (fun s e => removeSpeaker sets a e.seat .mergeTrim s) s

theorem trimSpeakers_eq {sets : Sets} {a : Segment} (n : Nat) {s : State}
    (hg : ((s.floors.get a).speakers.map Speaker.seat).Nodup) (hn : (s.floors.get a).speakers.length ≤ n) :
    trimSpeakers sets n a s = trimAll sets a (trimmed (s.floors.get a)) s := by
  induction n generalizing s with
  | zero => rw [trimmed_eq_nil (by omega)]; rfl
  | succ n ih =>
    unfold trimSpeakers
    by_cases hle : (s.floors.get a).speakers.length ≤ 10
    · rw [if_pos (show (floorOf s a).speakers.length ≤ Config.speakerCap from hle), trimmed_eq_nil hle]
      rfl
    · rw [if_neg (show ¬(floorOf s a).speakers.length ≤ Config.speakerCap from hle), floorOf, trimVictim_eq_head]
      obtain ⟨e, l, hel⟩ := List.exists_cons_of_length_pos
        (show 0 < (trimOrder (s.floors.get a)).length by rw [length_trimOrder]; omega)
      have mem : e ∈ (s.floors.get a).speakers := mem_trimOrder.mp (by rw [hel]; exact List.mem_cons_self)
      have floor : (removeSpeaker sets a e.seat .mergeTrim s).floors.get a = (s.floors.get a).silenced e.seat := by
        rw [removeSpeaker_floors, Tab.get_modify_self,
          Floor.closed_of_hasSpeaker (List.any_eq_true.mpr ⟨e, mem, beq_self_eq_true _⟩)]
      have len : ((s.floors.get a).silenced e.seat).speakers.length + 1 = (s.floors.get a).speakers.length := by
        rw [← length_trimOrder, trimOrder_silenced_head hg hel, ← length_trimOrder, hel, List.length_cons]
      have first : trimmed (s.floors.get a) = e :: trimmed ((s.floors.get a).silenced e.seat) := by
        rw [trimmed_eq, trimmed_eq, trimOrder_silenced_head hg hel, hel, ← len,
          show ((s.floors.get a).silenced e.seat).speakers.length + 1 - 10 =
            ((s.floors.get a).silenced e.seat).speakers.length - 10 + 1 by omega, List.take_succ_cons]
      rw [hel, List.head?_cons, first]
      dsimp only
      rw [ih (by rw [floor, silenced_speakers hg]; exact hg.sublist (List.filter_sublist.map _)) (by rw [floor]; omega),
        floor]
      rfl

end Sys2Proof.Machine
end


section
/-! What trimming leaves (R76, R93). -/

namespace Sys2Proof.Machine
open Sys2Proof.Safety

/-! ### Removals without their notices -/

section
variable {sets : Sets} {a : Segment} {i : SeatId} {gain : Nat} {s : State}

theorem removed_eq (sets : Sets) (a : Segment) (i : SeatId) (gain : Nat) (s : State) :
    removed sets a i gain s =
      { s with
        floors := s.floors.modify a (Floor.silenced i)
        releaseCounter := s.releaseCounter + 1
        mixes := (removed sets a i gain s).mixes
        trunks := (removed sets a i gain s).trunks } := by
  simp only [removed, addRelease_eq]
  rfl

theorem removed_refusals (sets : Sets) (a : Segment) (i : SeatId) (gain : Nat) (s : State) (k : TrunkId) :
    ((removed sets a i gain s).trunks.get k).refusals = (s.trunks.get k).refusals := by
  simp only [removed, addRelease_eq, State.freeAll, State.growRelease, Tab.get_ofFn]
  rfl

theorem removed_sendAll (sent : List Sent) (sets : Sets) (a : Segment) (i : SeatId) (gain : Nat) (s : State) :
    removed sets a i gain (sendAll sent s) = sendAll sent (removed sets a i gain s) := by
  simp only [removed, modFloor_sendAll, addRelease_eq, membersOf_sendAll]
  exact eq_sendAll_of_frame (s := s.modFloor a (Floor.silenced i)) sent rfl rfl (by rw [sendAll_frame]; rfl)

end

/-- The entries `l` are removed, one after another. -/
def trimCore (sets : Sets) (a : Segment) (l : List Speaker) (s : State) : State :=
  l.foldl (fun s e => removed sets a e.seat e.gain s) s

section
variable {sets : Sets} {a : Segment} {l : List Speaker} {s : State}

theorem trimCore_sendAll (sent : List Sent) (sets : Sets) (a : Segment) (l : List Speaker) (s : State) :
    trimCore sets a l (sendAll sent s) = sendAll sent (trimCore sets a l s) := by
  induction l generalizing s with
  | nil => rfl
  | cons e l ih => rw [trimCore, List.foldl_cons, removed_sendAll]; exact ih _

theorem Floor.without_cons (g : Floor) (i : SeatId) (gone : List SeatId) (hg : (g.speakers.map Speaker.seat).Nodup) :
    (g.silenced i).without gone = g.without (i :: gone) := by
  have both (j : SeatId) : (!gone.contains j && j != i) = !(i :: gone).contains j := by
    rw [List.contains_cons, Bool.not_or, Bool.and_comm]
    rfl
  have speakers : (g.silenced i).speakers.filter (fun e => !gone.contains e.seat) =
      g.speakers.filter fun e => !(i :: gone).contains e.seat := by
    rw [silenced_speakers hg, List.filter_filter]
    simp only [both]
  have holders : (g.silenced i).holders.filter (fun h => !gone.contains h.seat) =
      g.holders.filter fun h => !(i :: gone).contains h.seat := by
    rw [Floor.silenced, List.filter_filter]
    simp only [both]
  rw [Floor.without, speakers, holders]
  rfl

theorem trimCore_eq (hg : ((s.floors.get a).speakers.map Speaker.seat).Nodup) :
    trimCore sets a l s =
        { s with
          floors := s.floors.set a ((s.floors.get a).without (l.map Speaker.seat))
          releaseCounter := s.releaseCounter + BitVec.ofNat 32 l.length
          mixes := (trimCore sets a l s).mixes
          trunks := (trimCore sets a l s).trunks } ∧
      ∀ k, ((trimCore sets a l s).trunks.get k).refusals = (s.trunks.get k).refusals := by
  induction l generalizing s with
  | nil =>
    have floors : s.floors.set a ((s.floors.get a).without []) = s.floors := by rw [Floor.without_nil, Tab.set_get_self]
    refine ⟨?_, fun _ => rfl⟩
    simp only [List.map_nil, floors, List.length_nil, BitVec.add_zero]
    rfl
  | cons e l ih =>
    have first := removed_eq sets a e.seat e.gain s
    have refusals := removed_refusals sets a e.seat e.gain s
    have floor : (removed sets a e.seat e.gain s).floors.get a = (s.floors.get a).silenced e.seat := by
      rw [first]
      exact Tab.get_modify_self ..
    have counter : (removed sets a e.seat e.gain s).releaseCounter = s.releaseCounter + 1 := by rw [first]
    have floors (f : Floor) : (removed sets a e.seat e.gain s).floors.set a f = s.floors.set a f := by
      rw [first]
      exact Tab.ext_get fun b => by
        by_cases hb : a = b
        · subst hb; simp
        · simp [Tab.get_set_ne _ _ hb, Tab.get_modify_ne _ _ hb]
    have step := ih (s := removed sets a e.seat e.gain s)
      (by rw [floor, silenced_speakers hg]; exact hg.sublist (List.filter_sublist.map _))
    rw [show trimCore sets a (e :: l) s = trimCore sets a l (removed sets a e.seat e.gain s) from rfl]
    refine ⟨?_, fun k => (step.2 k).trans (refusals k)⟩
    rw [floor, Floor.without_cons _ _ _ hg, counter, floors, add_assoc,
      show (1 : Clock) + BitVec.ofNat 32 l.length = BitVec.ofNat 32 (e :: l).length by
        rw [List.length_cons, BitVec.ofNat_add, add_comm]; rfl] at step
    rw [step.1]
    generalize (trimCore sets a l (removed sets a e.seat e.gain s)).trunks = trunks
    generalize (trimCore sets a l (removed sets a e.seat e.gain s)).mixes = mixes
    rw [first]
    rfl

theorem trimAll_eq (hg : ((s.floors.get a).speakers.map Speaker.seat).Nodup) (hl : ∀ e ∈ l, e ∈ (s.floors.get a).speakers)
    (hn : (l.map Speaker.seat).Nodup) :
    trimAll sets a l s = sendAll (l.map fun e => floorSent s a e.seat .closed .mergeTrim) (trimCore sets a l s) := by
  induction l generalizing s with
  | nil => rfl
  | cons e l ih =>
    obtain ⟨he, hn⟩ := List.nodup_cons.mp hn
    have mem := hl e List.mem_cons_self
    have entry : speakerOf (s.floors.get a) e.seat = some e := by
      cases hs : speakerOf (s.floors.get a) e.seat with
      | none => exact absurd (by simp) (List.find?_eq_none.mp hs e mem)
      | some x =>
        obtain ⟨hx, hxe⟩ := mem_speakers_of_speakerOf hs
        rw [List.inj_on_of_nodup_map hg hx mem hxe]
    have first := removed_eq sets a e.seat e.gain s
    have floor : (removed sets a e.seat e.gain s).floors.get a = (s.floors.get a).silenced e.seat := by
      rw [first]
      exact Tab.get_modify_self ..
    have notes (x : Speaker) : floorSent (sendAll [floorSent s a e.seat .closed .mergeTrim] (removed sets a e.seat e.gain s)) a
        x.seat .closed .mergeTrim = floorSent s a x.seat .closed .mergeTrim := by
      rw [floorSent, membersOf_sendAll, first]
      rfl
    have step := ih (s := sendAll [floorSent s a e.seat .closed .mergeTrim] (removed sets a e.seat e.gain s))
      (by rw [sendAll_floors, floor, silenced_speakers hg]; exact hg.sublist (List.filter_sublist.map _))
      (fun x hx => by
        rw [sendAll_floors, floor, silenced_speakers hg]
        refine List.mem_filter.mpr ⟨hl x (List.mem_cons_of_mem e hx), bne_iff_ne.mpr fun h => he ?_⟩
        rw [← h]
        exact List.mem_map_of_mem hx) hn
    rw [trimAll, List.foldl_cons, removeSpeaker_moves entry rfl]
    refine step.trans ?_
    simp only [notes]
    rw [trimCore_sendAll, ← sendAll_append, List.map_cons, List.singleton_append]
    rfl

end

end Sys2Proof.Machine
end


section
/-! Requests that a commit makes and removes, and its PRIORITY notices (R94, R95, R113). -/

namespace Sys2Proof.Machine
open Sys2Proof.Safety

/-! ### Requeued speakers (R94) -/

/-- The requests of requeued seats, with the stamps from `c` on. -/
def returnedAll (c : Clock) (seats : List SeatId) : List Request :=
  seats.zipIdx.map fun x => { seat := x.1, stamp := c + BitVec.ofNat 32 x.2, returned := true }

theorem returnedAll_cons (c : Clock) (i : SeatId) (seats : List SeatId) :
    returnedAll c (i :: seats) = { seat := i, stamp := c, returned := true } :: returnedAll (c + 1) seats := by
  have shift (n : Nat) : c + 1 + BitVec.ofNat 32 n = c + BitVec.ofNat 32 (n + 1) := by
    rw [BitVec.ofNat_add, add_assoc, add_comm (BitVec.ofNat 32 n)]
    rfl
  simp only [returnedAll, List.zipIdx_cons', List.map_cons, List.map_map, BitVec.add_zero, shift]
  rfl

/-- The requests `l` are made in the room with anchor `a`. -/
def State.enqueueAll (s : State) (a : Segment) (l : List Request) : State :=
  { s with
    floors := s.floors.modify a fun f => { f with queue := f.queue ++ l }
    poolFree := s.poolFree - l.length
    stampCounter := s.stampCounter + BitVec.ofNat 32 l.length }

theorem enqueueAll_nil (s : State) (a : Segment) : s.enqueueAll a [] = s := by
  have floors : (s.floors.modify a fun f => { f with queue := f.queue ++ [] }) = s.floors :=
    Tab.modify_of_fixed (by simp)
  simp only [State.enqueueAll, floors, List.length_nil, Nat.sub_zero, BitVec.add_zero]

theorem enqueueAll_cons (s : State) (a : Segment) (q : Request) (l : List Request) :
    (s.enqueueAll a [q]).enqueueAll a l = s.enqueueAll a (q :: l) := by
  have stamp : s.stampCounter + BitVec.ofNat 32 [q].length + BitVec.ofNat 32 l.length =
      s.stampCounter + BitVec.ofNat 32 (q :: l).length := by
    rw [add_assoc, ← BitVec.ofNat_add, Nat.add_comm]
    rfl
  have pool : s.poolFree - [q].length - l.length = s.poolFree - (q :: l).length := by
    simp only [List.length_cons, List.length_nil]
    omega
  simp only [State.enqueueAll, Tab.modify_twice, stamp, pool, List.append_assoc, List.singleton_append]

theorem enqueueAll_sendAll (sent : List Sent) (s : State) (a : Segment) (l : List Request) :
    (sendAll sent s).enqueueAll a l = sendAll sent (s.enqueueAll a l) :=
  eq_sendAll_of_frame (s := s) sent rfl rfl (by rw [sendAll_frame]; rfl)

/-- The request of a requeued speaker, where the pool has one. -/
theorem requeueSpeaker_eq {a : Segment} {s : State} (h : s.poolFree ≠ 0) (i : SeatId) :
    requeueSpeaker a s i =
      sendAll [floorSent s a i .queued .mergeTrim] (s.enqueueAll a [returnedRequest s i]) := by
  rw [requeueSpeaker, if_neg h]
  rfl

/-- Trimmed speakers are requeued as far as the pool goes (R94). -/
theorem foldl_requeueSpeaker (a : Segment) (seats : List SeatId) (sent : List Sent) (s : State) :
    seats.foldl (requeueSpeaker a) (sendAll sent s) =
      sendAll (sent ++ (returnedAll s.stampCounter (seats.take s.poolFree)).map fun q =>
          floorSent s a q.seat .queued .mergeTrim)
        (s.enqueueAll a (returnedAll s.stampCounter (seats.take s.poolFree))) := by
  induction seats generalizing sent s with
  | nil =>
    rw [List.take_nil, show returnedAll s.stampCounter [] = [] from rfl, enqueueAll_nil, List.map_nil, List.append_nil]
    rfl
  | cons i seats ih =>
    cases hp : s.poolFree with
    | zero =>
      have idle (u : State) (hu : u.poolFree = 0) (j : SeatId) : requeueSpeaker a u j = u := if_pos hu
      have all (l : List SeatId) (u : State) (hu : u.poolFree = 0) : l.foldl (requeueSpeaker a) u = u := by
        induction l with
        | nil => rfl
        | cons j l ih => rw [List.foldl_cons, idle u hu j, ih]
      rw [all _ _ (by rw [sendAll_poolFree, hp]), List.take_zero, show returnedAll s.stampCounter [] = [] from rfl,
        enqueueAll_nil, List.map_nil, List.append_nil]
    | succ n =>
      have first : requeueSpeaker a (sendAll sent s) i =
          sendAll (sent ++ [floorSent s a i .queued .mergeTrim])
            (s.enqueueAll a [{ seat := i, stamp := s.stampCounter, returned := true }]) := by
        rw [requeueSpeaker_eq (by rw [sendAll_poolFree, hp]; exact Nat.succ_ne_zero n), enqueueAll_sendAll,
          floorSent_sendAll, sendAll_append, returnedRequest, sendAll_stampCounter]
      have pool : (s.enqueueAll a [{ seat := i, stamp := s.stampCounter, returned := true }]).poolFree = n := by
        rw [State.enqueueAll, hp]
        rfl
      have stamp : (s.enqueueAll a [{ seat := i, stamp := s.stampCounter, returned := true }]).stampCounter =
          s.stampCounter + 1 := rfl
      have notes : floorSent (s.enqueueAll a [{ seat := i, stamp := s.stampCounter, returned := true }]) = floorSent s :=
        rfl
      rw [List.foldl_cons, first, ih, pool, stamp, notes, enqueueAll_cons, List.take_succ_cons, returnedAll_cons,
        List.map_cons, List.append_assoc]
      rfl

/-! ### A queue that is removed (R95) -/

/-- The refusal marks of the seats of the requests `l` are set. -/
def State.markAll (s : State) (l : List Request) : State :=
  { s with
    trunks :=
      Tab.ofFn fun k =>
        { s.trunks.get k with
          refusals := Tab.ofFn fun pos => (s.trunks.get k).refusals.get pos || l.any fun q => q.seat == seatAt k pos } }

theorem markAll_nil (s : State) : s.markAll [] = s := by
  have marks (t : Tab 40 Bool) : (Tab.ofFn fun pos => t.get pos || false) = t := Tab.ext_get fun pos => by simp
  have trunks : (s.markAll []).trunks = s.trunks := Tab.ext_get fun k => by
    simp only [State.markAll, Tab.get_ofFn, List.any_nil, marks]
  calc s.markAll [] = { s with trunks := (s.markAll []).trunks } := rfl
    _ = s := by rw [trunks]

/-- The whole queue of a room is removed, each seat with a refusal mark. -/
def State.dismissAll (s : State) (a : Segment) (l : List Request) : State :=
  { s.markAll l with
    floors := s.floors.modify a fun f => { f with queue := f.queue.drop l.length }
    poolFree := s.poolFree + l.length }

theorem dismissAll_nil (s : State) (a : Segment) : s.dismissAll a [] = s := by
  have floors : (s.floors.modify a fun f => { f with queue := f.queue.drop ([] : List Request).length }) = s.floors :=
    Tab.modify_of_fixed rfl
  rw [State.dismissAll, markAll_nil, floors]
  rfl

theorem dismissAll_cons {s : State} {a : Segment} {q : Request} {l : List Request}
    (h : (s.floors.get a).queue = q :: l) :
    (afterDequeue s a q.seat true).dismissAll a l = s.dismissAll a (q :: l) := by
  have trunks : ((afterDequeue s a q.seat true).dismissAll a l).trunks = (s.dismissAll a (q :: l)).trunks :=
    Tab.ext_get fun k => by
      have marks (pos : Position) : (((afterDequeue s a q.seat true).trunks.get k).refusals.get pos || l.any fun q =>
          q.seat == seatAt k pos) = ((s.trunks.get k).refusals.get pos || (q :: l).any fun q => q.seat == seatAt k pos) := by
        simp only [afterDequeue, if_true, List.any_cons, ← Bool.or_assoc]
        congr 1
        by_cases hk : segmentOf q.seat = k
        · subst hk
          rw [Tab.get_modify_self]
          by_cases hp : positionOf q.seat = pos
          · subst hp
            simp [seatAt_positionOf]
          · simp [Tab.get_set_ne _ _ hp, Ne.symm (mt (seatAt_eq_iff rfl pos).mp hp)]
        · have other : q.seat ≠ seatAt k pos := fun e => hk (by rw [e, segmentOf_seatAt])
          simp [Tab.get_modify_ne _ _ hk, other]
      simp only [State.dismissAll, State.markAll, Tab.get_ofFn, marks]
      by_cases hk : segmentOf q.seat = k
      · subst hk
        simp [afterDequeue]
      · simp [afterDequeue, Tab.get_modify_ne _ _ hk]
  have floors : ((afterDequeue s a q.seat true).dismissAll a l).floors = (s.dismissAll a (q :: l)).floors :=
    Tab.ext_get fun b => by
      by_cases hb : a = b
      · subst hb
        simp [State.dismissAll, afterDequeue, h]
      · simp [State.dismissAll, afterDequeue, Tab.get_modify_ne _ _ hb]
  have pool : s.poolFree + 1 + l.length = s.poolFree + (q :: l).length := by
    rw [List.length_cons]
    omega
  calc (afterDequeue s a q.seat true).dismissAll a l =
      { s with
        floors := ((afterDequeue s a q.seat true).dismissAll a l).floors
        trunks := ((afterDequeue s a q.seat true).dismissAll a l).trunks
        poolFree := s.poolFree + 1 + l.length } := rfl
    _ = s.dismissAll a (q :: l) := by rw [floors, trunks, pool]; rfl

theorem foldl_afterDequeue (a : Segment) (l : List Request) {s : State} (h : (s.floors.get a).queue = l) :
    l.foldl (fun t q => afterDequeue t a q.seat true) s = s.dismissAll a l := by
  induction l generalizing s with
  | nil => exact (dismissAll_nil s a).symm
  | cons q l ih =>
    rw [List.foldl_cons, ih (by simp [afterDequeue, h]), dismissAll_cons h]

/-! ### PRIORITY notices by segment (R113) -/

/-- The PRIORITY notices of a new room with these members. -/
def prioritySent (old : State) (a : Segment) (members : List Segment) (held : Bool) : List Sent :=
  members.filterMap fun g =>
    if (!(old.floors.get (roomOf old g)).holders.isEmpty) = held then none else some ([g], .priority a held)

theorem commitPriority_eq (old : State) (a : Segment) (s : State) :
    commitPriority old a s = sendAll (prioritySent old a (membersOf s a) (priorityHeld s a)) s := by
  have all (l : List Segment) (u : State) (hu : priorityHeld u a = priorityHeld s a) :
      l.foldl (fun s g => if priorityHeld old (roomOf old g) == priorityHeld s a then s
        else notify [g] (.priority a (priorityHeld s a)) s) u = sendAll (prioritySent old a l (priorityHeld s a)) u := by
    induction l generalizing u with
    | nil => rfl
    | cons g l ih =>
      rw [List.foldl_cons, hu, prioritySent, List.filterMap_cons, priorityHeld, floorOf]
      by_cases h : (!(old.floors.get (roomOf old g)).holders.isEmpty) = priorityHeld s a
      · rw [if_pos (beq_iff_eq.mpr h), if_pos h]
        exact ih u hu
      · rw [if_neg (mt beq_iff_eq.mp h), if_neg h, ih (notify [g] (.priority a (priorityHeld s a)) u) hu]
        rfl
  exact all _ s rfl

end Sys2Proof.Machine
end


section
/-! The floor that a commit builds for a new room, up to its auto-advance (R92 to R95, R112, R113). -/

namespace Sys2Proof.Machine
open Sys2Proof.Safety

/-- The requests that trimmed speakers take, by their seats. -/
def requeuedSeats (g : Floor) : List SeatId :=
  (g.speakers.filter fun e => ((trimmed g).map Speaker.seat).contains e.seat).map Speaker.seat

theorem requeued_eq (s : State) (g : Floor) (mode : FloorMode) :
    requeued s g mode =
      if mode = .direct then [] else returnedAll s.stampCounter ((requeuedSeats g).take s.poolFree) := by
  have all : ((((g.speakers.filter fun e => ((trimmed g).map Speaker.seat).contains e.seat).take s.poolFree).zipIdx.map
      fun x => ({ seat := x.1.seat, stamp := s.stampCounter + BitVec.ofNat 32 x.2, returned := true } : Request))) =
      returnedAll s.stampCounter ((requeuedSeats g).take s.poolFree) := by
    rw [returnedAll, requeuedSeats, ← List.map_take, List.zipIdx_map, List.map_map]
    rfl
  cases mode with
  | direct => rfl
  | autoQueue => exact all
  | chair => exact all

/-- The floor of a new room before its entries are suspended or resumed. -/
def heldFloor (now : Clock) (g : Floor) (added gone : List Request) : Floor :=
  let f := Floor.capped now { g.without ((trimmed g).map Speaker.seat) with queue := g.queue ++ added }
  { f with queue := f.queue.drop gone.length }

/-- Which entries of such a floor are noticed is seen before the holds are capped. -/
theorem heldFloor_notes (now : Clock) (g : Floor) (added gone : List Request) {p : Speaker → Bool}
    (hp : ∀ e : Speaker, p { e with byPriority := false } = p e) (note : SeatId → Sent) :
    (((heldFloor now g added gone).speakers.filter p).map fun e => note e.seat) =
      ((g.speakers.filter fun e => !((trimmed g).map Speaker.seat).contains e.seat).filter p).map fun e => note e.seat := by
  obtain ⟨k, hk, speakers⟩ := capped_speakers now { g.without ((trimmed g).map Speaker.seat) with queue := g.queue ++ added }
  have kept : ∀ e, p (k e) = p e := fun e => by
    rw [hk, ← hp, ← hp e]
  rw [heldFloor, speakers, List.filter_map, List.map_map]
  refine Eq.trans ?_ (congrArg (List.map _) (List.filter_congr fun e _ => kept e))
  refine List.map_congr_left fun e _ => ?_
  rw [Function.comp, hk]

/-- The requests that a DIRECT room removes. -/
def dismissed (g : Floor) (mode : FloorMode) : List Request :=
  if mode = .direct then sortBy requestBefore g.queue else []

/-- The entries suspended where a hold is left, and resumed where none is (R113). -/
def turned (now : Clock) (f : Floor) : Floor :=
  { f with speakers := f.speakers.map (if f.holders = [] then resumed now else suspended now) }

theorem builtFloor_eq (s : State) (rp : Repartition) (a : Segment) :
    builtFloor s rp a =
      turned s.clock (heldFloor s.clock (gathered s rp a) (requeued s (gathered s rp a) (s.profiles.get a).floorMode)
        (dismissed (gathered s rp a) (s.profiles.get a).floorMode)) := by
  generalize hg : gathered s rp a = g
  have empty (l : List Holder) : l = [] ↔ l.take 4 = [] := by
    cases l <;> simp
  have speakers (lost : List SeatId) (e : Speaker) :
      ({ e with byPriority := e.byPriority && !lost.contains e.seat } : Speaker) =
        if lost.contains e.seat then { e with byPriority := false } else e := by
    cases h : lost.contains e.seat <;> simp
  unfold builtFloor turned heldFloor dismissed Floor.capped capHolders
  simp only [hg, Floor.without, List.map_map, requeued_eq]
  by_cases hm : (s.profiles.get a).floorMode = .direct
  · simp only [hm, if_true, List.append_nil, List.drop_length, speakers]
    congr 1
    refine List.map_congr_left fun e _ => ?_
    exact congrFun (if_congr (empty _) rfl rfl) _
  · simp only [hm, if_false, List.length_nil, List.drop_zero, speakers]
    congr 1
    refine List.map_congr_left fun e _ => ?_
    exact congrFun (if_congr (empty _) rfl rfl) _

/-! ### The steps of the building -/

/-- The notices of a new room's floor up to its auto-advance. -/
def draftSent (old v : State) (a : Segment) (g : Floor) (added gone : List Request) (held : Bool) : List Sent :=
  let stay := g.speakers.filter fun e => !((trimmed g).map Speaker.seat).contains e.seat
  (trimmed g).map (fun e => floorSent v a e.seat .closed .mergeTrim) ++
    added.map (fun q => floorSent v a q.seat .queued .mergeTrim) ++
    gone.map (fun q => floorSent v a q.seat .dequeued .modeDirect) ++
    (if held then
      (stay.filter fun e => !e.chairAtGrant && e.state == .opened).map fun e => floorSent v a e.seat .suspended .none
    else (stay.filter fun e => e.state == .suspended).map fun e => floorSent v a e.seat .resumed .none) ++
    prioritySent old a (membersOf v a) held

/-- A new room's floor `f`, the requests `added` made and those `gone` removed. -/
def State.drafted (w : State) (a : Segment) (f : Floor) (added gone : List Request) : State :=
  { w.markAll gone with
    floors := w.floors.set a f
    poolFree := w.poolFree - added.length + gone.length
    stampCounter := w.stampCounter + BitVec.ofNat 32 added.length }

section
variable {sets : Sets} {old v : State} {affected Z : List Segment} {a : Segment}

/-- The holds are capped, the queue is put in order, and a DIRECT room removes it. -/
theorem drafted_held (w : State) (a : Segment) (g : Floor) (added gone : List Request)
    (hw : w.floors.get a = g.without ((trimmed g).map Speaker.seat)) :
    (((w.enqueueAll a added).modFloor a (Floor.capped w.clock)).dismissAll a gone) =
      w.drafted a (heldFloor w.clock g added gone) added gone := by
  have floors : (((w.enqueueAll a added).modFloor a (Floor.capped w.clock)).dismissAll a gone).floors =
      w.floors.set a (heldFloor w.clock g added gone) := Tab.ext_get fun b => by
    by_cases hb : a = b
    · subst hb
      simp only [State.dismissAll, State.modFloor_floors, State.enqueueAll, Tab.get_modify_self, Tab.get_set_self, hw]
      rfl
    · simp only [State.dismissAll, State.modFloor_floors, State.enqueueAll, Tab.get_modify_ne _ _ hb, Tab.get_set_ne _ _ hb]
  calc _ = { w.markAll gone with
        floors := (((w.enqueueAll a added).modFloor a (Floor.capped w.clock)).dismissAll a gone).floors
        poolFree := w.poolFree - added.length + gone.length
        stampCounter := w.stampCounter + BitVec.ofNat 32 added.length } := rfl
    _ = _ := by rw [floors]; rfl

/-- Suspension or resumption, as a hold is left or not (R113). -/
theorem turn_eq (sent : List Sent) (s : State) (a : Segment) :
    (if priorityHeld (sendAll sent s) a then suspendAll a (sendAll sent s) else resumeAll a (sendAll sent s)) =
      sendAll (sent ++
          if priorityHeld s a then
            ((s.floors.get a).speakers.filter fun e => !e.chairAtGrant && e.state == .opened).map fun e =>
              floorSent s a e.seat .suspended .none
          else ((s.floors.get a).speakers.filter fun e => e.state == .suspended).map fun e =>
              floorSent s a e.seat .resumed .none)
        (s.modFloor a (turned s.clock)) := by
  rw [priorityHeld_sendAll]
  cases hp : priorityHeld s a with
  | true =>
    have held := priorityHeld_iff.mp hp
    have floors : s.floors.modify a (turned s.clock) = (suspendedIn s a).floors := Tab.ext_get fun b => by
      by_cases hb : a = b
      · subst hb
        simp only [suspendedIn, State.modFloor_floors, Tab.get_modify_self, turned, if_neg held]
      · simp only [suspendedIn, State.modFloor_floors, Tab.get_modify_ne _ _ hb]
    rw [if_pos rfl, if_pos rfl, suspendAll_eq, sendAll_floors, floorSent_sendAll, suspendedIn, modFloor_sendAll, sendAll_clock,
      ← sendAll_append]
    exact congrArg (fun f => sendAll _ (s.setFloors f)) floors.symm
  | false =>
    have free := priorityHeld_eq_false.mp hp
    have floors : s.floors.modify a (turned s.clock) = (resumedIn s a).floors := Tab.ext_get fun b => by
      by_cases hb : a = b
      · subst hb
        simp only [resumedIn, State.modFloor_floors, Tab.get_modify_self, turned, if_pos free]
      · simp only [resumedIn, State.modFloor_floors, Tab.get_modify_ne _ _ hb]
    rw [if_neg nofun, if_neg nofun, resumeAll_eq, sendAll_floors, floorSent_sendAll, resumedIn, modFloor_sendAll, sendAll_clock,
      ← sendAll_append]
    exact congrArg (fun f => sendAll _ (s.setFloors f)) floors.symm

/-- The gathered floor, placed and trimmed. -/
def trimmedState (sets : Sets) (g : Floor) (a : Segment) (v : State) : State :=
  trimCore sets a (trimmed g) (v.modFloor a fun _ => g)

section
variable {g : Floor} (hg : FloorHoused Z g)
include hg

theorem trimmedState_eq :
    trimmedState sets g a v =
        { v with
          floors := v.floors.set a (g.without ((trimmed g).map Speaker.seat))
          releaseCounter := v.releaseCounter + BitVec.ofNat 32 (trimmed g).length
          mixes := (trimmedState sets g a v).mixes
          trunks := (trimmedState sets g a v).trunks } ∧
      ∀ k, ((trimmedState sets g a v).trunks.get k).refusals = (v.trunks.get k).refusals := by
  have floor : (v.modFloor a fun _ => g).floors.get a = g := Tab.get_modify_self ..
  have core := trimCore_eq (sets := sets) (a := a) (l := trimmed g) (s := v.modFloor a fun _ => g)
    (by rw [floor]; exact hg.speakers)
  have floors (f : Floor) : (v.modFloor a fun _ => g).floors.set a f = v.floors.set a f := Tab.ext_get fun b => by
    by_cases hb : a = b
    · subst hb; simp
    · simp [Tab.get_set_ne _ _ hb, Tab.get_modify_ne _ _ hb]
  rw [floor, floors] at core
  exact core

omit hg in
theorem requeuedSeats_eq :
    ((g.speakers.map Speaker.seat).filter fun i => !hasSpeaker (g.without ((trimmed g).map Speaker.seat)) i) =
      requeuedSeats g := by
  rw [requeuedSeats, List.filter_map]
  refine congrArg _ (List.filter_congr fun e he => ?_)
  rw [Function.comp, Bool.eq_iff_iff, Bool.not_eq_true', ← Bool.not_eq_true, hasSpeaker_iff]
  simp only [Floor.without, List.mem_filter]
  constructor
  · intro h
    by_contra hc
    exact h ⟨e, ⟨he, by simpa using hc⟩, rfl⟩
  · rintro hc ⟨x, ⟨-, hx⟩, hxe⟩
    rw [hxe, hc] at hx
    cases hx

/-- The building of a floor, up to its auto-advance. -/
theorem buildFloor_draft (old : State) (affected : List Segment) (sets : Sets) (v : State) (a : Segment)
    (hgather : gatherFloor old affected (membersOf v a) = g) {added gone : List Request} {f : Floor}
    (hadded : added = if (v.profiles.get a).floorMode = .direct then []
      else returnedAll v.stampCounter ((requeuedSeats g).take v.poolFree))
    (hgone : gone = dismissed g (v.profiles.get a).floorMode) (hf : f = turned v.clock (heldFloor v.clock g added gone)) :
    buildFloor sets old affected v a =
      autoAdvance sets a (sendAll (draftSent old v a g added gone (!f.holders.isEmpty))
        ((trimmedState sets g a v).drafted a f added gone)) := by
  obtain ⟨rest, -⟩ := trimmedState_eq (sets := sets) (a := a) (v := v) hg
  have placed : (v.modFloor a fun _ => g).floors.get a = g := Tab.get_modify_self ..
  have trims : trimSpeakers sets g.speakers.length a (v.modFloor a fun _ => g) =
      sendAll ((trimmed g).map fun e => floorSent v a e.seat .closed .mergeTrim) (trimmedState sets g a v) := by
    rw [trimSpeakers_eq _ (by rw [placed]; exact hg.speakers) (by rw [placed]), placed]
    exact trimAll_eq (by rw [placed]; exact hg.speakers) (fun e he => by rw [placed]; exact mem_trimmed he)
      (trimmed_seats_nodup hg.speakers)
  generalize hw : trimmedState sets g a v = w at rest trims
  have clock : w.clock = v.clock := by rw [rest]
  have profiles : w.profiles = v.profiles := by rw [rest]
  have pool : w.poolFree = v.poolFree := by rw [rest]
  have stamp : w.stampCounter = v.stampCounter := by rw [rest]
  have floor : w.floors.get a = g.without ((trimmed g).map Speaker.seat) := by rw [rest]; exact Tab.get_set_self ..
  have members : membersOf w = membersOf v := membersOf_of_rooms (by rw [rest])
  have notes : floorSent w = floorSent v := by funext b i c r; rw [floorSent, floorSent, members]
  unfold buildFloor
  extract_lets gathered s1 s2 trimmedSeats direct s3 s4 s5 s6
  have e0 : gathered = g := hgather
  have e2 : s2 = sendAll ((trimmed g).map fun e => floorSent v a e.seat .closed .mergeTrim) w := by
    rw [← trims]
    simp only [s2, s1, e0]
  have seats : trimmedSeats = requeuedSeats g := by
    rw [← requeuedSeats_eq]
    simp only [trimmedSeats, e0, e2, floorOf, sendAll_floors, floor]
  have mode : direct = true ↔ (v.profiles.get a).floorMode = .direct := by
    simp only [direct, e2, profileOf, sendAll_profiles, profiles, beq_iff_eq]
  have e3 : s3 = sendAll ((trimmed g).map (fun e => floorSent v a e.seat .closed .mergeTrim) ++
      added.map fun q => floorSent v a q.seat .queued .mergeTrim) (w.enqueueAll a added) := by
    by_cases hd : (v.profiles.get a).floorMode = .direct
    · rw [hadded, if_pos hd, enqueueAll_nil, List.map_nil, List.append_nil, ← e2]
      exact if_pos (mode.mpr hd)
    · have requeued := foldl_requeueSpeaker a (requeuedSeats g)
        ((trimmed g).map fun e => floorSent v a e.seat .closed .mergeTrim) w
      rw [notes, stamp, pool] at requeued
      rw [hadded, if_neg hd, ← requeued, ← seats, ← e2]
      exact if_neg (mt mode.mp hd)
  have e5 : s5 = sendAll ((trimmed g).map (fun e => floorSent v a e.seat .closed .mergeTrim) ++
      added.map (fun q => floorSent v a q.seat .queued .mergeTrim) ++
      gone.map fun q => floorSent v a q.seat .dequeued .modeDirect)
      (w.drafted a (heldFloor w.clock g added gone) added gone) := by
    have e4 : s4 = sendAll ((trimmed g).map (fun e => floorSent v a e.seat .closed .mergeTrim) ++
        added.map fun q => floorSent v a q.seat .queued .mergeTrim)
        ((w.enqueueAll a added).modFloor a (Floor.capped w.clock)) := by
      simp only [s4, e3, sendAll_clock, modFloor_sendAll]
      rfl
    by_cases hd : (v.profiles.get a).floorMode = .direct
    · have queue : (((w.enqueueAll a added).modFloor a (Floor.capped w.clock)).floors.get a).queue = gone := by
        rw [hgone, hadded, if_pos hd, enqueueAll_nil, State.modFloor_floors, Tab.get_modify_self, floor, dismissed,
          if_pos hd]
        rfl
      have removed : s5 = removeRequests a ((floorOf s4 a).queue.map Request.seat) .modeDirect s4 := if_pos (mode.mpr hd)
      rw [removed, e4, floorOf, sendAll_floors, queue, removeRequests_queue _ _ _ _ _ queue, ← drafted_held w a g added gone floor,
        ← foldl_afterDequeue a gone queue, ← notes]
      rfl
    · have none_gone : gone = [] := by rw [hgone, dismissed, if_neg hd]
      rw [← drafted_held w a g added gone floor, none_gone, dismissAll_nil, List.map_nil, List.append_nil, ← e4]
      exact if_neg (mt mode.mp hd)
  have e6 := turn_eq ((trimmed g).map (fun e => floorSent v a e.seat .closed .mergeTrim) ++
      added.map (fun q => floorSent v a q.seat .queued .mergeTrim) ++
      gone.map fun q => floorSent v a q.seat .dequeued .modeDirect)
      (w.drafted a (heldFloor w.clock g added gone) added gone) a
  rw [← e5] at e6
  have turned_state : (w.drafted a (heldFloor w.clock g added gone) added gone).modFloor a
      (turned (w.drafted a (heldFloor w.clock g added gone) added gone).clock) = w.drafted a f added gone := by
    have floors : (w.floors.set a (heldFloor w.clock g added gone)).modify a (turned w.clock) = w.floors.set a f :=
      Tab.ext_get fun b => by
        by_cases hb : a = b
        · subst hb; rw [Tab.get_modify_self, Tab.get_set_self, Tab.get_set_self, hf, clock]
        · simp only [Tab.get_modify_ne _ _ hb, Tab.get_set_ne _ _ hb]
    exact congrArg (fun x => (w.drafted a f added gone).setFloors x) floors
  have final : s6 = _ := e6
  have floor5 : (w.drafted a (heldFloor w.clock g added gone) added gone).floors.get a = heldFloor v.clock g added gone := by
    rw [clock]
    exact Tab.get_set_self ..
  have held5 : priorityHeld (w.drafted a (heldFloor w.clock g added gone) added gone) a = !f.holders.isEmpty := by
    rw [priorityHeld, floorOf, floor5, hf]
    rfl
  have held6 (l : List Sent) : priorityHeld (sendAll l (w.drafted a f added gone)) a = !f.holders.isEmpty := by
    rw [priorityHeld_sendAll, priorityHeld, floorOf]
    exact congrArg (fun f : Floor => !f.holders.isEmpty) (Tab.get_set_self ..)
  have notes5 : floorSent (w.drafted a (heldFloor w.clock g added gone) added gone) = floorSent v := notes
  have members6 (l : List Sent) : membersOf (sendAll l (w.drafted a f added gone)) = membersOf v := by
    rw [membersOf_sendAll]
    exact members
  have suspendedNotes := heldFloor_notes v.clock g added gone (p := fun e => !e.chairAtGrant && e.state == .opened)
    (fun _ => rfl) fun i => floorSent v a i .suspended .none
  have resumedNotes := heldFloor_notes v.clock g added gone (p := fun e => e.state == .suspended)
    (fun _ => rfl) fun i => floorSent v a i .resumed .none
  rw [final, turned_state, commitPriority_eq, ← sendAll_append, held5, held6, notes5, members6, floor5, suspendedNotes,
    resumedNotes]
  rfl

end

end

end Sys2Proof.Machine
end


section
/-! What auto-advance does to release sets and channels, wherever the release sets stand (R50, R75, R79, R146). -/

namespace Sys2Proof.Machine
open Sys2Proof.Safety

/-- The seats `l` claim their channels on trunk `k` one after another (R50). -/
def claimAll (k : TrunkId) (l : List SeatId) (c : Tab 16 (Option SeatId)) : Tab 16 (Option SeatId) :=
  (l.filter fun i => segmentOf i == k).foldl claimed c

/-- Release entries without those that grants of the seats `l` end (R146). -/
def spared (sets : Sets) (a o : Segment) (l : List SeatId) (r : List Release) : List Release :=
  r.filter fun e => !(l.contains e.seat && sets.roomFor a e.seat == o)

section
variable {sets : Sets} {a : Segment} {s : State}

theorem claimAll_cons (k : TrunkId) (i : SeatId) (l : List SeatId) (c : Tab 16 (Option SeatId)) :
    claimAll k (i :: l) c = claimAll k l (if segmentOf i = k then claimed c i else c) := by
  by_cases hk : segmentOf i = k
  · rw [if_pos hk, claimAll, List.filter_cons, if_pos (beq_iff_eq.mpr hk)]
    rfl
  · rw [if_neg hk, claimAll, List.filter_cons, if_neg (by simpa using hk)]
    rfl

theorem spared_nil (sets : Sets) (a o : Segment) (r : List Release) : spared sets a o [] r = r := by
  simp [spared]

theorem spared_cons (sets : Sets) (a o : Segment) (i : SeatId) (l : List SeatId) (r : List Release) :
    spared sets a o l (if sets.roomFor a i = o then r.filter fun e => e.seat != i else r) = spared sets a o (i :: l) r := by
  have key (e : Release) : (!((i :: l).contains e.seat && sets.roomFor a e.seat == o)) =
      (!(l.contains e.seat && sets.roomFor a e.seat == o) && !(e.seat == i && sets.roomFor a i == o)) := by
    rw [List.contains_cons]
    by_cases he : e.seat = i
    · subst he
      cases l.contains e.seat <;> cases sets.roomFor a e.seat == o <;> simp
    · rw [beq_eq_false_iff_ne.mpr he, Bool.false_or, Bool.false_and, Bool.not_false, Bool.and_true]
  simp only [spared, key]
  split
  · next h => simp [List.filter_filter, h, bne]
  · next h => simp only [beq_eq_false_iff_ne.mpr h, Bool.and_false, Bool.not_false, Bool.and_true]

/-- The first `n` seats of a queue. -/
theorem heads_take {q : Request} {l : List Request} (h : (s.floors.get a).queue = q :: l) (n : Nat) :
    heads s a (n + 1) = q.seat :: (l.take n).map Request.seat := by
  rw [heads, h, List.take_succ_cons, List.map_cons]

theorem advance_sounds (fuel : Nat) (sets : Sets) (a : Segment) (s : State) :
    ∃ m ≤ (s.floors.get a).queue.length,
      ((advance sets fuel a s).floors.get a).queue = (s.floors.get a).queue.drop m ∧
        (∀ o, ((advance sets fuel a s).mixes.get o).release = spared sets a o (heads s a m) (s.mixes.get o).release) ∧
          ∀ k, ((advance sets fuel a s).trunks.get k).channels = claimAll k (heads s a m) (s.trunks.get k).channels := by
  have stay (s : State) : ∃ m ≤ (s.floors.get a).queue.length,
      (s.floors.get a).queue = (s.floors.get a).queue.drop m ∧
        (∀ o, (s.mixes.get o).release = spared sets a o (heads s a m) (s.mixes.get o).release) ∧
          ∀ k, (s.trunks.get k).channels = claimAll k (heads s a m) (s.trunks.get k).channels :=
    ⟨0, Nat.zero_le _, rfl, fun o => (spared_nil ..).symm, fun k => rfl⟩
  induction fuel generalizing s with
  | zero => exact stay s
  | succ fuel ih =>
    unfold advance
    cases hq : (s.floors.get a).queue with
    | nil =>
      rw [floorOf, hq]
      dsimp only
      rw [← hq]
      exact stay s
    | cons q l =>
      rw [floorOf, hq]
      dsimp only
      split
      · obtain ⟨m, hm, queue, releases, channels⟩ := ih (grantSeat sets a q.seat .none false s)
        have queue' : ((grantSeat sets a q.seat .none false s).floors.get a).queue = l := by
          rw [grantSeat_floors, Tab.get_modify_self]
          simp [Floor.joined, Floor.dequeued, hq]
        have heads' : heads (grantSeat sets a q.seat .none false s) a m = (l.take m).map Request.seat := by
          rw [heads, queue']
        have heads_s := heads_take hq m
        rw [queue'] at hm queue
        refine ⟨m + 1, Nat.succ_le_succ hm, by rw [queue]; rfl, fun o => ?_, fun k => ?_⟩
        · rw [releases, heads_s, heads', ← spared_cons, grantSeat_mixes, Tab.get_modify]
          split <;> rfl
        · rw [channels, heads_s, heads', claimAll_cons, grantSeat_trunks, Tab.get_modify]
          split <;> rfl
      · rw [← hq]
        exact stay s

/-! ### The states after grants of heads -/

/-- What grants of heads leave, but for floors, release sets and channels. -/
theorem afterHeads_fields (n : Nat) (hn : n ≤ (s.floors.get a).queue.length) :
    ((afterHeads s a n).floors.get a).queue = (s.floors.get a).queue.drop n ∧
      (afterHeads s a n).poolFree = s.poolFree + n ∧
      (∀ b, a ≠ b → (afterHeads s a n).floors.get b = s.floors.get b) ∧
      (∀ k, ((afterHeads s a n).trunks.get k).refusals = (s.trunks.get k).refusals) ∧
      (∀ k, ((afterHeads s a n).trunks.get k).channels = claimAll k (heads s a n) (s.trunks.get k).channels) ∧
      (∀ o, ((afterHeads s a n).mixes.get o).release = spared .current a o (heads s a n) (s.mixes.get o).release) ∧
      (afterHeads s a n).stampCounter = s.stampCounter ∧ (afterHeads s a n).releaseCounter = s.releaseCounter ∧
      (afterHeads s a n).clock = s.clock ∧ (afterHeads s a n).ports = s.ports := by
  induction n generalizing s with
  | zero =>
    rw [afterHeads_zero]
    exact ⟨rfl, rfl, fun _ _ => rfl, fun _ => rfl, fun _ => rfl, fun o => (spared_nil ..).symm, rfl, rfl, rfl, rfl⟩
  | succ n ih =>
    obtain ⟨q, l, hq⟩ := List.exists_cons_of_length_pos (Nat.lt_of_lt_of_le (Nat.succ_pos n) hn)
    have queue' : ((afterGrant s a q.seat false).floors.get a).queue = l := queue_afterGrant_head hq false
    have queued : ((s.floors.get a).queue.any fun x => x.seat == q.seat) = true := by simp [hq]
    rw [hq] at hn
    obtain ⟨queue, pool, floors, refusals, channels, releases, stamp, release, clock, ports⟩ :=
      ih (s := afterGrant s a q.seat false) (by rw [queue']; exact Nat.le_of_succ_le_succ hn)
    have heads' : heads (afterGrant s a q.seat false) a n = (l.take n).map Request.seat := by rw [heads, queue']
    rw [afterHeads_succ hq, heads_take hq, hq]
    rw [heads'] at channels releases
    refine ⟨by rw [queue, queue']; rfl, ?_, fun b hb => (floors b hb).trans (Tab.get_set_ne _ _ hb), fun k => ?_, fun k => ?_,
      fun o => ?_, stamp, release, clock, ports⟩
    · rw [pool, afterGrant]
      simp only [queued, if_true]
      omega
    · rw [refusals, afterGrant, Tab.get_modify]
      split <;> rfl
    · rw [channels, claimAll_cons, afterGrant, Tab.get_modify]
      split <;> rfl
    · have first : ((afterGrant s a q.seat false).mixes.get o).release =
          if a = o then (s.mixes.get o).release.filter fun e => e.seat != q.seat else (s.mixes.get o).release := by
        rw [afterGrant, Tab.get_modify]
        split <;> rfl
      rw [releases, first, ← spared_cons]
      rfl

end

end Sys2Proof.Machine
end


section
/-! A new room's floor once it is complete (R79, R92 to R95). -/

namespace Sys2Proof.Machine
open Sys2Proof.Safety

/-! ### Auto-advance reads one floor -/

section
variable {s t : State} {a : Segment}

/-- Two halls agree on what auto-advance in the room with anchor `a` reads. -/
structure SameFloor (a : Segment) (s t : State) : Prop where
  floor : t.floors.get a = s.floors.get a
  clock : t.clock = s.clock
  seats : t.seats = s.seats
  profiles : t.profiles = s.profiles

theorem SameFloor.afterGrant (h : SameFloor a s t) (i : SeatId) (byPriority : Bool) :
    SameFloor a (afterGrant s a i byPriority) (afterGrant t a i byPriority) where
  floor := by simp only [Safety.afterGrant, Tab.get_set_self, h.floor, h.clock, h.seats, h.profiles]
  clock := h.clock
  seats := h.seats
  profiles := h.profiles

theorem SameFloor.heads (h : SameFloor a s t) (n : Nat) : heads t a n = heads s a n := by
  rw [Safety.heads, h.floor, Safety.heads]

theorem SameFloor.afterHeads (h : SameFloor a s t) (n : Nat) : SameFloor a (afterHeads s a n) (afterHeads t a n) := by
  have all (l : List SeatId) : ∀ s t, SameFloor a s t →
      SameFloor a (l.foldl (fun x i => Safety.afterGrant x a i false) s) (l.foldl (fun x i => Safety.afterGrant x a i false) t) := by
    induction l with
    | nil => exact fun _ _ h => h
    | cons i l ih => exact fun _ _ h => ih _ _ (h.afterGrant i false)
  rw [Safety.afterHeads, Safety.afterHeads, h.heads]
  exact all _ s t h

theorem SameFloor.advances (h : SameFloor a s t) {steady : Bool} {n : Nat} (hs : advances s a steady n) :
    advances t a steady n := by
  have may (k : Nat) : mayGrant (Safety.afterHeads t a k) a ↔ mayGrant (Safety.afterHeads s a k) a := by
    have := h.afterHeads k
    rw [mayGrant, this.floor, this.profiles, mayGrant]
  obtain ⟨hn, before, stop⟩ := hs
  exact ⟨by rw [h.floor]; exact hn, fun k hk => ⟨(before k hk).1, (may k).mpr (before k hk).2⟩,
    fun ⟨hst, hm⟩ => stop ⟨hst, (may n).mp hm⟩⟩

end

/-! ### The room -/

/-- The state `s` with the pool and the two counters of `v`. -/
def counted (s v : State) : State :=
  { s with poolFree := v.poolFree, stampCounter := v.stampCounter, releaseCounter := v.releaseCounter }

/-- The floor `f` stands in the room with anchor `a`. -/
def State.withFloor (s : State) (a : Segment) (f : Floor) : State :=
  { s with floors := s.floors.set a f }

/-- The floor controller has made the room with anchor `a`, with `n` grants by auto-advance. -/
structure RoomDone (sets : Sets) (s : State) (rp : Repartition) (v w : State) (a : Segment) (n : Nat) : Prop where
  advances : advances ((counted s v).withFloor a (builtFloor (counted s v) rp a)) a (!isDraining v a) n
  floors : w.floors = v.floors.set a
    ((afterHeads ((counted s v).withFloor a (builtFloor (counted s v) rp a)) a n).floors.get a)
  queue : (w.floors.get a).queue.length + n = (builtFloor (counted s v) rp a).queue.length
  poolFree : w.poolFree = v.poolFree - (requeued (counted s v) (gathered s rp a) (s.profiles.get a).floorMode).length +
    (dismissed (gathered s rp a) (s.profiles.get a).floorMode).length + n
  stampCounter : w.stampCounter = v.stampCounter +
    BitVec.ofNat 32 (requeued (counted s v) (gathered s rp a) (s.profiles.get a).floorMode).length
  releaseCounter : w.releaseCounter = v.releaseCounter + BitVec.ofNat 32 (trimmed (gathered s rp a)).length
  refusals : ∀ k, (w.trunks.get k).refusals = Tab.ofFn fun pos => (v.trunks.get k).refusals.get pos ||
    (dismissed (gathered s rp a) (s.profiles.get a).floorMode).any fun q => q.seat == seatAt k pos
  ports : w.ports = delivered s.clock (builtSent (counted s v) rp a ++
    ((builtFloor (counted s v) rp a).queue.take n).map fun q =>
      (component rp.target a, .floor a q.seat .granted .none)) v.ports
  releases : ∀ o, (w.mixes.get o).release = spared sets a o
    (heads ((counted s v).withFloor a (builtFloor (counted s v) rp a)) a n)
    ((trimmedState sets (gathered s rp a) a v).mixes.get o).release
  channels : ∀ k, (w.trunks.get k).channels = claimAll k
    (heads ((counted s v).withFloor a (builtFloor (counted s v) rp a)) a n)
    ((trimmedState sets (gathered s rp a) a v).trunks.get k).channels

section
variable {sets : Sets} {s v : State} {rp : Repartition} {a : Segment} {Z : List Segment}

theorem builtSent_eq (x : State) (hm : membersOf v a = component rp.target a) :
    builtSent x rp a =
      draftSent x v a (gathered x rp a) (requeued x (gathered x rp a) (x.profiles.get a).floorMode)
        (dismissed (gathered x rp a) (x.profiles.get a).floorMode) (!(builtFloor x rp a).holders.isEmpty) := by
  have dequeued (mode : FloorMode) (note : SeatId → Sent) :
      (if mode = .direct then (sortBy requestBefore (gathered x rp a).queue).map fun q => note q.seat else []) =
        (dismissed (gathered x rp a) mode).map fun q => note q.seat := by
    unfold dismissed
    split <;> rfl
  have gone := dequeued (x.profiles.get a).floorMode fun i => (component rp.target a, .floor a i .dequeued .modeDirect)
  simp only [builtSent, draftSent, floorSent, hm, List.map_map, gone]
  rfl

theorem Alike.ports_eq {sound toggles : Prop} {ports : Tab 6 PortRec} {s t : State} (h : Alike sound toggles ports ports s t) :
    t.ports = s.ports := by
  obtain ⟨l, -, hs, ht⟩ := h.heard
  rw [hs, ht]

/-- Auto-advance ends the building of a floor. -/
theorem autoAdvance_done (sets : Sets) (sent : List Sent) (y : State) (a : Segment) :
    ∃ n, advances y a (!isDraining y a) n ∧
      (autoAdvance sets a (sendAll sent y)).floors = (afterHeads y a n).floors ∧
      (autoAdvance sets a (sendAll sent y)).poolFree = (afterHeads y a n).poolFree ∧
      (autoAdvance sets a (sendAll sent y)).stampCounter = y.stampCounter ∧
      (autoAdvance sets a (sendAll sent y)).releaseCounter = y.releaseCounter ∧
      (∀ k, ((autoAdvance sets a (sendAll sent y)).trunks.get k).refusals = (y.trunks.get k).refusals) ∧
      (autoAdvance sets a (sendAll sent y)).ports = delivered y.clock (sent ++ headsSent y a n) y.ports ∧
      (∀ o, ((autoAdvance sets a (sendAll sent y)).mixes.get o).release =
        spared sets a o (heads y a n) (y.mixes.get o).release) ∧
      ∀ k, ((autoAdvance sets a (sendAll sent y)).trunks.get k).channels =
        claimAll k (heads y a n) (y.trunks.get k).channels := by
  have floor : (sendAll sent y).floors = y.floors := sendAll_floors ..
  obtain ⟨n, hn, current⟩ := advance_eq a (y.floors.get a).queue.length y sent le_rfl
  obtain ⟨m, hm, queue, releases, channels⟩ := advance_sounds (y.floors.get a).queue.length sets a (sendAll sent y)
  have same := advance_alike (sets := .current) (sets' := sets) (Alike.refl (sound := False) (toggles := True) (sendAll sent y)) (fun h => h.elim)
    (y.floors.get a).queue.length a
  have unfolded : autoAdvance sets a (sendAll sent y) = advance sets (y.floors.get a).queue.length a (sendAll sent y) := by
    rw [autoAdvance, floorOf, floor]
  rw [unfolded]
  rw [current] at same
  obtain ⟨queue', pool, -, refusals, -, -, stamp, release, clock, ports⟩ := afterHeads_fields n hn.1
  have heads_eq : heads (sendAll sent y) a m = heads y a m := by rw [heads, floor, heads]
  have count : m = n := by
    rw [same.floors, sendAll_floors, queue', floor] at queue
    rw [floor] at hm
    have := congrArg List.length queue
    have := hn.1
    simp only [List.length_drop] at *
    omega
  rw [heads_eq, count] at releases channels
  refine ⟨n, hn, ?_, ?_, ?_, ?_, fun k => ?_, ?_, fun o => ?_, fun k => ?_⟩
  · rw [same.floors, sendAll_floors]
  · rw [same.poolFree, sendAll_poolFree]
  · rw [same.stampCounter, sendAll_stampCounter, stamp]
  · rw [same.releaseCounter, sendAll_releaseCounter, release]
  · rw [same.refusals, sendAll_trunks, refusals]
  · rw [same.ports_eq, sendAll_ports, ports, clock]
  · rw [releases, sendAll_mixes]
  · rw [channels, sendAll_trunks]

/-- The building of the room with anchor `a`, in a commit that has come to it. -/
theorem buildFloor_done (sets : Sets) (hm : membersOf v a = component rp.target a) (hc : v.clock = s.clock)
    (hp : v.profiles = s.profiles) (hs : v.seats = s.seats) (hg : FloorHoused Z (gathered s rp a)) :
    ∃ n, RoomDone sets s rp v (buildFloor sets s rp.affected v a) a n := by
  have gather : gatherFloor s rp.affected (membersOf v a) = gathered s rp a := by rw [hm]; rfl
  obtain ⟨rest, refusals⟩ := trimmedState_eq (sets := sets) (a := a) (v := v) hg
  have draft := buildFloor_draft hg s rp.affected sets v a gather (f := builtFloor (counted s v) rp a)
    (added := requeued (counted s v) (gathered s rp a) (s.profiles.get a).floorMode)
    (gone := dismissed (gathered s rp a) (s.profiles.get a).floorMode) (by rw [requeued_eq, hp]; rfl) (by rw [hp])
    (by rw [builtFloor_eq, hc]; rfl)
  have sent := builtSent_eq (v := v) (counted s v) hm
  generalize hadded : requeued (counted s v) (gathered s rp a) (s.profiles.get a).floorMode = added at draft
  generalize hgone : dismissed (gathered s rp a) (s.profiles.get a).floorMode = gone at draft
  generalize hf : builtFloor (counted s v) rp a = f at draft
  generalize hw : trimmedState sets (gathered s rp a) a v = w at rest refusals draft
  obtain ⟨n, adv, floors, pool, stamp, release, refused, ports, releases, channels⟩ :=
    autoAdvance_done sets (draftSent s v a (gathered s rp a) added gone (!f.holders.isEmpty)) (w.drafted a f added gone) a
  rw [← draft] at floors pool stamp release refused ports releases channels
  have floor : (w.drafted a f added gone).floors.get a = f := Tab.get_set_self ..
  have same : SameFloor a (w.drafted a f added gone) ((counted s v).withFloor a f) := by
    refine ⟨?_, ?_, ?_, ?_⟩
    · rw [floor]; exact Tab.get_set_self ..
    · exact (hc.symm.trans (congrArg State.clock rest).symm :)
    · exact (hs.symm.trans (congrArg State.seats rest).symm :)
    · exact (hp.symm.trans (congrArg State.profiles rest).symm :)
  have draining : isDraining (w.drafted a f added gone) a = isDraining v a := by
    rw [rest]; rfl
  obtain ⟨queue', pool', others, -, -, -, -, -, -, -⟩ := afterHeads_fields n adv.1
  have hn : n ≤ f.queue.length := by rw [← floor]; exact adv.1
  have headsEq := same.heads n
  have notes (i : SeatId) (c : FloorChange) (r : FloorReason) :
      floorSent (w.drafted a f added gone) a i c r = (component rp.target a, .floor a i c r) := by
    have members : membersOf (w.drafted a f added gone) a = membersOf v a := by rw [rest]; rfl
    rw [floorSent, members, hm]
  refine ⟨n, ?_⟩
  exact
    { advances := by
        rw [hf, ← draining]
        exact same.advances adv
      floors := by
        rw [hf, (same.afterHeads n).floor, floors]
        refine Tab.ext_get fun b => ?_
        by_cases hb : a = b
        · subst hb; rw [Tab.get_set_self]
        · rw [others b hb, Tab.get_set_ne _ _ hb, State.drafted, Tab.get_set_ne _ _ hb, rest, Tab.get_set_ne _ _ hb]
      queue := by
        rw [floors, queue', hf, floor, List.length_drop]
        omega
      poolFree := by
        rw [pool, pool', hadded, hgone]
        simp only [State.drafted]
        rw [rest]
      stampCounter := by
        rw [stamp, hadded]
        simp only [State.drafted]
        rw [rest]
      releaseCounter := by
        rw [release]
        simp only [State.drafted]
        rw [rest]
        rfl
      refusals := fun k => by
        rw [refused, hgone, State.drafted, State.markAll]
        dsimp only
        rw [Tab.get_ofFn]
        dsimp only
        rw [refusals]
      ports := by
        have built : builtSent (counted s v) rp a =
            draftSent s v a (gathered s rp a) added gone (!f.holders.isEmpty) := by
          rw [sent, ← hadded, ← hgone, ← hf]
          rfl
        have granted : headsSent (w.drafted a f added gone) a n =
            (f.queue.take n).map fun q => (component rp.target a, .floor a q.seat .granted .none) := by
          simp only [headsSent, heads, floor, notes, List.map_map]
          rfl
        have clock : (w.drafted a f added gone).clock = s.clock := same.clock.symm
        have before : (w.drafted a f added gone).ports = v.ports := by rw [rest]; rfl
        rw [hf, ports, built, granted, clock, before]
      releases := fun o => by
        rw [releases, hf, headsEq, hw]
        rfl
      channels := fun k => by
        rw [channels, hf, headsEq, hw]
        refine congrArg _ ?_
        rw [State.drafted, State.markAll]
        dsimp only
        rw [Tab.get_ofFn] }

end

end Sys2Proof.Machine
end


section
/-! Which release entries and channels the making of a room's floor touches (R50, R51, R146, R149, R160). -/

namespace Sys2Proof.Machine
open Sys2Proof.Safety

/-! ### The entries of some segments -/

/-- Among release entries, those of seats of the segments `Z`. -/
def ofSegments (Z : List Segment) (l : List Release) : List Release :=
  l.filter fun e => Z.contains (segmentOf e.seat)

/-- The release entries under the anchor `o` of seats of the segments `Z`. -/
def partOf (Z : List Segment) (s : State) (o : Segment) : List Release :=
  ofSegments Z (s.mixes.get o).release

/-- With rooms as they are, the release set under `a` is of the segments `Z`. -/
def Homely (sets : Sets) (Z : List Segment) (a : Segment) (s : State) : Prop :=
  sets = .current → ∀ e ∈ (s.mixes.get a).release, segmentOf e.seat ∈ Z

section
variable {Z Y : List Segment} {l : List Release} {e : Release}

theorem mem_ofSegments : e ∈ ofSegments Z l ↔ e ∈ l ∧ segmentOf e.seat ∈ Z := by
  simp [ofSegments]

theorem ofSegments_self (h : ∀ e ∈ l, segmentOf e.seat ∈ Z) : ofSegments Z l = l :=
  List.filter_eq_self.mpr fun e he => by simpa using h e he

theorem ofSegments_other (hY : ∀ g ∈ Y, g ∉ Z) (h : ∀ e ∈ l, segmentOf e.seat ∈ Z) : ofSegments Y l = [] :=
  List.filter_eq_nil_iff.mpr fun e he hy => hY _ (by simpa using hy) (h e he)

theorem ofSegments_append (k : List Release) : ofSegments Z (l ++ k) = ofSegments Z l ++ ofSegments Z k :=
  List.filter_append ..

theorem ofSegments_spared (sets : Sets) (a o : Segment) (seats : List SeatId) :
    ofSegments Z (spared sets a o seats l) = spared sets a o seats (ofSegments Z l) := by
  simp only [ofSegments, spared, List.filter_filter, Bool.and_comm]

end

/-! ### One removal -/

section
variable {sets : Sets} {a o : Segment} {i : SeatId} {gain : Nat} {s : State} {Z Y : List Segment} {k : TrunkId}

theorem removed_mixes (sets : Sets) (a : Segment) (i : SeatId) (gain : Nat) (s : State) :
    (removed sets a i gain s).mixes = s.mixes.modify (sets.roomFor a i) fun m =>
      { m with release := keptReleases sets (membersOf s a) (m.release ++ [newRelease s i gain]) } := by
  rw [removed, addRelease_eq]
  rfl

theorem removed_release (sets : Sets) (a o : Segment) (i : SeatId) (gain : Nat) (s : State) :
    ((removed sets a i gain s).mixes.get o).release =
      if sets.roomFor a i = o then keptReleases sets (membersOf s a) ((s.mixes.get o).release ++ [newRelease s i gain])
      else (s.mixes.get o).release := by
  rw [removed_mixes, Tab.get_modify]
  split <;> rfl

theorem removed_channels (sets : Sets) (a : Segment) (i : SeatId) (gain : Nat) (s : State) (k : TrunkId) :
    ((removed sets a i gain s).trunks.get k).channels =
      freed k (lostSeats sets (membersOf s a) ((s.mixes.get (sets.roomFor a i)).release ++ [newRelease s i gain]))
        (s.trunks.get k).channels := by
  rw [removed, addRelease_eq]
  exact congrArg Trunk.channels (Tab.get_ofFn _ k)

theorem removed_members (sets : Sets) (a : Segment) (i : SeatId) (gain : Nat) (s : State) :
    membersOf (removed sets a i gain s) = membersOf s :=
  membersOf_of_rooms (by rw [removed_eq])

/-- Entries that leave are of the room's segments. -/
theorem lostSeats_within (hm : membersOf s a = Z) (h : Homely sets Z a s) (hi : segmentOf i ∈ Z) {j : SeatId}
    (hj : j ∈ lostSeats sets (membersOf s a) ((s.mixes.get (sets.roomFor a i)).release ++ [newRelease s i gain])) :
    segmentOf j ∈ Z := by
  cases sets with
  | current =>
    obtain ⟨e, he, rfl⟩ := mem_lostSeats _ _ _ hj
    rcases List.mem_append.mp he with he | he
    · exact h rfl e he
    · rw [List.mem_singleton.mp he]
      exact hi
  | before room =>
    obtain ⟨e, he, rfl⟩ := List.mem_map.mp hj
    rw [hm] at he
    simpa using (List.mem_filter.mp (List.mem_of_mem_take he)).2

theorem Homely.removed (h : Homely sets Z a s) (hi : segmentOf i ∈ Z) :
    Homely sets Z a (removed sets a i gain s) := by
  rintro rfl e he
  rw [removed_release] at he
  have kept : e ∈ (s.mixes.get a).release ++ [newRelease s i gain] :=
    (keptReleases_sublist .current (membersOf s a) _).subset (by rwa [if_pos (show Sets.roomFor a i .current = a from rfl)] at he)
  rcases List.mem_append.mp kept with he | he
  · exact h rfl e he
  · rw [List.mem_singleton.mp he]
    exact hi

/-- Entries of segments elsewhere stay. -/
theorem removed_partOf_other (hm : membersOf s a = Z) (h : Homely sets Z a s) (hi : segmentOf i ∈ Z)
    (hY : ∀ g ∈ Y, g ∉ Z) (o : Segment) : partOf Y (removed sets a i gain s) o = partOf Y s o := by
  rw [partOf, removed_release, partOf]
  split
  · next ho =>
    have new : ofSegments Y [newRelease s i gain] = [] := ofSegments_other hY fun e he => by
      rw [List.mem_singleton.mp he]
      exact hi
    cases sets with
    | current =>
      have ha : a = o := ho
      subst ha
      have old : ∀ e ∈ (s.mixes.get a).release, segmentOf e.seat ∈ Z := h rfl
      rw [ofSegments_other hY old, ofSegments_other hY fun e he => ?_]
      rcases List.mem_append.mp ((keptReleases_sublist ..).subset he) with he | he
      · exact old e he
      · rw [List.mem_singleton.mp he]
        exact hi
    | before room =>
      have stay (l : List Release) (hl : ∀ j ∈ lostSeats (.before room) (membersOf s a) l, segmentOf j ∈ Z) :
          ofSegments Y (keptReleases (.before room) (membersOf s a) l) = ofSegments Y l := by
        rw [keptReleases, ofSegments, List.filter_filter]
        refine List.filter_congr fun e _ => ?_
        rw [Bool.and_eq_left_iff_imp]
        intro hy
        have : e.seat ∉ lostSeats (.before room) (membersOf s a) l := fun hl' => hY _ (by simpa using hy) (hl _ hl')
        simpa using this
      have ho' : room (segmentOf i) = o := ho
      subst ho'
      have lost := stay ((s.mixes.get (room (segmentOf i))).release ++ [newRelease s i gain]) fun j hj =>
        lostSeats_within (sets := .before room) hm h hi hj
      rw [lost, ofSegments_append, new, List.append_nil]
  · rfl

theorem freed_other {l : List SeatId} (h : ∀ i ∈ l, segmentOf i ≠ k) (t : Tab 16 (Option SeatId)) : freed k l t = t := by
  refine Tab.ext_get fun c => ?_
  rw [freed, Tab.get_map]
  cases t.get c with
  | none => rfl
  | some i =>
    dsimp only
    rw [if_neg]
    intro hc
    obtain ⟨hi, hk⟩ := Bool.and_eq_true_iff.mp hc
    exact h i (by simpa using hi) (by simpa using hk)

theorem removed_channels_other (hm : membersOf s a = Z) (h : Homely sets Z a s) (hi : segmentOf i ∈ Z) (hk : k ∉ Z) :
    ((removed sets a i gain s).trunks.get k).channels = (s.trunks.get k).channels := by
  rw [removed_channels]
  refine freed_other (fun j hj e => hk ?_) _
  rw [← e]
  exact lostSeats_within hm h hi hj

/-! ### Trims -/

/-- What the removal of entries of the room's segments leaves alone. -/
theorem trimCore_other {l : List Speaker} (hm : membersOf s a = Z) (h : Homely sets Z a s)
    (hl : ∀ e ∈ l, segmentOf e.seat ∈ Z) (hY : ∀ g ∈ Y, g ∉ Z) :
    (∀ o, partOf Y (trimCore sets a l s) o = partOf Y s o) ∧
      ∀ k, k ∉ Z → ((trimCore sets a l s).trunks.get k).channels = (s.trunks.get k).channels := by
  induction l generalizing s with
  | nil => exact ⟨fun _ => rfl, fun _ _ => rfl⟩
  | cons e l ih =>
    have hi := hl e List.mem_cons_self
    obtain ⟨parts, channels⟩ := ih (s := removed sets a e.seat e.gain s)
      ((congrFun (removed_members ..) a).trans hm) (h.removed hi) fun x hx => hl x (List.mem_cons_of_mem e hx)
    exact ⟨fun o => (parts o).trans (removed_partOf_other hm h hi hY o),
      fun k hk => (channels k hk).trans (removed_channels_other hm h hi hk)⟩

end

/-! ### The room that is made -/

section
variable {sets : Sets} {s v w : State} {rp : Repartition} {a : Segment} {n : Nat} {Z Y : List Segment}

theorem builtFloor_within (x : State) (hg : FloorHoused Z (gathered x rp a)) :
    ∀ q ∈ (builtFloor x rp a).queue, segmentOf q.seat ∈ Z := by
  intro q hq
  rw [builtFloor_eq, turned, heldFloor] at hq
  have mem : q ∈ (gathered x rp a).queue ++ requeued x (gathered x rp a) (x.profiles.get a).floorMode := by
    simpa [Floor.capped, capHolders] using List.mem_of_mem_drop hq
  rcases List.mem_append.mp mem with hq | hq
  · exact hg.within.2 q hq
  · rw [requeued_eq] at hq
    split at hq
    · cases hq
    · obtain ⟨⟨i, m⟩, hi, rfl⟩ := List.mem_map.mp hq
      have hi' := List.mem_of_mem_take (List.fst_mem_of_mem_zipIdx hi)
      obtain ⟨e, he, rfl⟩ := List.mem_map.mp hi'
      exact hg.within.1 e (List.mem_filter.mp he).1

theorem headsBuilt_within (hg : FloorHoused Z (gathered s rp a)) (n : Nat) {i : SeatId}
    (hi : i ∈ heads ((counted s v).withFloor a (builtFloor (counted s v) rp a)) a n) : segmentOf i ∈ Z := by
  rw [heads, State.withFloor, Tab.get_set_self] at hi
  obtain ⟨q, hq, rfl⟩ := List.mem_map.mp hi
  exact builtFloor_within (counted s v) hg q (List.mem_of_mem_take hq)

/-- A list of requests of seats of other segments claims nothing. -/
theorem claimAll_other {l : List SeatId} {k : TrunkId} (h : ∀ i ∈ l, segmentOf i ≠ k) (c : Tab 16 (Option SeatId)) :
    claimAll k l c = c := by
  rw [claimAll, List.filter_eq_nil_iff.mpr fun i hi => by simpa using h i hi]
  rfl

theorem spared_other {o : Segment} {l : List SeatId} {r : List Release} (h : ∀ e ∈ r, e.seat ∉ l) :
    spared sets a o l r = r :=
  List.filter_eq_self.mpr fun e he => by simp [h e he]

/-- What the making of a room's floor leaves alone. -/
structure Elsewhere (Z : List Segment) (a : Segment) (v w : State) : Prop where
  floors : ∀ b, a ≠ b → w.floors.get b = v.floors.get b
  refusals : ∀ k, k ∉ Z → (w.trunks.get k).refusals = (v.trunks.get k).refusals
  channels : ∀ k, k ∉ Z → (w.trunks.get k).channels = (v.trunks.get k).channels
  parts : ∀ Y : List Segment, (∀ g ∈ Y, g ∉ Z) → ∀ o, partOf Y w o = partOf Y v o

theorem RoomDone.elsewhere (h : RoomDone sets s rp v w a n) (hm : membersOf v a = Z) (hv : Homely sets Z a v)
    (hg : FloorHoused Z (gathered s rp a)) : Elsewhere Z a v w where
  floors b hb := by rw [h.floors, Tab.get_set_ne _ _ hb]
  refusals k hk := by
    rw [h.refusals]
    refine Tab.ext_get fun pos => ?_
    rw [Tab.get_ofFn, List.any_eq_false.mpr, Bool.or_false]
    intro q hq hs
    have here : segmentOf q.seat ∈ Z := hg.within.2 q (by
      unfold dismissed at hq
      split at hq
      · exact mem_sortBy.mp hq
      · cases hq)
    rw [beq_iff_eq.mp hs, segmentOf_seatAt] at here
    exact hk here
  channels k hk := by
    have trims := (trimCore_other (l := trimmed (gathered s rp a)) (s := v.modFloor a fun _ => gathered s rp a)
      (Y := []) hm hv (fun e he => hg.within.1 e (mem_trimmed he)) nofun).2 k hk
    rw [h.channels, claimAll_other fun i hi e => hk ?_]
    · exact trims
    · rw [← e]
      exact headsBuilt_within hg _ hi
  parts Y hY o := by
    have trims := (trimCore_other (l := trimmed (gathered s rp a)) (s := v.modFloor a fun _ => gathered s rp a)
      hm hv (fun e he => hg.within.1 e (mem_trimmed he)) hY).1 o
    rw [partOf, h.releases, ofSegments_spared, spared_other fun e he hi => ?_]
    · exact trims
    · exact hY _ (mem_ofSegments.mp he).2 (headsBuilt_within hg _ hi)

end

end Sys2Proof.Machine
end


section
/-! The floor controller comes to the new rooms one after another (R92). -/

namespace Sys2Proof.Machine
open Sys2Proof.Safety

/-- The pool, the two counters and what else the floor controller reads as it comes to the new rooms `rest`; the rooms are those
of `u`. -/
structure FloorTurn (sets : Sets) (s : State) (rp : Repartition) (u : State) (rest : List Segment) (v : State) : Prop where
  homedAt : HomedAt sets s rp rest v
  clock : v.clock = s.clock
  profiles : v.profiles = s.profiles
  seats : v.seats = s.seats
  rooms : v.rooms = u.rooms

/-- All of the room with anchor `a` and the segments `Z` is the same. -/
structure Untouched (Z : List Segment) (a : Segment) (v w : State) : Prop where
  floor : w.floors.get a = v.floors.get a
  refusals : ∀ k ∈ Z, (w.trunks.get k).refusals = (v.trunks.get k).refusals
  channels : ∀ k ∈ Z, (w.trunks.get k).channels = (v.trunks.get k).channels
  parts : ∀ o, partOf Z w o = partOf Z v o

theorem Untouched.refl (Z : List Segment) (a : Segment) (v : State) : Untouched Z a v v :=
  ⟨rfl, fun _ _ => rfl, fun _ _ => rfl, fun _ => rfl⟩

theorem Untouched.trans {Z : List Segment} {a : Segment} {u v w : State} (h : Untouched Z a u v) (h' : Untouched Z a v w) :
    Untouched Z a u w where
  floor := h'.floor.trans h.floor
  refusals k hk := (h'.refusals k hk).trans (h.refusals k hk)
  channels k hk := (h'.channels k hk).trans (h.channels k hk)
  parts o := (h'.parts o).trans (h.parts o)

theorem Elsewhere.untouched {Z Y : List Segment} {a b : Segment} {v w : State} (h : Elsewhere Z a v w) (hab : a ≠ b)
    (hY : ∀ g ∈ Y, g ∉ Z) : Untouched Y b v w where
  floor := h.floors b hab
  refusals k hk := h.refusals k (hY k hk)
  channels k hk := h.channels k (hY k hk)
  parts := h.parts Y hY

/-- The notices of the room with anchor `a` at its turn. -/
def turnSent (s t : State) (rp : Repartition) (a : Segment) : List Sent :=
  builtSent (atTurn s t rp a) rp a ++
    ((builtFloor (atTurn s t rp a) rp a).queue.take
      ((builtFloor (atTurn s t rp a) rp a).queue.length - (t.floors.get a).queue.length)).map fun q =>
        (component rp.target a, .floor a q.seat .granted .none)

/-- Once a room is made, the pool and the two counters are as said. -/
theorem RoomDone.counted {sets : Sets} {s v w t : State} {rp : Repartition} {a : Segment} {n : Nat}
    (h : RoomDone sets s rp v w a n) (ht : t.floors.get a = w.floors.get a) :
    Machine.counted s w = roomBuilt t rp (Machine.counted s v) a ∧
      n = (builtFloor (Machine.counted s v) rp a).queue.length - (t.floors.get a).queue.length := by
  have count : n = (builtFloor (Machine.counted s v) rp a).queue.length - (t.floors.get a).queue.length := by
    rw [ht]
    have := h.queue
    omega
  refine ⟨?_, count⟩
  have removed : (dismissed (gathered s rp a) (s.profiles.get a).floorMode).length =
      if (s.profiles.get a).floorMode = .direct then (gathered s rp a).queue.length else 0 := by
    unfold dismissed
    split
    · exact length_sortBy ..
    · rfl
  have pool := h.poolFree
  rw [removed, count] at pool
  rw [Machine.counted, pool, h.stampCounter, h.releaseCounter]
  rfl

section
variable {sets : Sets} {s u v : State} {rp : Repartition} {a b : Segment} {rest : List Segment}
  (hrooms : roomsOk s) (hrp : s.repartition = some rp)
include hrooms hrp

omit hrooms hrp in
theorem members_of_new (ha : a ∈ newRooms s rp.target) (hm : membersOf v = membersOf (rebuilt rp s)) :
    membersOf v a = component rp.target a := by
  rw [hm, membersOf_of_rooms (s := partitioned rp s) (rebuilt_rooms rp s), membersOf]
  have room := rebuiltRooms_new ha
  change (match (rebuiltRooms s rp).get a with | some r => r.members | none => []) = _
  rw [room]

theorem mem_component_new (ha : a ∈ newRooms s rp.target) {g : Segment} :
    g ∈ component rp.target a ↔ anchorIn rp.target g = a := by
  rw [← members_of_new ha rfl, mem_members_rebuilt hrooms hrp]

/-- Different new rooms have no segment in common. -/
theorem component_apart (ha : a ∈ newRooms s rp.target) (hb : b ∈ newRooms s rp.target) (hab : a ≠ b) :
    ∀ g ∈ component rp.target b, g ∉ component rp.target a := fun _ hg hg' =>
  hab (((mem_component_new hrooms hrp ha).mp hg').symm.trans ((mem_component_new hrooms hrp hb).mp hg))

theorem FloorTurn.homely (h : FloorTurn sets s rp u rest v) (ha : a ∈ newRooms s rp.target) :
    Homely sets (component rp.target a) a v := by
  rintro rfl e he
  rw [mem_component_new hrooms hrp ha, ← mem_members_rebuilt hrooms hrp, ← h.homedAt.laid.members,
    h.homedAt.homed.housed.rooms]
  exact h.homedAt.homed.home a e he

/-- The floor controller makes one room. -/
theorem FloorTurn.step (hs : Housed s) (h : FloorTurn sets s rp u (a :: rest) v) (ha : a ∈ newRooms s rp.target)
    (hr : a ∉ rest) :
    FloorTurn sets s rp u rest (buildFloor sets s rp.affected v a) ∧
      (∃ n, RoomDone sets s rp v (buildFloor sets s rp.affected v a) a n) ∧
      Elsewhere (component rp.target a) a v (buildFloor sets s rp.affected v a) := by
  have members := members_of_new ha h.homedAt.laid.members
  have gathers : FloorHoused (component rp.target a) (gathered s rp a) :=
    gatherFloor_housed hs (affected_nodup hrooms hrp) _
  have frame := buildFloor_floorFrame sets s rp.affected a v
  have built : HomedAt sets s rp rest (buildFloor sets s rp.affected v a) :=
    (homed_soundBuild sets s rp hr).buildCondition.build (m := 0) (n := 0) s rp.affected
      (h.homedAt.place hr hs (affected_nodup hrooms hrp))
  obtain ⟨n, done⟩ := buildFloor_done sets members h.clock h.profiles h.seats gathers
  refine ⟨⟨built, frame.clock.trans h.clock, ?_, frame.seats.trans h.seats, frame.rooms.trans h.rooms⟩, ⟨n, done⟩,
    done.elsewhere members (h.homely hrooms hrp ha) gathers⟩
  rw [frame.rest]
  exact h.profiles

/-- The floor controller makes the rooms `l`. -/
theorem FloorTurn.fold (hs : Housed s) {l : List Segment} (hl : ∀ b ∈ l, b ∈ newRooms s rp.target) (hn : (l ++ rest).Nodup)
    (h : FloorTurn sets s rp u (l ++ rest) v) :
    FloorTurn sets s rp u rest (l.foldl (buildFloor sets s rp.affected) v) ∧
      ∀ b ∈ newRooms s rp.target, b ∉ l →
        Untouched (component rp.target b) b v (l.foldl (buildFloor sets s rp.affected) v) := by
  induction l generalizing v with
  | nil => exact ⟨h, fun b _ _ => .refl ..⟩
  | cons a l ih =>
    obtain ⟨ha, hn⟩ := List.nodup_cons.mp hn
    have here := hl a List.mem_cons_self
    obtain ⟨next, -, elsewhere⟩ := h.step hrooms hrp hs here ha
    have later := ih (fun b hb => hl b (List.mem_cons_of_mem a hb)) hn next
    rw [List.foldl_cons]
    refine ⟨later.1, fun b hb hbl => ?_⟩
    obtain ⟨hba, hbl⟩ := not_or.mp (mt List.mem_cons.mpr hbl)
    exact (elsewhere.untouched (Ne.symm hba) (component_apart hrooms hrp here hb (Ne.symm hba))).trans
      (later.2 b hb hbl)

omit hrooms hrp in
/-- The new rooms stand in ascending order. -/
theorem atTurn_eq {pre post : List Segment} (t : State) (h : newRooms s rp.target = pre ++ a :: post) :
    atTurn s t rp a = pre.foldl (roomBuilt t rp) s := by
  have ascending : (newRooms s rp.target).Pairwise (· < ·) :=
    ((List.pairwise_lt_finRange 6).filter _).filter _
  rw [h, List.pairwise_append, List.pairwise_cons] at ascending
  obtain ⟨-, ⟨above, -⟩, below⟩ := ascending
  have none_above : (post.filter fun b => b < a) = [] :=
    List.filter_eq_nil_iff.mpr fun b hb => by simpa using (above b hb).le
  have all_below : (pre.filter fun b => b < a) = pre :=
    List.filter_eq_self.mpr fun b hb => by simpa using below b hb a List.mem_cons_self
  rw [atTurn, h, List.filter_append, all_below, List.filter_cons, if_neg (by simp), none_above, List.append_nil]

/-- The room with anchor `a` at its turn and after it, in a commit that leaves its floor as in `t`. -/
structure TurnTaken (sets : Sets) (s t : State) (rp : Repartition) (u w : State) (a : Segment) (v v' : State) (n : Nat) :
    Prop where
  turn : ∃ rest, FloorTurn sets s rp u (a :: rest) v
  count : counted s v = atTurn s t rp a
  grants : n = (builtFloor (atTurn s t rp a) rp a).queue.length - (t.floors.get a).queue.length
  done : RoomDone sets s rp v v' a n
  before : Untouched (component rp.target a) a u v
  after : Untouched (component rp.target a) a v' w

/-- One of the new rooms among those before and after it. -/
theorem FloorTurn.split (hs : Housed s) (h : FloorTurn sets s rp u (newRooms s rp.target) u) {pre post : List Segment}
    (e : newRooms s rp.target = pre ++ a :: post) :
    FloorTurn sets s rp u (a :: post) (pre.foldl (buildFloor sets s rp.affected) u) ∧
      FloorTurn sets s rp u post ((pre ++ [a]).foldl (buildFloor sets s rp.affected) u) ∧
      (∃ n, RoomDone sets s rp (pre.foldl (buildFloor sets s rp.affected) u)
        ((pre ++ [a]).foldl (buildFloor sets s rp.affected) u) a n) ∧
      Untouched (component rp.target a) a u (pre.foldl (buildFloor sets s rp.affected) u) ∧
      Untouched (component rp.target a) a ((pre ++ [a]).foldl (buildFloor sets s rp.affected) u)
        ((newRooms s rp.target).foldl (buildFloor sets s rp.affected) u) := by
  have nodup := newRooms_nodup s rp.target
  have all : ∀ b ∈ pre ++ a :: post, b ∈ newRooms s rp.target := fun b hb => by rwa [e]
  rw [e] at h nodup
  obtain ⟨-, tail, apart⟩ := List.nodup_append.mp nodup
  obtain ⟨ha, post_nodup⟩ := List.nodup_cons.mp tail
  have here := all a (List.mem_append_right _ List.mem_cons_self)
  have first := h.fold hrooms hrp hs (fun b hb => all b (List.mem_append_left _ hb)) nodup
  obtain ⟨turn, done, -⟩ := first.1.step hrooms hrp hs here ha
  have append : (pre ++ [a]).foldl (buildFloor sets s rp.affected) u =
      buildFloor sets s rp.affected (pre.foldl (buildFloor sets s rp.affected) u) a := by
    rw [List.foldl_append, List.foldl_cons, List.foldl_nil]
  rw [← append] at turn done
  have last := (FloorTurn.fold (rest := []) (l := post) hrooms hrp hs
    (fun b hb => all b (List.mem_append_right _ (List.mem_cons_of_mem a hb))) (by rwa [List.append_nil])
    (by rwa [List.append_nil])).2 a here ha
  rw [← List.foldl_append, List.append_assoc, List.singleton_append, ← e] at last
  exact ⟨first.1, turn, done, first.2 a here fun hp => apart a hp a List.mem_cons_self rfl, last⟩

section
variable {t : State} (hs : Housed s) (h : FloorTurn sets s rp u (newRooms s rp.target) u) (hu : counted s u = s)
  (ht : ∀ a ∈ newRooms s rp.target,
    t.floors.get a = ((newRooms s rp.target).foldl (buildFloor sets s rp.affected) u).floors.get a)
include hs h hu ht

/-- The pool, the counters and the notices once the rooms `pre` are made. -/
theorem FloorTurn.firstRooms {pre post : List Segment} (e : newRooms s rp.target = pre ++ post) :
    counted s (pre.foldl (buildFloor sets s rp.affected) u) = pre.foldl (roomBuilt t rp) s ∧
      (pre.foldl (buildFloor sets s rp.affected) u).ports =
        delivered s.clock (pre.flatMap (turnSent s t rp)) u.ports := by
  induction pre using List.reverseRecOn generalizing post with
  | nil => exact ⟨hu, (delivered_nil ..).symm⟩
  | append_singleton pre a ih =>
    rw [List.append_assoc, List.singleton_append] at e
    have here : a ∈ newRooms s rp.target := by rw [e]; exact List.mem_append_right _ List.mem_cons_self
    obtain ⟨count, ports⟩ := ih e
    obtain ⟨-, -, ⟨n, done⟩, -, last⟩ := h.split hrooms hrp hs e
    obtain ⟨next, grants⟩ := done.counted ((ht a here).trans last.floor)
    refine ⟨?_, ?_⟩
    · rw [next, count, List.foldl_append, List.foldl_cons, List.foldl_nil]
    · rw [done.ports, ports, grants, count, ← delivered_append, List.flatMap_append, List.flatMap_cons, List.flatMap_nil,
        List.append_nil, turnSent, atTurn_eq t e]

/-- The floor controller makes all new rooms. -/
theorem FloorTurn.taken (ha : a ∈ newRooms s rp.target) :
    ∃ v v' n, TurnTaken sets s t rp u ((newRooms s rp.target).foldl (buildFloor sets s rp.affected) u) a v v' n := by
  obtain ⟨pre, post, e⟩ := List.append_of_mem ha
  obtain ⟨count, -⟩ := FloorTurn.firstRooms hrooms hrp hs h hu ht e
  obtain ⟨turn, -, ⟨n, done⟩, before, after⟩ := h.split hrooms hrp hs e
  obtain ⟨-, grants⟩ := done.counted ((ht a ha).trans after.floor)
  rw [count, ← atTurn_eq t e] at grants
  exact ⟨_, _, n, ⟨post, turn⟩, by rw [count, atTurn_eq t e], grants, done, before, after⟩

end

end

end Sys2Proof.Machine
end


section
/-! The course of a commit while no intake queue is replayed (R29). -/

namespace Sys2Proof.Machine
open Sys2Proof.Safety

/-- Between `s` and `t` the floor controller's business is left alone, but that the mix engine takes its share where `mixed`
says so. -/
def Mixed (mixed : Bool) (affected news : List Segment) (s t : State) : Prop :=
  if mixed then ∃ v, Aside s v ∧ Aside (commitMix affected news v) t else Aside s t

section
variable {mixed : Bool} {affected news : List Segment} {s t u : State}

theorem Mixed.start (h : s = t) : Mixed false affected news s t := by
  subst h
  exact .refl s

theorem Mixed.aside (h : Mixed mixed affected news s t) (ha : Aside t u) : Mixed mixed affected news s u := by
  cases mixed with
  | false => exact Aside.trans h ha
  | true =>
    obtain ⟨v, hv, hm⟩ := h
    exact ⟨v, hv, hm.trans ha⟩

theorem Mixed.mix (h : Mixed false affected news s t) : Mixed true affected news s (commitMix affected news t) :=
  ⟨t, h, .refl _⟩

theorem foldl_capRelease_frame (l : List Segment) (s : State) :
    l.foldl (fun s a => capRelease a s) s =
        { s with
          mixes := (l.foldl (fun s a => capRelease a s) s).mixes
          trunks := (l.foldl (fun s a => capRelease a s) s).trunks } ∧
      ∀ k, ((l.foldl (fun s a => capRelease a s) s).trunks.get k).refusals = (s.trunks.get k).refusals := by
  induction l generalizing s with
  | nil => exact ⟨rfl, fun _ => rfl⟩
  | cons a l ih =>
    obtain ⟨rest, refusals⟩ := ih (capRelease a s)
    rw [List.foldl_cons]
    refine ⟨?_, fun k => (refusals k).trans ?_⟩
    · generalize l.foldl (fun s a => capRelease a s) (capRelease a s) = t at rest
      rw [rest, capRelease_eq]
      rfl
    · rw [capRelease_eq, State.freeAll, Tab.get_ofFn]
      rfl

/-- What the mix engine's share leaves alone as well. -/
structure Spared (s t : State) : Prop where
  hushed : Hushed s t
  profiles : t.profiles = s.profiles
  seats : t.seats = s.seats
  members : membersOf t = membersOf s
  floors : t.floors = s.floors
  poolFree : t.poolFree = s.poolFree
  stampCounter : t.stampCounter = s.stampCounter
  releaseCounter : t.releaseCounter = s.releaseCounter
  refusals : ∀ k, (t.trunks.get k).refusals = (s.trunks.get k).refusals

theorem Aside.spared (h : Aside s t) : Spared s t where
  hushed := h.hushed
  profiles := h.profiles
  seats := h.seats
  members := h.members
  floors := h.floors
  poolFree := h.poolFree
  stampCounter := h.stampCounter
  releaseCounter := h.releaseCounter
  refusals := h.refusals

theorem Spared.trans (h : Spared s t) (h' : Spared t u) : Spared s u where
  hushed := h.hushed.trans h'.hushed
  profiles := h'.profiles.trans h.profiles
  seats := h'.seats.trans h.seats
  members := h'.members.trans h.members
  floors := h'.floors.trans h.floors
  poolFree := h'.poolFree.trans h.poolFree
  stampCounter := h'.stampCounter.trans h.stampCounter
  releaseCounter := h'.releaseCounter.trans h.releaseCounter
  refusals k := (h'.refusals k).trans (h.refusals k)

theorem commitMix_spared (affected news : List Segment) (s : State) : Spared s (commitMix affected news s) := by
  obtain ⟨made, refusals⟩ := foldl_capRelease_frame news (mixesPlaced affected news s)
  have rest : WallFrame (mixesMade affected news s) (commitMix affected news s) :=
    .foldl (fun s a => reportReady_wallFrame a s) _ (mixesMade affected news s)
  have counters := commitMix_counters affected news s
  change mixesMade affected news s = _ at made
  refine ⟨commitMix_hushed .., ?_, ?_, commitMix_members .., commitMix_floors .., ?_, counters.2, counters.1, fun k => ?_⟩
  · rw [rest.rest]
    exact (congrArg State.profiles made).trans rfl
  · rw [rest.rest]
    exact (congrArg State.seats made).trans rfl
  · rw [rest.rest]
    exact (congrArg State.poolFree made).trans rfl
  · rw [rest.trunks k]
    exact refusals k

theorem Mixed.spared (h : Mixed mixed affected news s t) : Spared s t := by
  cases mixed with
  | false => exact Aside.spared h
  | true =>
    obtain ⟨v, hv, hm⟩ := h
    exact (hv.spared.trans (commitMix_spared ..)).trans hm.spared

end

section
variable {s : State} {rp : Repartition} (hrooms : roomsOk s) (hrp : s.repartition = some rp)

/-- Where the release sets stand when the floor controller takes its share. -/
def setsAtFloor (s : State) (done : List CommitShare) : Sets :=
  if beforeIn done .mix .floor then .current else .before (roomOf s)

theorem setsAtFloor_append {done : List CommitShare} (h : .floor ∈ done) (l : List CommitShare) :
    setsAtFloor s (done ++ l) = setsAtFloor s done := by
  rw [setsAtFloor, beforeIn_append_of_mem h, setsAtFloor]

/-- A commit of which the shares `done` are taken, none of them of a trunk that holds events: what the floor controller has to do
with it. -/
structure Course (s : State) (rp : Repartition) (done : List CommitShare) (u : State) : Prop where
  before : .floor ∉ done →
    Mixed (done.contains .mix) rp.affected (newRooms s rp.target) (commitPartition rp s) u
  after : .floor ∈ done → ∃ v,
    Mixed (beforeIn done .mix .floor) rp.affected (newRooms s rp.target) (commitPartition rp s) v ∧
      (∀ a, isDraining v a = ((nextRooms s rp).contains a && beforeIn done .startTest .floor)) ∧
      ((∀ k, .trunk k ∈ done → (s.trunks.get k).intake = []) →
        Mixed (done.contains .mix && !beforeIn done .mix .floor) rp.affected (newRooms s rp.target)
          (commitFloors (setsAtFloor s done) s rp.affected (newRooms s rp.target) v) u)

/-- A share that is neither the mix engine's nor the floor controller's. -/
theorem Course.aside {done : List CommitShare} {c : CommitShare} {u v : State} (h : Course s rp done u)
    (hm : c ≠ .mix) (hf : c ≠ .floor)
    (hv : (∀ k, .trunk k ∈ done ++ [c] → (s.trunks.get k).intake = []) ∨ .floor ∉ done → Aside u v) :
    Course s rp (done ++ [c]) v := by
  have mix : (done ++ [c]).contains .mix = done.contains .mix := by simp [Ne.symm hm]
  refine ⟨fun hd => ?_, fun hd => ?_⟩
  · have hd' : CommitShare.floor ∉ done := fun h => hd (List.mem_append_left _ h)
    rw [mix]
    exact (h.before hd').aside (hv (.inr hd'))
  · have hd' : CommitShare.floor ∈ done := by simpa [Ne.symm hf] using hd
    obtain ⟨w, mixed, draining, rest⟩ := h.after hd'
    rw [mix, setsAtFloor_append hd', beforeIn_append_of_mem hd', beforeIn_append_of_mem hd']
    exact ⟨w, mixed, draining, fun quiet =>
      (rest fun k hk => quiet k (List.mem_append_left _ hk)).aside (hv (.inl quiet))⟩

include hrooms hrp

theorem Course.share {done : List CommitShare} {c : CommitShare} {u : State} (hu : Underway s rp done u)
    (h : Course s rp done u) (hc : MayFollow done c) :
    Course s rp (done ++ [c]) (commitShare (setsAfter s done) s rp.affected (newRooms s rp.target) u c) := by
  cases c with
  | booths => exact h.aside nofun nofun fun _ => commitBooths_aside ..
  | taps => exact h.aside nofun nofun fun _ => commitTaps_aside ..
  | startTest => exact h.aside nofun nofun fun _ => startTest_aside ..
  | trunk k =>
    refine h.aside nofun nofun fun quiet => ?_
    rcases quiet with quiet | hf
    · refine commitTrunk_aside _ _ ?_
      rw [hu.progress.intake k (by simpa using hc.fresh)]
      exact quiet k (by simp)
    · exact absurd (hc.afterFloor rfl) hf
  | mix =>
    rw [commitShare]
    have fresh : done.contains .mix = false := by simpa using hc.fresh
    have mix : (done ++ [CommitShare.mix]).contains .mix = true := by simp
    refine ⟨fun hd => ?_, fun hd => ?_⟩
    · have hd' : CommitShare.floor ∉ done := fun h => hd (List.mem_append_left _ h)
      have before := h.before hd'
      rw [fresh] at before
      rw [mix]
      exact before.mix
    · have hd' : CommitShare.floor ∈ done := by simpa using hd
      have later : beforeIn done .mix .floor = false := by
        rw [beforeIn, ← Bool.not_eq_true, List.contains_iff_mem]
        exact fun hmem => hc.fresh ((List.takeWhile_prefix _).subset hmem)
      obtain ⟨w, mixed, draining, rest⟩ := h.after hd'
      rw [mix, setsAtFloor_append hd', beforeIn_append_of_mem hd', beforeIn_append_of_mem hd']
      refine ⟨w, mixed, draining, fun quiet => ?_⟩
      have taken := rest fun k hk => quiet k (List.mem_append_left _ hk)
      rw [fresh, Bool.false_and] at taken
      rw [later, Bool.not_false, Bool.and_true]
      exact taken.mix
  | floor =>
    have mix : (done ++ [CommitShare.floor]).contains .mix = done.contains .mix := by simp
    have sets : setsAtFloor s (done ++ [.floor]) = setsAfter s done := by
      rw [setsAtFloor, beforeIn_append_self hc.fresh, setsAfter]
      simp only [List.contains_iff_mem]
    have draining (a : Segment) : isDraining u a =
        ((nextRooms s rp).contains a && beforeIn (done ++ [.floor]) .startTest .floor) := by
      rw [beforeIn_append_self hc.fresh, hu.progress.isDraining hrooms hrp, drains, startedAt_isSome, Bool.and_comm]
    have mixed := h.before hc.fresh
    rw [← beforeIn_append_self hc.fresh] at mixed
    rw [commitShare, ← sets]
    refine ⟨fun hd => absurd (by simp) hd, fun _ => ⟨u, mixed, draining, fun _ => ?_⟩⟩
    rw [mix, beforeIn_append_self hc.fresh, Bool.and_not_self]
    exact .start rfl

end

end Sys2Proof.Machine
end


section
/-! What a commit that replays no event makes of the new rooms, their queues and notices (R70, R75, R79, R92 to R95, R113). -/

namespace Sys2Proof.Machine
open Sys2Proof.Safety

section
variable {s u v : State} {rp : Repartition} {sets : Sets} {mixed : Bool}

theorem HomedBefore.aside (h : HomedBefore s sets u) (ha : Aside u v) : HomedBefore s sets v where
  floors := ha.floors.trans h.floors
  releases o e he := by
    rw [ha.releases] at he
    rw [homeOf_congr sets ha.members]
    exact h.releases o e he

/-- What a commit's first share leaves alone. -/
theorem commitPartition_business (rp : Repartition) (s : State) :
    Hushed s (commitPartition rp s) ∧ (commitPartition rp s).profiles = s.profiles ∧
      (commitPartition rp s).seats = s.seats ∧ counted s (commitPartition rp s) = s ∧
      (commitPartition rp s).floors = s.floors ∧ (commitPartition rp s).trunks = s.trunks ∧
      (commitPartition rp s).mixes = s.mixes ∧ membersOf (commitPartition rp s) = membersOf (rebuilt rp s) := by
  refine ⟨commitPartition_hushed rp s, ?_⟩
  rw [commitPartition_sends, sendAll_frame]
  rw [rebuilt_frame]
  exact ⟨rfl, rfl, rfl, rfl, rfl, rfl, membersOf_of_rooms (by rw [rebuilt_frame])⟩

section
variable (hrooms : roomsOk s) (hrp : s.repartition = some rp) (hs : Homed .current s)
include hrooms hrp hs

/-- The floor controller's share finds the hall as it was before the commit, but for the mix engine's share. -/
theorem Mixed.homedBefore (h : Mixed mixed rp.affected (newRooms s rp.target) (commitPartition rp s) v) :
    HomedBefore s (if mixed then .current else .before (roomOf s)) v := by
  have start := homedBefore_start hs rp
  obtain ⟨-, -, -, -, -, -, -, members⟩ := commitPartition_business rp s
  cases mixed with
  | false => exact start.aside h
  | true =>
    obtain ⟨w, hw, hv⟩ := h
    exact ((start.aside hw).mixed hrooms hrp (hw.members.trans members)).aside hv

theorem Mixed.floorTurn (h : Mixed mixed rp.affected (newRooms s rp.target) (commitPartition rp s) v) :
    FloorTurn (if mixed then .current else .before (roomOf s)) s rp (clearedFloors rp.affected v) (newRooms s rp.target)
        (clearedFloors rp.affected v) ∧
      counted s (clearedFloors rp.affected v) = s := by
  obtain ⟨hushed, profiles, seats, counts, -, -, -, members⟩ := commitPartition_business rp s
  have spared := h.spared
  refine ⟨⟨(h.homedBefore hrooms hrp hs).cleared hrooms hrp hs.housed (spared.members.trans members),
    spared.hushed.clock.trans hushed.clock, spared.profiles.trans profiles, spared.seats.trans seats, rfl⟩, ?_⟩
  calc counted s (clearedFloors rp.affected v) = counted s v := rfl
    _ = counted s (commitPartition rp s) := by
        rw [counted, spared.poolFree, spared.stampCounter, spared.releaseCounter]
        rfl
    _ = s := counts

end

/-! ### The whole commit -/

section
variable (hrooms : roomsOk s) (hrp : s.repartition = some rp)
include hrooms hrp

theorem commitStep_course (order : List CommitShare) : Course s rp (shareOrder order) (commitStep order rp s) :=
  (takeShares_induction (P := fun done u => Underway s rp done u ∧ Course s rp done u) order
    ⟨underway_start hrooms hrp, fun _ => .start rfl, fun h => absurd h List.not_mem_nil⟩ fun _ _ _ hc ⟨hu, h⟩ =>
      ⟨hu.share hrooms hrp hc, h.share hrooms hrp hu hc⟩).2

/-- The floor controller's share in the course of the commit. -/
theorem commitStep_floorShare (order : List CommitShare) : ∃ v,
    Mixed (isBeforeFloor order .mix) rp.affected (newRooms s rp.target) (commitPartition rp s) v ∧
      (∀ a, isDraining v a = (isDraining (commitStep order rp s) a && isBeforeFloor order .startTest)) ∧
      ((∀ k, (s.trunks.get k).intake = []) →
        Mixed (!isBeforeFloor order .mix) rp.affected (newRooms s rp.target)
          (commitFloors (if isBeforeFloor order .mix then .current else .before (roomOf s)) s rp.affected
            (newRooms s rp.target) v) (commitStep order rp s)) := by
  obtain ⟨v, mixed, draining, rest⟩ := (commitStep_course hrooms hrp order).after (mem_shareOrder order (by decide))
  obtain ⟨progress, -⟩ := underway_commitStep hrooms hrp order
  have mix : (shareOrder order).contains .mix = true := List.contains_iff_mem.mpr (mem_shareOrder order (by decide))
  have started : (shareOrder order).contains .startTest = true :=
    List.contains_iff_mem.mpr (mem_shareOrder order (by decide))
  rw [setsAtFloor, mix, Bool.true_and, ← isBeforeFloor_eq] at rest
  rw [← isBeforeFloor_eq] at mixed
  refine ⟨v, mixed, fun a => ?_, fun quiet => rest fun k _ => quiet k⟩
  rw [draining, progress.isDraining hrooms hrp, drains, startedAt_isSome, started, Bool.true_and, isBeforeFloor_eq]

end

/-- The rooms at their turns in a commit that replays no event: `t` is the state after it, `v` and `w` those before and after the
floor controller's share. -/
structure QuietCommit (order : List CommitShare) (s : State) (rp : Repartition) (t v w : State) : Prop where
  before : Mixed (isBeforeFloor order .mix) rp.affected (newRooms s rp.target) (commitPartition rp s) v
  after : Mixed (!isBeforeFloor order .mix) rp.affected (newRooms s rp.target) w t
  clock : w.clock = s.clock
  count : counted s w = (newRooms s rp.target).foldl (roomBuilt t rp) s
  ports : w.ports = delivered s.clock ((newRooms s rp.target).flatMap (turnSent s t rp)) v.ports
  turns : ∀ a ∈ newRooms s rp.target, ∃ x x' n,
    TurnTaken (if isBeforeFloor order .mix then .current else .before (roomOf s)) s t rp (clearedFloors rp.affected v) w a x x' n
  draining : ∀ a, isDraining v a = (isDraining t a && isBeforeFloor order .startTest)

theorem commitStep_quiet (hrooms : roomsOk s) (hrp : s.repartition = some rp) (hs : Homed .current s)
    (order : List CommitShare) (quiet : ∀ k, (s.trunks.get k).intake = []) :
    ∃ v w, QuietCommit order s rp (commitStep order rp s) v w := by
  obtain ⟨v, mixed, draining, rest⟩ := commitStep_floorShare hrooms hrp order
  have after := rest quiet
  generalize commitStep order rp s = t at draining after
  obtain ⟨turn, counts⟩ := mixed.floorTurn hrooms hrp hs
  have floors := after.spared.floors
  have all (a : Segment) (ha : a ∈ newRooms s rp.target) : t.floors.get a = ((newRooms s rp.target).foldl
      (buildFloor (if isBeforeFloor order .mix then .current else .before (roomOf s)) s rp.affected)
        (clearedFloors rp.affected v)).floors.get a := by
    rw [floors]
    rfl
  obtain ⟨count, ports⟩ := turn.firstRooms hrooms hrp hs.housed counts all (List.append_nil _).symm
  have clock := (commitFloors_floorFrame (if isBeforeFloor order .mix then .current else .before (roomOf s)) s rp.affected
    (newRooms s rp.target) v).clock.trans turn.clock
  exact ⟨v, _, mixed, after, clock, count, ports, fun a ha => turn.taken hrooms hrp hs.housed counts all ha, draining⟩

theorem turnSent_isFloor (s t : State) (rp : Repartition) (a : Segment) {n : Sent} (hn : n ∈ turnSent s t rp a) :
    isFloorNotice n.2 = true := by
  simp only [turnSent, builtSent, List.mem_append, List.mem_map, List.mem_filterMap, List.mem_ite_nil_right] at hn
  rcases hn with ((((⟨_, -, rfl⟩ | ⟨_, -, rfl⟩) | hn) | hn) | ⟨g, -, hn⟩) | ⟨_, -, rfl⟩
  · rfl
  · rfl
  · obtain ⟨-, _, -, rfl⟩ := hn
    rfl
  · split at hn
    · obtain ⟨_, -, rfl⟩ := List.mem_map.mp hn
      rfl
    · obtain ⟨_, -, rfl⟩ := List.mem_map.mp hn
      rfl
  · split at hn
    · cases hn
    · cases hn
      rfl
  · rfl

section
variable {order : List CommitShare} {t w : State} (h : QuietCommit order s rp t v w)
include h

/-- The pool and the counters after a commit that replays no event. -/
theorem QuietCommit.counts :
    t.poolFree = ((newRooms s rp.target).foldl (roomBuilt t rp) s).poolFree ∧
      t.stampCounter = ((newRooms s rp.target).foldl (roomBuilt t rp) s).stampCounter ∧
      t.releaseCounter = ((newRooms s rp.target).foldl (roomBuilt t rp) s).releaseCounter := by
  have spared := h.after.spared
  rw [← h.count]
  exact ⟨spared.poolFree, spared.stampCounter, spared.releaseCounter⟩

/-- The notices of a commit that replays no event. -/
theorem QuietCommit.notices : ∃ l, t.ports = delivered s.clock l s.ports ∧
    l.filter (fun n => isFloorNotice n.2) = (newRooms s rp.target).flatMap (turnSent s t rp) := by
  obtain ⟨partition, -⟩ := commitPartition_business rp s
  obtain ⟨clock₁, l₁, other₁, ports₁⟩ := partition.trans h.before.spared.hushed
  obtain ⟨-, l₂, other₂, ports₂⟩ := h.after.spared.hushed
  have no_floor {l : List Sent} (hl : ∀ n ∈ l, isFloorOrSeat n = false) : l.filter (fun n => isFloorNotice n.2) = [] :=
    List.filter_eq_nil_iff.mpr fun n hn hf => by simpa [isFloorOrSeat, hf] using hl n hn
  refine ⟨l₁ ++ (newRooms s rp.target).flatMap (turnSent s t rp) ++ l₂, ?_, ?_⟩
  · rw [ports₂, h.ports, h.clock, ports₁, delivered_append, delivered_append]
  · rw [List.filter_append, List.filter_append, no_floor other₁, no_floor other₂, List.nil_append, List.append_nil]
    refine List.filter_eq_self.mpr fun n hn => ?_
    obtain ⟨a, -, ha⟩ := List.mem_flatMap.mp hn
    exact turnSent_isFloor s t rp a ha

/-- The floor that a commit completes for the room with anchor `a`, before its grants. -/
def builtState (s t : State) (rp : Repartition) (a : Segment) : State :=
  (atTurn s t rp a).withFloor a (builtFloor (atTurn s t rp a) rp a)

/-- The grants that auto-advance has made in the room with anchor `a`. -/
def grantsAt (s t : State) (rp : Repartition) (a : Segment) : Nat :=
  (builtFloor (atTurn s t rp a) rp a).queue.length - (t.floors.get a).queue.length

/-- A new room's queue after a commit that replays no event (R77, R79, R95, R111). -/
theorem QuietCommit.room {a : Segment} (ha : a ∈ newRooms s rp.target) :
    advances (builtState s t rp a) a (!(isDraining t a && isBeforeFloor order .startTest)) (grantsAt s t rp a) ∧
      t.floors.get a = (afterHeads (builtState s t rp a) a (grantsAt s t rp a)).floors.get a ∧
      ∀ k ∈ component rp.target a, (t.trunks.get k).refusals =
        if (s.profiles.get a).floorMode = .direct then
          Tab.ofFn fun pos =>
            (s.trunks.get k).refusals.get pos || (gathered s rp a).queue.any fun q => q.seat == seatAt k pos
        else (s.trunks.get k).refusals := by
  obtain ⟨x, x', n, taken⟩ := h.turns a ha
  obtain ⟨-, -, -, -, floors, trunks, -, -⟩ := commitPartition_business rp s
  obtain ⟨rest, turn⟩ := taken.turn
  have floors := taken.done.floors
  have advanced := taken.done.advances
  rw [taken.count, taken.grants] at advanced floors
  refine ⟨?_, ?_, fun k hk => ?_⟩
  · rw [← h.draining, show isDraining v a = isDraining x a from (congrFun (isDraining_of_rooms turn.rooms) a).symm]
    exact advanced
  · rw [h.after.spared.floors, taken.after.floor, floors, Tab.get_set_self]
    rfl
  · have before : (x.trunks.get k).refusals = (s.trunks.get k).refusals := by
      rw [taken.before.refusals k hk, show (clearedFloors rp.affected v).trunks = v.trunks from rfl,
        h.before.spared.refusals, trunks]
    rw [h.after.spared.refusals, taken.after.refusals k hk, taken.done.refusals, before]
    unfold dismissed
    split
    · refine congrArg Tab.ofFn (funext fun pos => congrArg _ ?_)
      exact (sortBy_perm ..).any_eq
    · exact Tab.ext_get fun pos => by simp

end

end

end Sys2Proof.Machine
end


section
/-! Release entries of several rooms, each set capped, gathered in order and capped again: the newest six of all (R149, R160). -/

namespace Sys2Proof.Machine
open Sys2Proof.Safety

/-! ### Ordering by a number -/

section
variable {α : Type} (key : α → Nat)

/-- The order by `key`. -/
def keyBefore (x y : α) : Bool :=
  decide (key x < key y)

theorem sortBy_append_singleton (before : α → α → Bool) (l : List α) (x : α) :
    sortBy before (l ++ [x]) = insertBy before x (sortBy before l) := by
  simp [sortBy]

variable {key}

theorem sortBy_keySorted (l : List α) : (sortBy (keyBefore key) l).Pairwise fun x y => key x ≤ key y :=
  sortBy_pairwise (r := fun x y => key x ≤ key y) (fun _ _ h => (of_decide_eq_true h).le) (fun _ _ h => Nat.le_of_not_lt (of_decide_eq_false h))
    (fun _ _ _ => Nat.le_trans) l

theorem insertBy_filter (p : α → Bool) (x : α) {l : List α} (h : l.Pairwise fun x y => key x ≤ key y) :
    (insertBy (keyBefore key) x l).filter p =
      if p x then insertBy (keyBefore key) x (l.filter p) else l.filter p := by
  have front {m : List α} (hm : ∀ y ∈ m, key x < key y) : insertBy (keyBefore key) x m = x :: m := by
    cases m with
    | nil => rfl
    | cons y m => rw [insertBy, if_pos (show keyBefore key x y = true from decide_eq_true (hm y List.mem_cons_self))]
  induction l with
  | nil => rw [insertBy, List.filter_cons, List.filter_nil]; rfl
  | cons y l ih =>
    obtain ⟨above, h⟩ := List.pairwise_cons.mp h
    by_cases hxy : key x < key y
    · have all : ∀ z ∈ y :: l, key x < key z := fun z hz =>
        (List.mem_cons.mp hz).elim (fun e => e ▸ hxy) fun hz => hxy.trans_le (above z hz)
      rw [front all, List.filter_cons, front fun z hz => all z (List.mem_filter.mp hz).1]
    · have step (m : List α) : insertBy (keyBefore key) x (y :: m) = y :: insertBy (keyBefore key) x m := by
        rw [insertBy, if_neg (by simpa [keyBefore] using hxy)]
      rw [step, List.filter_cons, List.filter_cons, ih h]
      split
      · split
        · rw [step]
        · rfl
      · rfl

/-- Ordering commutes with leaving out. -/
theorem sortBy_filter (p : α → Bool) (l : List α) :
    (sortBy (keyBefore key) l).filter p = sortBy (keyBefore key) (l.filter p) := by
  induction l using List.reverseRecOn with
  | nil => rfl
  | append_singleton l x ih =>
    rw [sortBy_append_singleton, insertBy_filter p x (sortBy_keySorted l), List.filter_append, List.filter_cons,
      List.filter_nil]
    split
    · rw [sortBy_append_singleton, ih]
    · rw [List.append_nil, ih]

/-- Elements with numbers of their own stand in one order only. -/
theorem sortBy_eq_of_perm {l m : List α} (hp : l.Perm m) (h : m.Pairwise fun x y => key x < key y) :
    sortBy (keyBefore key) l = m := by
  have keys : (m.map key).Nodup := List.Pairwise.map key (fun _ _ hlt => hlt.ne) h
  refine List.Perm.eq_of_pairwise (le := fun x y => key x ≤ key y) (fun x y hx hy hxy hyx => ?_) (sortBy_keySorted l)
    (h.imp fun hlt => hlt.le) ((sortBy_perm ..).trans hp)
  exact List.inj_on_of_nodup_map keys (hp.mem_iff.mp (mem_sortBy.mp hx)) hy (Nat.le_antisymm hxy hyx)

/-- The elements below a bound come first. -/
theorem keySorted_split {l : List α} (h : l.Pairwise fun x y => key x ≤ key y) (bound : Nat) :
    l = (l.filter fun x => decide (key x < bound)) ++ l.filter fun x => decide (bound ≤ key x) := by
  induction l with
  | nil => rfl
  | cons x l ih =>
    obtain ⟨above, h⟩ := List.pairwise_cons.mp h
    by_cases hx : key x < bound
    · rw [List.filter_cons_of_pos (by simpa using hx), List.filter_cons_of_neg (by simpa using hx), List.cons_append, ← ih h]
    · have none_below : (l.filter fun x => decide (key x < bound)) = [] :=
        List.filter_eq_nil_iff.mpr fun y hy => by
          have := above y hy
          simp only [decide_eq_true_eq]
          omega
      rw [List.filter_cons_of_neg (by simpa using hx), none_below, List.nil_append, List.filter_cons_of_pos (by simpa using hx)]
      congr 1
      refine (List.filter_eq_self.mpr fun y hy => ?_).symm
      have := above y hy
      simp only [decide_eq_true_eq]
      omega

end

/-! ### The newest six -/

section
variable {l m : List Release}

theorem newest_append_oldest (l : List Release) : l.take (l.length - 6) ++ newest l = l :=
  List.take_append_drop ..

theorem newest_of_length {l : List Release} (h : l.length ≤ 6) : newest l = l := by
  rw [newest, show l.length - 6 = 0 by omega, List.drop_zero]

theorem oldest_of_length {l : List Release} (h : l.length ≤ 6) : oldest l = [] := by
  rw [oldest, show l.length - 6 = 0 by omega]
  rfl

/-- The newest six of a list are those of its end, where that is long enough. -/
theorem newest_append (l : List Release) (h : 6 ≤ m.length) : newest (l ++ m) = newest m := by
  rw [newest, List.length_append, List.drop_append, List.drop_eq_nil_of_le (by omega), List.nil_append, newest]
  congr 1
  omega

theorem newest_newest_append (l m : List Release) : newest (newest l ++ m) = newest (l ++ m) := by
  rw [newest, newest, newest, ← List.drop_append_of_le_length (by omega), List.drop_drop]
  congr 1
  simp only [List.length_drop, List.length_append]
  omega

theorem oldest_append (l m : List Release) : oldest (l ++ m) = oldest l ++ oldest (newest l ++ m) := by
  have shared : l.take (l.length - 6) = (l ++ m).take (l.length - 6) :=
    (List.take_append_of_le_length (by omega)).symm
  rw [oldest, oldest, oldest, newest, ← List.drop_append_of_le_length (by omega), ← List.map_append, shared, ← List.take_add]
  congr 2
  simp only [List.length_drop, List.length_append]
  omega

/-- With one entry to a seat, the newest six are those of which the seat does not leave. -/
theorem newest_eq_filter (hl : (l.map Release.seat).Nodup) :
    (l.filter fun e => !(oldest l).contains e.seat) = newest l := by
  have parts := newest_append_oldest l
  have apart : ∀ e ∈ newest l, e.seat ∉ oldest l := fun e he ho => by
    rw [← parts, List.map_append, List.nodup_append] at hl
    exact hl.2.2 _ ho _ (List.mem_map_of_mem he) rfl
  have old : ((l.take (l.length - 6)).filter fun e => !(oldest l).contains e.seat) = [] :=
    List.filter_eq_nil_iff.mpr fun e he => by
      have : e.seat ∈ oldest l := List.mem_map_of_mem he
      simpa using this
  have new : ((newest l).filter fun e => !(oldest l).contains e.seat) = newest l :=
    List.filter_eq_self.mpr fun e he => by simpa using apart e he
  calc (l.filter fun e => !(oldest l).contains e.seat)
      = (l.take (l.length - 6) ++ newest l).filter fun e => !(oldest l).contains e.seat := by rw [parts]
    _ = newest l := by rw [List.filter_append, old, new, List.nil_append]

end

/-! ### Sets of several rooms (R160) -/

/-- The entries `r` of the rooms `os`, and newer ones `F` of these rooms, all with numbers in order. -/
structure Merging (os : List Segment) (room : Release → Segment) (key : Release → Nat) (bound : Nat)
    (r : Segment → List Release) (F : List Release) : Prop where
  rooms : os.Nodup
  home : ∀ o ∈ os, ∀ e ∈ r o, room e = o
  below : ∀ o ∈ os, ∀ e ∈ r o, key e < bound
  sorted : ∀ o ∈ os, (r o).Pairwise fun x y => key x < key y
  homeNew : ∀ e ∈ F, room e ∈ os
  above : ∀ e ∈ F, bound ≤ key e
  sortedNew : F.Pairwise fun x y => key x < key y
  seats : ((os.flatMap r ++ F).map Release.seat).Nodup

/-- The entries of the room `o`, the newer ones last. -/
def grownBy (room : Release → Segment) (r : Segment → List Release) (F : List Release) (o : Segment) : List Release :=
  r o ++ F.filter fun e => room e == o

/-- The seats of which the entries leave their rooms' sets. -/
def goneFrom (os : List Segment) (room : Release → Segment) (r : Segment → List Release) (F : List Release) : List SeatId :=
  os.flatMap fun o => oldest (grownBy room r F o)

section
variable {os : List Segment} {room : Release → Segment} {key : Release → Nat} {bound : Nat} {r : Segment → List Release}
  {F : List Release} (h : Merging os room key bound r F) {o : Segment} {e : Release}
include h

theorem Merging.room_of_grown (ho : o ∈ os) (he : e ∈ grownBy room r F o) : room e = o := by
  rcases List.mem_append.mp he with he | he
  · exact h.home o ho e he
  · simpa using (List.mem_filter.mp he).2

theorem Merging.grown_sorted (ho : o ∈ os) : (grownBy room r F o).Pairwise fun x y => key x < key y :=
  List.pairwise_append.mpr ⟨h.sorted o ho, h.sortedNew.filter _, fun x hx y hy =>
    (h.below o ho x hx).trans_le (h.above y (List.mem_filter.mp hy).1)⟩

theorem Merging.mem_grown : e ∈ os.flatMap (grownBy room r F) ↔ e ∈ os.flatMap r ++ F := by
  simp only [List.mem_flatMap, List.mem_append, grownBy, List.mem_filter, beq_iff_eq]
  constructor
  · rintro ⟨o, ho, he | ⟨he, -⟩⟩
    exacts [.inl ⟨o, ho, he⟩, .inr he]
  · rintro (⟨o, ho, he⟩ | he)
    exacts [⟨o, ho, .inl he⟩, ⟨room e, h.homeNew e he, .inr ⟨he, rfl⟩⟩]

/-- All entries in order: the newer ones last. -/
theorem Merging.sortBy_grown :
    sortBy (keyBefore key) (os.flatMap (grownBy room r F)) = sortBy (keyBefore key) (os.flatMap r) ++ F := by
  have old : ((os.flatMap (grownBy room r F)).filter fun x => decide (key x < bound)) = os.flatMap r := by
    rw [List.filter_flatMap]
    refine List.flatMap_congr fun o ho => ?_
    have none_new : ((F.filter fun e => room e == o).filter fun x => decide (key x < bound)) = [] :=
      List.filter_eq_nil_iff.mpr fun e he => by
        have := h.above e (List.mem_filter.mp he).1
        simp only [decide_eq_true_eq]
        omega
    rw [grownBy, List.filter_append, none_new, List.append_nil]
    exact List.filter_eq_self.mpr fun e he => decide_eq_true (h.below o ho e he)
  have new : ((os.flatMap (grownBy room r F)).filter fun x => decide (bound ≤ key x)).Perm F := by
    rw [List.perm_ext_iff_of_nodup]
    · intro e
      rw [List.mem_filter, h.mem_grown, List.mem_append, decide_eq_true_eq]
      refine ⟨?_, fun he => ⟨.inr he, h.above e he⟩⟩
      rintro ⟨he | he, hb⟩
      · obtain ⟨o, ho, he⟩ := List.mem_flatMap.mp he
        exact absurd (h.below o ho e he) (Nat.not_lt.mpr hb)
      · exact he
    · refine List.Nodup.filter _ (List.nodup_flatMap.mpr ⟨fun o ho => ?_, h.rooms.imp_of_mem fun {a b} ha hb hab e he he' => ?_⟩)
      · exact (h.grown_sorted ho).imp fun hlt e => by subst e; exact hlt.ne rfl
      · exact hab ((h.room_of_grown ha he).symm.trans (h.room_of_grown hb he'))
    · exact h.sortedNew.imp fun hlt e => by subst e; exact hlt.ne rfl
  rw [keySorted_split (sortBy_keySorted (os.flatMap (grownBy room r F))) bound, sortBy_filter, sortBy_filter, old,
    sortBy_eq_of_perm new h.sortedNew]

theorem Merging.seat_inj {x y : Release} (hx : x ∈ os.flatMap (grownBy room r F)) (hy : y ∈ os.flatMap (grownBy room r F))
    (hs : x.seat = y.seat) : x = y :=
  List.inj_on_of_nodup_map h.seats (h.mem_grown.mp hx) (h.mem_grown.mp hy) hs

theorem Merging.gone_iff (ho : o ∈ os) (he : e ∈ grownBy room r F o) :
    e.seat ∈ goneFrom os room r F ↔ e.seat ∈ oldest (grownBy room r F o) := by
  rw [goneFrom, List.mem_flatMap]
  refine ⟨fun ⟨b, hb, hs⟩ => ?_, fun hs => ⟨o, ho, hs⟩⟩
  obtain ⟨x, hx, hxs⟩ := List.mem_map.mp hs
  have hxb := List.mem_of_mem_take hx
  have same := h.seat_inj (List.mem_flatMap.mpr ⟨b, hb, hxb⟩) (List.mem_flatMap.mpr ⟨o, ho, he⟩) hxs
  subst same
  rwa [← (h.room_of_grown hb hxb), h.room_of_grown ho he] at hs

theorem Merging.grown_seats (ho : o ∈ os) : ((grownBy room r F o).map Release.seat).Nodup := by
  have nodup : (grownBy room r F o).Nodup := (h.grown_sorted ho).imp fun hlt e => by subst e; exact hlt.ne rfl
  refine (List.nodup_map_iff_inj_on nodup).mpr fun x hx y hy hs => ?_
  exact h.seat_inj (List.mem_flatMap.mpr ⟨o, ho, hx⟩) (List.mem_flatMap.mpr ⟨o, ho, hy⟩) hs

/-- The newest six of each room, in order. -/
theorem Merging.sortBy_newest :
    sortBy (keyBefore key) (os.flatMap fun o => newest (grownBy room r F o)) =
      (sortBy (keyBefore key) (os.flatMap r) ++ F).filter fun e => !(goneFrom os room r F).contains e.seat := by
  rw [← h.sortBy_grown, sortBy_filter, List.filter_flatMap]
  congr 1
  refine List.flatMap_congr fun o ho => ?_
  rw [← newest_eq_filter (h.grown_seats ho)]
  refine List.filter_congr fun e he => ?_
  rw [Bool.eq_iff_iff]
  simp only [Bool.not_eq_true', ← Bool.not_eq_true, List.contains_iff_mem]
  exact not_congr (h.gone_iff ho he).symm

/-- The newest six of all are among the newest six of their rooms. -/
theorem Merging.newest_not_gone (he : e ∈ newest (sortBy (keyBefore key) (os.flatMap r) ++ F)) :
    e.seat ∉ goneFrom os room r F := by
  intro hg
  rw [← h.sortBy_grown] at he
  generalize hS : sortBy (keyBefore key) (os.flatMap (grownBy room r F)) = S at he
  have sorted : S.Pairwise fun x y => key x ≤ key y := hS ▸ sortBy_keySorted _
  have mem {x : Release} : x ∈ S ↔ x ∈ os.flatMap (grownBy room r F) := hS ▸ mem_sortBy
  obtain ⟨o, ho, heo⟩ := List.mem_flatMap.mp (mem.mp (List.mem_of_mem_drop he))
  obtain ⟨x, hx, hxe⟩ := List.mem_map.mp ((h.gone_iff ho heo).mp hg)
  have same := h.seat_inj (List.mem_flatMap.mpr ⟨o, ho, List.mem_of_mem_take hx⟩) (List.mem_flatMap.mpr ⟨o, ho, heo⟩) hxe
  subst same
  have room_sorted := h.grown_sorted ho
  rw [← newest_append_oldest (grownBy room r F o), List.pairwise_append] at room_sorted
  have later : ∀ y ∈ newest (grownBy room r F o), key x < key y := room_sorted.2.2 x hx
  have six : 6 ≤ (newest (grownBy room r F o)).length := by
    have := List.length_pos_of_mem hx
    rw [List.length_take] at this
    rw [newest, List.length_drop]
    omega
  obtain ⟨pre, post, split⟩ := List.append_of_mem he
  have front := newest_append_oldest S
  rw [split, ← List.append_assoc] at front
  rw [← front, List.pairwise_append] at sorted
  have subset : newest (grownBy room r F o) ⊆ post := fun y hy => by
    have hyS : y ∈ S := mem.mpr (List.mem_flatMap.mpr ⟨o, ho, List.mem_of_mem_drop hy⟩)
    rw [← front] at hyS
    rcases List.mem_append.mp hyS with hyS | hyS
    · exact absurd (later y hy) (Nat.not_lt.mpr (sorted.2.2 y hyS x List.mem_cons_self))
    · rcases List.mem_cons.mp hyS with rfl | hyS
      · exact absurd (later _ hy) (Nat.lt_irrefl _)
      · exact hyS
  have nodup : (newest (grownBy room r F o)).Nodup :=
    room_sorted.2.1.imp fun hlt e => by subst e; exact hlt.ne rfl
  have few := (List.subperm_of_subset nodup subset).length_le
  have total := length_newest S
  rw [split, List.length_append, List.length_cons] at total
  omega

/-- All entries, and what capping room by room leaves of them: the newest six are the same. -/
theorem Merging.capped :
    ∃ T D, sortBy (keyBefore key) (os.flatMap r) ++ F = T ++ D ∧
      sortBy (keyBefore key) (os.flatMap fun o => newest (grownBy room r F o)) =
        (T.filter fun e => !(goneFrom os room r F).contains e.seat) ++ D ∧
      D.length ≤ 6 ∧ (T = [] ∨ D.length = 6) ∧ ∀ e ∈ D, e.seat ∉ goneFrom os room r F := by
  have stay := fun e => h.newest_not_gone (e := e)
  rw [h.sortBy_newest]
  generalize sortBy (keyBefore key) (os.flatMap r) ++ F = S at stay
  have whole : (newest S).filter (fun e => !(goneFrom os room r F).contains e.seat) = newest S :=
    List.filter_eq_self.mpr fun e he => by simpa using stay e he
  refine ⟨S.take (S.length - 6), newest S, (newest_append_oldest S).symm, ?_, length_newest S, ?_, stay⟩
  · conv_lhs => rw [← newest_append_oldest S]
    rw [List.filter_append, whole]
  · rcases Nat.le_total S.length 6 with hl | hl
    · exact .inl (by rw [Nat.sub_eq_zero_of_le hl]; rfl)
    · refine .inr ?_
      rw [newest, List.length_drop]
      omega

/-- Capped room by room and then together, the entries that stay are the newest six of all. -/
theorem Merging.newest_eq :
    newest (sortBy (keyBefore key) (os.flatMap fun o => newest (grownBy room r F o))) =
      newest (sortBy (keyBefore key) (os.flatMap r) ++ F) := by
  obtain ⟨T, D, whole, kept, -, rfl | six, -⟩ := h.capped
  · rw [whole, kept, List.filter_nil]
  · rw [whole, kept, newest_append _ six.ge, newest_append _ six.ge]

/-- So are the seats of those that leave. -/
theorem Merging.oldest_iff {i : SeatId} :
    i ∈ goneFrom os room r F ∨
        i ∈ oldest (sortBy (keyBefore key) (os.flatMap fun o => newest (grownBy room r F o))) ↔
      i ∈ oldest (sortBy (keyBefore key) (os.flatMap r) ++ F) := by
  have mem {e : Release} : e ∈ sortBy (keyBefore key) (os.flatMap r) ++ F ↔ e ∈ os.flatMap (grownBy room r F) := by
    rw [← h.sortBy_grown, mem_sortBy]
  have entry {i : SeatId} (hi : i ∈ goneFrom os room r F) :
      ∃ e ∈ sortBy (keyBefore key) (os.flatMap r) ++ F, e.seat = i := by
    obtain ⟨o, ho, hi⟩ := List.mem_flatMap.mp hi
    obtain ⟨e, he, rfl⟩ := List.mem_map.mp hi
    exact ⟨e, mem.mpr (List.mem_flatMap.mpr ⟨o, ho, List.mem_of_mem_take he⟩), rfl⟩
  obtain ⟨T, D, whole, kept, few, six, stay⟩ := h.capped
  rw [whole] at entry
  rw [whole, kept]
  have left {T : List Release} (six : T = [] ∨ D.length = 6) : oldest (T ++ D) = T.map Release.seat := by
    rcases six with rfl | six
    · exact oldest_of_length few
    · rw [oldest, List.length_append, six, Nat.add_sub_cancel, List.take_left]
  rw [left six, left (six.imp (fun e => by rw [e]; rfl) id)]
  simp only [List.mem_map, List.mem_filter]
  constructor
  · rintro (hi | ⟨e, ⟨he, -⟩, rfl⟩)
    · obtain ⟨e, he, rfl⟩ := entry hi
      exact ⟨e, (List.mem_append.mp he).resolve_right fun hd => stay e hd hi, rfl⟩
    · exact ⟨e, he, rfl⟩
  · rintro ⟨e, he, rfl⟩
    by_cases hg : e.seat ∈ goneFrom os room r F
    · exact .inl hg
    · exact .inr ⟨e, ⟨he, by simpa using hg⟩, rfl⟩

end

end Sys2Proof.Machine
end


section
/-! The release entries that trims leave in a room's part of the release sets (R93, R149, R160). -/

namespace Sys2Proof.Machine
open Sys2Proof.Safety

/-- The release entries of trimmed speakers, with the stamps from `c` on. -/
def fallenFrom (c : Clock) (l : List Speaker) : List Release :=
  l.zipIdx.map fun y => { seat := y.1.seat, gain := y.1.gain, stamp := c + BitVec.ofNat 32 y.2, fresh := true }

theorem fallenFrom_cons (c : Clock) (e : Speaker) (l : List Speaker) :
    fallenFrom c (e :: l) = { seat := e.seat, gain := e.gain, stamp := c, fresh := true } :: fallenFrom (c + 1) l := by
  have shift (n : Nat) : c + 1 + BitVec.ofNat 32 n = c + BitVec.ofNat 32 (n + 1) := by
    rw [BitVec.ofNat_add, add_assoc, add_comm (BitVec.ofNat 32 n)]
    rfl
  simp only [fallenFrom, List.zipIdx_cons', List.map_cons, List.map_map, BitVec.add_zero, shift]
  rfl

theorem fallenFrom_seats (c : Clock) (l : List Speaker) : (fallenFrom c l).map Release.seat = l.map Speaker.seat := by
  rw [fallenFrom, List.map_map]
  conv_rhs => rw [← List.zipIdx_map_fst 0 l, List.map_map]
  rfl

/-- Seats that lose their channels one after another, and at once. -/
theorem freed_freed (k : TrunkId) (l m : List SeatId) (t : Tab 16 (Option SeatId)) :
    freed k m (freed k l t) = freed k (l ++ m) t := by
  simp only [freed_eq_withoutSeats, withoutSeats_comp, List.contains_eq_mem, List.mem_append, Bool.decide_or]

/-- Which seats of a trunk lose their channels matters. -/
theorem freed_congr {k : TrunkId} {l m : List SeatId} (h : ∀ i, segmentOf i = k → (i ∈ l ↔ i ∈ m))
    (t : Tab 16 (Option SeatId)) : freed k l t = freed k m t := by
  refine Tab.ext_get fun c => ?_
  rw [freed, freed, Tab.get_map, Tab.get_map]
  cases t.get c with
  | none => rfl
  | some i =>
    dsimp only
    by_cases hk : segmentOf i = k
    · simp only [List.contains_eq_mem, decide_eq_decide.mpr (h i hk)]
    · simp [hk]

section
variable {sets : Sets} {a o : Segment} {i : SeatId} {gain : Nat} {s : State} {Z : List Segment} {k : TrunkId}

/-- What a removal does to the part of a release set that is of the room's segments. -/
theorem removed_partOf_self (hm : membersOf s a = Z) (h : Homely sets Z a s) (hi : segmentOf i ∈ Z)
    (hn : ((partOf Z s o ++ [newRelease s i gain]).map Release.seat).Nodup) :
    partOf Z (removed sets a i gain s) o =
      if sets.roomFor a i = o then newest (partOf Z s o ++ [newRelease s i gain]) else partOf Z s o := by
  have new : ofSegments Z [newRelease s i gain] = [newRelease s i gain] :=
    ofSegments_self fun e he => by rw [List.mem_singleton.mp he]; exact hi
  have grown : ofSegments Z ((s.mixes.get o).release ++ [newRelease s i gain]) = partOf Z s o ++ [newRelease s i gain] := by
    rw [ofSegments_append, new]
    rfl
  rw [partOf, removed_release]
  split
  · next ho =>
    cases sets with
    | current =>
      have ha : a = o := ho
      subst ha
      have own : ∀ e ∈ (s.mixes.get a).release ++ [newRelease s i gain], segmentOf e.seat ∈ Z := fun e he => by
        rcases List.mem_append.mp he with he | he
        · exact h rfl e he
        · rw [List.mem_singleton.mp he]
          exact hi
      rw [← grown, ofSegments_self own]
      exact ofSegments_self fun e he => own e ((keptReleases_sublist .current (membersOf s a) _).subset he)
    | before room =>
      have lost : lostSeats (.before room) (membersOf s a) ((s.mixes.get o).release ++ [newRelease s i gain]) =
          oldest (partOf Z s o ++ [newRelease s i gain]) := by
        rw [← grown, hm]
        rfl
      have commute (l : List Release) (p : Release → Bool) : ofSegments Z (l.filter p) = (ofSegments Z l).filter p := by
        simp only [ofSegments, List.filter_filter, Bool.and_comm]
      rw [keptReleases, lost, commute, grown, newest_eq_filter hn]
  · rfl

/-- The seats whose entries leave, at such a removal. -/
theorem lostSeats_eq (hm : membersOf s a = Z) (h : Homely sets Z a s) (hi : segmentOf i ∈ Z) :
    lostSeats sets (membersOf s a) ((s.mixes.get (sets.roomFor a i)).release ++ [newRelease s i gain]) =
      oldest (partOf Z s (sets.roomFor a i) ++ [newRelease s i gain]) := by
  have new : ofSegments Z [newRelease s i gain] = [newRelease s i gain] :=
    ofSegments_self fun e he => by rw [List.mem_singleton.mp he]; exact hi
  have grown (o : Segment) :
      ofSegments Z ((s.mixes.get o).release ++ [newRelease s i gain]) = partOf Z s o ++ [newRelease s i gain] := by
    rw [ofSegments_append, new]
    rfl
  cases sets with
  | current =>
    have own : partOf Z s a = (s.mixes.get a).release := ofSegments_self (h rfl)
    rw [show Sets.roomFor a i .current = a from rfl, own]
    rfl
  | before room =>
    rw [← grown, hm]
    rfl

/-- The anchor under which an operation in the room with anchor `a` finds a release entry. -/
def entryRoom (sets : Sets) (a : Segment) (e : Release) : Segment :=
  sets.roomFor a e.seat

/-- The entry `x` joins the entries of its room. -/
def withEntry (room : Release → Segment) (x : Release) (r : Segment → List Release) (o : Segment) : List Release :=
  if room x = o then r o ++ [x] else r o

theorem grownBy_withEntry (room : Release → Segment) (x : Release) (r : Segment → List Release) (F : List Release) :
    grownBy room (withEntry room x r) F = grownBy room r (x :: F) := by
  funext o
  rw [grownBy, grownBy, withEntry, List.filter_cons]
  by_cases ho : room x = o
  · rw [if_pos ho, if_pos (beq_iff_eq.mpr ho), List.append_assoc, List.singleton_append]
  · rw [if_neg ho, if_neg (by simpa using ho)]

theorem mem_oldest_withEntry (room : Release → Segment) (x : Release) (r : Segment → List Release) (i : SeatId) :
    (i ∈ (allSegments.flatMap fun o => oldest (r o)) ++ oldest (newest (r (room x)) ++ [x])) ↔
      i ∈ allSegments.flatMap fun o => oldest (withEntry room x r o) := by
  have own : oldest (withEntry room x r (room x)) = oldest (r (room x)) ++ oldest (newest (r (room x)) ++ [x]) := by
    rw [withEntry, if_pos rfl, oldest_append]
  have other {o : Segment} (ho : room x ≠ o) : withEntry room x r o = r o := if_neg ho
  simp only [List.mem_append, List.mem_flatMap, allSegments, List.mem_finRange, true_and]
  constructor
  · rintro (⟨o, hi⟩ | hi)
    · by_cases ho : room x = o
      · subst ho
        exact ⟨room x, by rw [own]; exact List.mem_append_left _ hi⟩
      · exact ⟨o, by rwa [other ho]⟩
    · exact ⟨room x, by rw [own]; exact List.mem_append_right _ hi⟩
  · rintro ⟨o, hi⟩
    by_cases ho : room x = o
    · subst ho
      rw [own] at hi
      exact (List.mem_append.mp hi).imp (fun hi => ⟨_, hi⟩) id
    · exact .inl ⟨o, by rwa [other ho] at hi⟩

/-- The parts of the release sets, once each has grown by entries of trimmed speakers and is capped; the channels of the
others are free. -/
structure Trimmed (sets : Sets) (Z : List Segment) (a : Segment) (r : Segment → List Release) (F : List Release)
    (channels : TrunkId → Tab 16 (Option SeatId)) (s : State) : Prop where
  parts : ∀ o, partOf Z s o = newest (grownBy (entryRoom sets a) r F o)
  channels : ∀ k ∈ Z, (s.trunks.get k).channels =
    freed k (goneFrom allSegments (entryRoom sets a) r F) (channels k)

/-- Trimmed speakers' entries, one after another. -/
theorem trimCore_trimmed {r : Segment → List Release} {channels : TrunkId → Tab 16 (Option SeatId)} {l : List Speaker}
    (hm : membersOf s a = Z) (h : Homely sets Z a s) (hl : ∀ e ∈ l, segmentOf e.seat ∈ Z)
    (hn : ∀ o, ((r o).map Release.seat ++ l.map Speaker.seat).Nodup)
    (parts : ∀ o, partOf Z s o = newest (r o))
    (free : ∀ k ∈ Z, (s.trunks.get k).channels = freed k (allSegments.flatMap fun o => oldest (r o)) (channels k)) :
    Trimmed sets Z a r (fallenFrom s.releaseCounter l) channels (trimCore sets a l s) := by
  induction l generalizing s r with
  | nil =>
    have same (o : Segment) : grownBy (entryRoom sets a) r [] o = r o := List.append_nil _
    exact ⟨fun o => (parts o).trans (by rw [← same o]; rfl), fun k hk => (free k hk).trans (by
      rw [goneFrom]
      simp only [show fallenFrom s.releaseCounter [] = [] from rfl, same])⟩
  | cons e l ih =>
    have hi := hl e List.mem_cons_self
    have seats (o : Segment) : ((partOf Z s o ++ [newRelease s e.seat e.gain]).map Release.seat).Nodup := by
      rw [parts, List.map_append]
      refine (hn o).sublist (((newest_sublist _).map _).append ?_)
      exact List.singleton_sublist.mpr List.mem_cons_self
    have rest := ih (s := removed sets a e.seat e.gain s) (r := withEntry (entryRoom sets a) (newRelease s e.seat e.gain) r)
      ((congrFun (removed_members ..) a).trans hm) (h.removed hi) (fun x hx => hl x (List.mem_cons_of_mem e hx))
      (fun o => by
        rw [withEntry]
        split
        · rw [List.map_append, List.append_assoc]
          exact hn o
        · exact (hn o).sublist ((List.Sublist.refl _).append (List.sublist_cons_self ..)))
      (fun o => by
        rw [removed_partOf_self hm h hi (seats o), parts, withEntry, newest_newest_append]
        split
        · next ho => rw [if_pos (show entryRoom sets a (newRelease s e.seat e.gain) = o from ho)]
        · next ho => rw [if_neg (show ¬entryRoom sets a (newRelease s e.seat e.gain) = o from ho)])
      (fun k hk => by
        rw [removed_channels, lostSeats_eq hm h hi, parts, free k hk, freed_freed]
        exact freed_congr (fun i _ => mem_oldest_withEntry (entryRoom sets a) (newRelease s e.seat e.gain) r i) _)
    have counter : (removed sets a e.seat e.gain s).releaseCounter = s.releaseCounter + 1 := by rw [removed_eq]
    have grown : grownBy (entryRoom sets a) (withEntry (entryRoom sets a) (newRelease s e.seat e.gain) r)
        (fallenFrom (removed sets a e.seat e.gain s).releaseCounter l) =
          grownBy (entryRoom sets a) r (fallenFrom s.releaseCounter (e :: l)) := by
      rw [grownBy_withEntry, fallenFrom_cons, counter]
      rfl
    refine ⟨fun o => (rest.parts o).trans (by rw [grown]), fun k hk => (rest.channels k hk).trans ?_⟩
    rw [goneFrom, goneFrom, grown]

end

end Sys2Proof.Machine
end


section
/-! The release sets and channels of a new room after a commit that replays no event and trims nobody (R50, R51, R146, R149,
R160). -/

namespace Sys2Proof.Machine
open Sys2Proof.Safety

section
variable {s u v w t x : State} {rp : Repartition} {sets : Sets} {a o : Segment} {rest : List Segment} {k : TrunkId}
  (hrooms : roomsOk s) (hrp : s.repartition = some rp) (ha : a ∈ newRooms s rp.target)

/-! ### The mix engine's share -/

section
variable (hm : membersOf u = membersOf (rebuilt rp s))
include ha hm

/-- The entries that the mix engine gathers for a new room. -/
theorem placedRelease_eq : placedRelease rp.affected (newRooms s rp.target) u a =
    sortBy releaseBefore (rp.affected.flatMap (partOf (component rp.target a) u)) := by
  rw [placedRelease, if_pos ha, members_of_new ha hm, List.filter_flatMap]
  rfl

theorem placedRelease_within {e : Release} (he : e ∈ placedRelease rp.affected (newRooms s rp.target) u a) :
    segmentOf e.seat ∈ component rp.target a := by
  rw [placedRelease_eq ha hm, mem_sortBy] at he
  obtain ⟨o, -, he⟩ := List.mem_flatMap.mp he
  exact (mem_ofSegments.mp he).2

theorem commitMix_partOf :
    partOf (component rp.target a) (commitMix rp.affected (newRooms s rp.target) u) a =
      newest (placedRelease rp.affected (newRooms s rp.target) u a) := by
  rw [partOf, commitMix_release (newRooms_nodup s rp.target), if_pos ha]
  exact ofSegments_self fun e he => placedRelease_within ha hm ((newest_sublist _).subset he)

include hrooms hrp

theorem commitMix_channelsOf (hk : k ∈ component rp.target a) :
    ((commitMix rp.affected (newRooms s rp.target) u).trunks.get k).channels =
      freed k (oldest (placedRelease rp.affected (newRooms s rp.target) u a)) (u.trunks.get k).channels := by
  rw [commitMix_channels (newRooms_nodup s rp.target), ← freed_eq_withoutSeats]
  refine freed_congr (fun i hi => ?_) _
  rw [crowdedOut, List.mem_flatMap]
  refine ⟨fun ⟨b, hb, hib⟩ => ?_, fun hi => ⟨a, ha, hi⟩⟩
  obtain ⟨e, he, rfl⟩ := List.mem_map.mp hib
  have within := placedRelease_within hb hm (List.mem_of_mem_take he)
  rw [hi] at within
  by_cases hab : a = b
  · rwa [hab]
  · exact absurd hk (component_apart hrooms hrp ha hb hab k within)

end

/-! ### Entries at home -/

section
include hrooms hrp ha

/-- With rooms as they are, the release set of a new room is of its segments, and no other is. -/
theorem mem_component_iff_home (hx : Homed .current x) (hm : membersOf x = membersOf (rebuilt rp s)) {e : Release}
    (he : e ∈ (x.mixes.get o).release) : segmentOf e.seat ∈ component rp.target a ↔ o = a := by
  rw [mem_component_new hrooms hrp ha, ← mem_members_rebuilt hrooms hrp, ← hm, hx.housed.rooms]
  rw [show roomOf x (segmentOf e.seat) = o from hx.home o e he]

theorem release_eq_partOf (hx : Homed .current x) (hm : membersOf x = membersOf (rebuilt rp s)) :
    (x.mixes.get a).release = partOf (component rp.target a) x a :=
  (ofSegments_self fun _ he => (mem_component_iff_home hrooms hrp ha hx hm he).mpr rfl).symm

theorem partOf_other (hx : Homed .current x) (hm : membersOf x = membersOf (rebuilt rp s)) (ho : o ≠ a) :
    partOf (component rp.target a) x o = [] :=
  List.filter_eq_nil_iff.mpr fun _ he hz =>
    ho ((mem_component_iff_home hrooms hrp ha hx hm he).mp (by simpa using hz))

omit hrooms hrp in
theorem FloorTurn.roomFor (h : FloorTurn sets s rp u rest v) {e : Release}
    (he : e ∈ partOf (component rp.target a) v o) : sets.roomFor a e.seat = o := by
  obtain ⟨he, hz⟩ := mem_ofSegments.mp he
  rw [h.homedAt.homed.housed.roomFor_eq sets (by rwa [members_of_new ha h.homedAt.laid.members])]
  exact h.homedAt.homed.home o e he

end

/-! ### The room at its turn -/

/-- The entries of which no seat is granted. -/
def ungranted (heads : List SeatId) (l : List Release) : List Release :=
  l.filter fun e => !heads.contains e.seat

theorem spared_eq_ungranted {l : List SeatId} {r : List Release} (h : ∀ e ∈ r, sets.roomFor a e.seat = o) :
    spared sets a o l r = ungranted l r :=
  List.filter_congr fun e he => by rw [beq_iff_eq.mpr (h e he), Bool.and_true]

theorem atTurn_frame (t : State) (rp : Repartition) (a : Segment) :
    (atTurn s t rp a).floors = s.floors ∧ (atTurn s t rp a).trunks = s.trunks ∧ (atTurn s t rp a).mixes = s.mixes ∧
      (atTurn s t rp a).profiles = s.profiles ∧ (atTurn s t rp a).clock = s.clock := by
  unfold atTurn
  induction ((newRooms s rp.target).filter fun b => b < a) using List.reverseRecOn with
  | nil => exact ⟨rfl, rfl, rfl, rfl, rfl⟩
  | append_singleton l b ih =>
    rw [List.foldl_append, List.foldl_cons, List.foldl_nil]
    exact ih

/-- A room that trims nobody. -/
theorem TurnTaken.few {x' : State} {n : Nat} (h : TurnTaken sets s t rp u w a x x' n) (ha : a ∈ newRooms s rp.target)
    (hg : (gathered s rp a).speakers.length ≤ 10) :
    (∀ o, partOf (component rp.target a) w o =
        ungranted (heads (builtState s t rp a) a (grantsAt s t rp a)) (partOf (component rp.target a) u o)) ∧
      ∀ k ∈ component rp.target a, (w.trunks.get k).channels =
        claimAll k (heads (builtState s t rp a) a (grantsAt s t rp a)) (u.trunks.get k).channels := by
  obtain ⟨rest, turn⟩ := h.turn
  have releases := h.done.releases
  have channels := h.done.channels
  rw [h.count, h.grants, trimmedState, trimmed_eq_nil hg] at releases channels
  refine ⟨fun o => ?_, fun k hk => ?_⟩
  · rw [h.after.parts, partOf, releases, ofSegments_spared]
    have own : ∀ e ∈ partOf (component rp.target a) x o, sets.roomFor a e.seat = o := fun e he => turn.roomFor ha he
    rw [← h.before.parts]
    exact spared_eq_ungranted own
  · rw [h.after.channels k hk, channels, ← h.before.channels k hk]
    rfl

end

theorem Aside.partOf {s t : State} (h : Aside s t) (Z : List Segment) : Machine.partOf Z t = Machine.partOf Z s :=
  funext fun o => by rw [Machine.partOf, h.releases, Machine.partOf]

theorem gatheredRelease_eq (s : State) (rp : Repartition) (a : Segment) :
    gatheredRelease s rp a = rp.affected.flatMap (partOf (component rp.target a) s) :=
  List.filter_flatMap

/-! ### The mix engine's share before or after the floor controller's (R160) -/

section
variable {s u v w t : State} {rp : Repartition} {a : Segment}

theorem commitPartition_partOf (h : Aside (commitPartition rp s) u) (Z : List Segment) :
    partOf Z u = partOf Z s ∧ (∀ k, (u.trunks.get k).channels = (s.trunks.get k).channels) ∧
      membersOf u = membersOf (rebuilt rp s) := by
  obtain ⟨-, -, -, -, -, trunks, mixes, members⟩ := commitPartition_business rp s
  refine ⟨funext fun o => ?_, fun k => ?_, h.members.trans members⟩
  · rw [partOf, h.releases, mixes, partOf]
  · rw [h.channels, trunks]

variable (hrooms : roomsOk s) (hrp : s.repartition = some rp) (ha : a ∈ newRooms s rp.target)
include hrooms hrp ha

theorem Mixed.first (h : Mixed true rp.affected (newRooms s rp.target) (commitPartition rp s) v) :
    partOf (component rp.target a) v a = newest (sortBy releaseBefore (gatheredRelease s rp a)) ∧
      ∀ k ∈ component rp.target a, (v.trunks.get k).channels =
        freed k (oldest (sortBy releaseBefore (gatheredRelease s rp a))) (s.trunks.get k).channels := by
  obtain ⟨u, before, after⟩ := h
  obtain ⟨parts, channels, members⟩ := commitPartition_partOf before (component rp.target a)
  have placed := placedRelease_eq ha members
  rw [parts, ← gatheredRelease_eq] at placed
  refine ⟨?_, fun k hk => ?_⟩
  · rw [after.partOf, commitMix_partOf ha members, placed]
  · rw [after.channels, commitMix_channelsOf hrooms hrp ha members hk, placed, channels]

theorem Mixed.last (h : Mixed true rp.affected (newRooms s rp.target) w t) (hm : membersOf w = membersOf (rebuilt rp s)) :
    partOf (component rp.target a) t a =
        newest (sortBy releaseBefore (rp.affected.flatMap (partOf (component rp.target a) w))) ∧
      ∀ k ∈ component rp.target a, (t.trunks.get k).channels =
        freed k (oldest (sortBy releaseBefore (rp.affected.flatMap (partOf (component rp.target a) w))))
          (w.trunks.get k).channels := by
  obtain ⟨u, before, after⟩ := h
  have members := before.members.trans hm
  have placed := placedRelease_eq ha members
  rw [before.partOf] at placed
  refine ⟨?_, fun k hk => ?_⟩
  · rw [after.partOf, commitMix_partOf ha members, placed]
  · rw [after.channels, commitMix_channelsOf hrooms hrp ha members hk, placed, before.channels]

end

/-! ### After the commit -/

section
variable {s v w t : State} {rp : Repartition} {order : List CommitShare} {a : Segment}
  (h : QuietCommit order s rp t v w) (hrooms : roomsOk s) (hrp : s.repartition = some rp)
  (hm : membersOf t = membersOf (rebuilt rp s)) (ht : Homed .current t) (ha : a ∈ newRooms s rp.target)
include h hrooms hrp hm ht ha

/-- Nobody is trimmed, and the mix engine's share comes first. -/
theorem QuietCommit.few_mixFirst (hg : (gathered s rp a).speakers.length ≤ 10) (hmix : isBeforeFloor order .mix = true) :
    (t.mixes.get a).release = ungranted (heads (builtState s t rp a) a (grantsAt s t rp a))
        (newest (sortBy releaseBefore (gatheredRelease s rp a))) ∧
      ∀ k ∈ component rp.target a, (t.trunks.get k).channels =
        claimAll k (heads (builtState s t rp a) a (grantsAt s t rp a))
          (freed k (oldest (sortBy releaseBefore (gatheredRelease s rp a))) (s.trunks.get k).channels) := by
  obtain ⟨x, x', n, taken⟩ := h.turns a ha
  have before := h.before
  have after := h.after
  rw [hmix] at before after
  obtain ⟨parts, channels⟩ := Mixed.first hrooms hrp ha before
  obtain ⟨parts', channels'⟩ := taken.few ha hg
  have rest : Aside w t := after
  refine ⟨?_, fun k hk => ?_⟩
  · rw [release_eq_partOf hrooms hrp ha ht hm, rest.partOf, parts', ← parts]
    rfl
  · rw [rest.channels, channels' k hk, ← channels k hk]
    rfl

/-- Nobody is trimmed, and the mix engine's share comes last. -/
theorem QuietCommit.few_mixLast (hg : (gathered s rp a).speakers.length ≤ 10)
    (hmix : isBeforeFloor order .mix = false) :
    (t.mixes.get a).release = newest (sortBy releaseBefore
        (ungranted (heads (builtState s t rp a) a (grantsAt s t rp a)) (gatheredRelease s rp a))) ∧
      ∀ k ∈ component rp.target a, (t.trunks.get k).channels =
        freed k (oldest (sortBy releaseBefore
            (ungranted (heads (builtState s t rp a) a (grantsAt s t rp a)) (gatheredRelease s rp a))))
          (claimAll k (heads (builtState s t rp a) a (grantsAt s t rp a)) (s.trunks.get k).channels) := by
  obtain ⟨x, x', n, taken⟩ := h.turns a ha
  have before := h.before
  have after := h.after
  rw [hmix] at before after
  obtain ⟨parts, channels, -⟩ := commitPartition_partOf before (component rp.target a)
  obtain ⟨parts', channels'⟩ := taken.few ha hg
  obtain ⟨last, freedLast⟩ := Mixed.last hrooms hrp ha after (h.after.spared.members.symm.trans hm)
  have gather : rp.affected.flatMap (partOf (component rp.target a) w) =
      ungranted (heads (builtState s t rp a) a (grantsAt s t rp a)) (gatheredRelease s rp a) := by
    rw [gatheredRelease_eq, ungranted, List.filter_flatMap]
    refine List.flatMap_congr fun o _ => ?_
    rw [parts', ← parts]
    rfl
  rw [gather] at last freedLast
  refine ⟨by rw [release_eq_partOf hrooms hrp ha ht hm, last], fun k hk => ?_⟩
  rw [freedLast k hk, channels' k hk, ← channels]
  rfl

end

end Sys2Proof.Machine
end


section
/-! The release sets and channels of a new room after a commit that replays no event and trims speakers (R93, R149, R160). -/

namespace Sys2Proof.Machine
open Sys2Proof.Safety

/-! ### A full speaker list (R79, R93) -/

section
variable {s t : State} {rp : Repartition} {a : Segment} {Z : List Segment}

/-- Ten speaker entries are left of more. -/
theorem builtFloor_full (x : State) (hg : FloorHoused Z (gathered x rp a)) (hmany : 10 < (gathered x rp a).speakers.length) :
    (builtFloor x rp a).speakers.length = 10 := by
  have gone : ((gathered x rp a).speakers.filter fun e =>
      ((trimmed (gathered x rp a)).map Speaker.seat).contains e.seat).length = (gathered x rp a).speakers.length - 10 := by
    rw [← trimmed_length]
    have perm : ((gathered x rp a).speakers.filter fun e =>
        ((trimmed (gathered x rp a)).map Speaker.seat).contains e.seat).Perm (trimmed (gathered x rp a)) := by
      rw [List.perm_ext_iff_of_nodup (hg.speakers.of_map.filter _) (trimmed_seats_nodup hg.speakers).of_map]
      intro e
      rw [List.mem_filter, List.contains_iff_mem]
      refine ⟨fun ⟨he, hs⟩ => ?_, fun he => ⟨mem_trimmed he, List.mem_map_of_mem he⟩⟩
      obtain ⟨y, hy, hye⟩ := List.mem_map.mp hs
      rwa [← List.inj_on_of_nodup_map hg.speakers (mem_trimmed hy) he hye]
    exact perm.length_eq
  have all := List.length_eq_length_filter_add (l := (gathered x rp a).speakers) fun e =>
    ((trimmed (gathered x rp a)).map Speaker.seat).contains e.seat
  rw [gone] at all
  have stay : (builtFloor x rp a).speakers.length = ((gathered x rp a).speakers.filter fun e =>
      !((trimmed (gathered x rp a)).map Speaker.seat).contains e.seat).length := List.length_map ..
  rw [stay]
  omega

/-- Auto-advance grants nothing where the list is full. -/
theorem advances_full {x : State} {steady : Bool} {n : Nat} (h : advances x a steady n)
    (hfull : (x.floors.get a).speakers.length = 10) : n = 0 := by
  obtain ⟨-, before, -⟩ := h
  by_contra hn
  obtain ⟨-, -, -, -, room, -⟩ := before 0 (Nat.pos_of_ne_zero hn)
  rw [afterHeads_zero, hfull] at room
  exact Nat.lt_irrefl _ room

end

/-! ### The stamps of trimmed speakers (R148) -/

section
variable {b c : Clock} {l : List Speaker}

theorem fallenFrom_keys (h : after b c + l.length < 4294967296) :
    (fallenFrom c l).Pairwise (fun x y => after b x.stamp < after b y.stamp) ∧
      ∀ e ∈ fallenFrom c l, after b c ≤ after b e.stamp ∧ after b e.stamp < after b c + l.length := by
  induction l generalizing c with
  | nil => exact ⟨.nil, nofun⟩
  | cons x l ih =>
    rw [List.length_cons] at h
    have next := after_succ (b := b) (c := c) (by omega)
    obtain ⟨sorted, bounds⟩ := ih (c := c + 1) (by omega)
    rw [fallenFrom_cons, List.length_cons]
    refine ⟨List.pairwise_cons.mpr ⟨fun e he => ?_, sorted⟩, fun e he => ?_⟩
    · have := bounds e he
      dsimp only
      omega
    · rcases List.mem_cons.mp he with rfl | he
      · dsimp only
        omega
      · have := bounds e he
        omega

theorem after_add {n : Nat} (h : after b c + n < 4294967296) : after b (c + BitVec.ofNat 32 n) = after b c + n := by
  induction n with
  | zero => simp
  | succ n ih =>
    have step : c + BitVec.ofNat 32 (n + 1) = c + BitVec.ofNat 32 n + 1 := by
      rw [BitVec.ofNat_add, add_assoc]
      rfl
    rw [step, after_succ (by rw [ih (by omega)]; omega), ih (by omega)]
    omega

end

section
variable {s t : State} {rp : Repartition} {a : Segment}

theorem foldl_roomBuilt_releaseCounter (t : State) (rp : Repartition) (l : List Segment) (x : State) :
    (l.foldl (roomBuilt t rp) x).releaseCounter =
      x.releaseCounter + BitVec.ofNat 32 (l.map fun b => (trimmed (gathered x rp b)).length).sum := by
  induction l generalizing x with
  | nil => simp
  | cons b l ih =>
    rw [List.foldl_cons, ih, List.map_cons, List.sum_cons, BitVec.ofNat_add, ← add_assoc]
    rfl

/-- The release counter as a commit comes to a room: sixty stamps may be taken in all. -/
theorem atTurn_releaseCounter (hrooms : roomsOk s) (hrp : s.repartition = some rp) (t : State)
    (hc : ∀ a, (s.floors.get a).speakers.length ≤ Config.speakerCap) (ha : a ∈ newRooms s rp.target) :
    ∃ m, (atTurn s t rp a).releaseCounter = s.releaseCounter + BitVec.ofNat 32 m ∧
      m + (trimmed (gathered s rp a)).length ≤ 60 := by
  obtain ⟨pre, post, e⟩ := List.append_of_mem ha
  refine ⟨(pre.map fun b => (trimmed (gathered s rp b)).length).sum, by
    rw [atTurn_eq t e, foldl_roomBuilt_releaseCounter], ?_⟩
  have members (b : Segment) (hb : b ∈ newRooms s rp.target) : gathered s rp b =
      gatherFloor s rp.affected (membersOf (rebuilt rp s) b) := by
    rw [members_of_new hb rfl]
    rfl
  have each (b : Segment) (hb : b ∈ newRooms s rp.target) : (trimmed (gathered s rp b)).length ≤
      (gatherFloor s rp.affected (membersOf (rebuilt rp s) b)).speakers.length := by
    rw [trimmed_length, members b hb]
    exact Nat.sub_le ..
  have total : ((newRooms s rp.target).map fun b => (trimmed (gathered s rp b)).length).sum ≤ 60 :=
    (List.sum_le_sum each).trans (gatheredCount_le_sixty hrooms hrp rfl hc)
  rw [e, List.map_append, List.sum_append, List.map_cons, List.sum_cons] at total
  omega

end

end Sys2Proof.Machine
end


section
/-! The newest six entries of a new room that trims speakers, in either order of the mix engine's and the floor controller's
shares (R93, R149, R160; log entry 4). -/

namespace Sys2Proof.Machine
open Sys2Proof.Safety

section
variable {s u w t x x' : State} {rp : Repartition} {sets : Sets} {a : Segment} {n : Nat} {r : Segment → List Release}
  {channels : TrunkId → Tab 16 (Option SeatId)}

/-- The entries of the speakers trimmed in a room, as its turn comes. -/
def fallenAt (s t : State) (rp : Repartition) (a : Segment) : List Release :=
  fallenFrom (atTurn s t rp a).releaseCounter (trimmed (gathered s rp a))

/-- A room whose list is full after its trims. -/
theorem TurnTaken.many (h : TurnTaken sets s t rp u w a x x' n) (hrooms : roomsOk s) (hrp : s.repartition = some rp)
    (ha : a ∈ newRooms s rp.target) (hg : FloorHoused (component rp.target a) (gathered s rp a)) (hzero : n = 0)
    (hn : ∀ o, ((r o).map Release.seat ++ (trimmed (gathered s rp a)).map Speaker.seat).Nodup)
    (parts : ∀ o, partOf (component rp.target a) u o = newest (r o))
    (free : ∀ k ∈ component rp.target a, (u.trunks.get k).channels =
      freed k (allSegments.flatMap fun o => oldest (r o)) (channels k)) :
    Trimmed sets (component rp.target a) a r (fallenAt s t rp a) channels w := by
  obtain ⟨rest, turn⟩ := h.turn
  have members := members_of_new ha turn.homedAt.laid.members
  have counter : x.releaseCounter = (atTurn s t rp a).releaseCounter := by
    rw [← h.count]
    rfl
  have trims := trimCore_trimmed (sets := sets) (s := x.modFloor a fun _ => gathered s rp a) (l := trimmed (gathered s rp a))
    members (fun hc e he => turn.homely hrooms hrp ha hc e he) (fun e he => hg.within.1 e (mem_trimmed he)) hn
    (fun o => (h.before.parts o).trans (parts o)) fun k hk => (h.before.channels k hk).trans (free k hk)
  have made := h.done.releases
  have madeChannels := h.done.channels
  subst hzero
  refine ⟨fun o => ?_, fun k hk => ?_⟩
  · rw [h.after.parts, partOf, made, heads, List.take_zero, List.map_nil, spared_nil, fallenAt, ← counter]
    exact trims.parts o
  · rw [h.after.channels k hk, madeChannels, heads, List.take_zero, List.map_nil, fallenAt, ← counter]
    exact trims.channels k hk

end

section
variable {s t : State} {rp : Repartition} {a o : Segment} (hrooms : roomsOk s) (hrp : s.repartition = some rp)
  (hs : Homed .current s) (ha : a ∈ newRooms s rp.target)

section
include hrooms hrp ha

/-- The segments of a new room were in affected rooms. -/
theorem affected_of_component {i : SeatId} (hi : segmentOf i ∈ component rp.target a) :
    roomOf s (segmentOf i) ∈ rp.affected := by
  rw [← nextRoom_mem_news hrooms hrp, nextRoom, (mem_component_new hrooms hrp ha).mp hi]
  exact ha

include hs

theorem partOf_unaffected (ho : o ∉ rp.affected) : partOf (component rp.target a) s o = [] :=
  List.filter_eq_nil_iff.mpr fun e he hz => ho (by
    rw [← show roomOf s (segmentOf e.seat) = o from hs.home o e he]
    exact affected_of_component hrooms hrp ha (by simpa using hz))

omit ha in
/-- No seat has two entries among the release entries gathered for a room and those of the speakers it trims. -/
theorem gathered_fallen_nodup (hok : releasesOk s rp.affected) :
    ((gatheredRelease s rp a).map Release.seat ++ (trimmed (gathered s rp a)).map Speaker.seat).Nodup := by
  obtain ⟨releases, speakers, apart⟩ := List.nodup_append.mp hok.1
  have trims := trimmed_seats_nodup
    (gatherFloor_housed hs.housed (affected_nodup hrooms hrp) (component rp.target a)).speakers
  refine List.nodup_append.mpr ⟨releases.sublist (List.filter_sublist.map _), trims, fun i hi j hj => ?_⟩
  refine apart i ((List.filter_sublist.map _).subset hi) j ?_
  obtain ⟨e, he, rfl⟩ := List.mem_map.mp hj
  have gathers : e ∈ (rp.affected.map fun b => s.floors.get b).flatMap Floor.speakers :=
    (List.mem_filter.mp (mem_sortBy.mp (mem_trimmed he))).1
  obtain ⟨f, hf, hef⟩ := List.mem_flatMap.mp gathers
  obtain ⟨b, hb, rfl⟩ := List.mem_map.mp hf
  exact List.mem_map_of_mem (List.mem_flatMap.mpr ⟨b, hb, hef⟩)

/-- The entries gathered and those of trimmed speakers, by the rooms before the commit. -/
theorem merging_of_ok (hb : floorsBounded s) (hok : releasesOk s rp.affected) (t : State) :
    Merging rp.affected (entryRoom (.before (roomOf s)) a) (fun e => after (s.releaseCounter - 1073741824) e.stamp) 1073741824
        (partOf (component rp.target a) s) (fallenAt s t rp a) ∧
      ∀ e ∈ fallenAt s t rp a, after (s.releaseCounter - 1073741824) e.stamp < 2147483648 := by
  have counter : after (s.releaseCounter - 1073741824) s.releaseCounter = 1073741824 := by
    rw [after, sub_sub_cancel]
    rfl
  obtain ⟨m, turn, few⟩ := atTurn_releaseCounter hrooms hrp t (fun b => (hb b).1) ha
  have turn_after : after (s.releaseCounter - 1073741824) (atTurn s t rp a).releaseCounter = 1073741824 + m := by
    rw [turn, after_add (by rw [counter]; omega), counter]
  obtain ⟨sorted, bounds⟩ := fallenFrom_keys (b := s.releaseCounter - 1073741824) (c := (atTurn s t rp a).releaseCounter)
    (l := trimmed (gathered s rp a)) (by rw [turn_after]; omega)
  rw [turn_after] at bounds
  have window {o : Segment} (ho : o ∈ rp.affected) {e : Release} (he : e ∈ (s.mixes.get o).release) :
      after (s.releaseCounter - 1073741824) e.stamp < 1073741824 := by
    obtain ⟨young, old⟩ := (hok.2 o ho).2 e he
    unfold age at young old
    unfold after
    bv_omega
  refine ⟨?_, fun e he => by have := bounds e he; omega⟩
  exact
    { rooms := affected_nodup hrooms hrp
      home := fun o _ e he => hs.home o e (mem_ofSegments.mp he).1
      below := fun o ho e he => window ho (mem_ofSegments.mp he).1
      sorted := fun o ho => by
        refine List.Pairwise.filter _ ((hok.2 o ho).1.imp_of_mem fun {x y} hx hy hlt => ?_)
        have hx' := window ho hx
        have hy' := window ho hy
        rw [stampEarlier_eq_after (b := s.releaseCounter - 1073741824) (by omega) (by omega)] at hlt
        exact of_decide_eq_true hlt
      homeNew := fun e he => by
        have seat : e.seat ∈ (fallenAt s t rp a).map Release.seat := List.mem_map_of_mem he
        rw [fallenAt, fallenFrom_seats] at seat
        obtain ⟨y, hy, hye⟩ := List.mem_map.mp seat
        refine affected_of_component hrooms hrp ha (i := e.seat) ?_
        rw [← hye]
        exact (gatherFloor_housed hs.housed (affected_nodup hrooms hrp) (component rp.target a)).within.1 y (mem_trimmed hy)
      above := fun e he => by have := bounds e he; omega
      sortedNew := sorted
      seats := by
        rw [List.map_append, fallenAt, fallenFrom_seats, ← gatheredRelease_eq]
        exact gathered_fallen_nodup hrooms hrp hs hok }

end

end

/-! ### The sets of one room only -/

/-- The entries `l` under the anchor `a`. -/
def onlyAt (a : Segment) (l : List Release) (o : Segment) : List Release :=
  if o = a then l else []

theorem mem_oldest_onlyAt {a : Segment} {l : List Release} {i : SeatId} :
    (i ∈ allSegments.flatMap fun o => oldest (onlyAt a l o)) ↔ i ∈ oldest l := by
  simp only [List.mem_flatMap, allSegments, List.mem_finRange, true_and]
  refine ⟨fun ⟨o, hi⟩ => ?_, fun hi => ⟨a, by rwa [onlyAt, if_pos rfl]⟩⟩
  by_cases ho : o = a
  · rwa [onlyAt, if_pos ho] at hi
  · rw [onlyAt, if_neg ho] at hi
    cases hi

/-- With rooms as they are, entries join the set of the operation's room. -/
theorem grownBy_onlyAt (a : Segment) (l F : List Release) :
    grownBy (entryRoom .current a) (onlyAt a l) F = onlyAt a (l ++ F) := by
  funext o
  rw [grownBy, onlyAt, onlyAt]
  by_cases ho : o = a
  · have all : (F.filter fun e => entryRoom .current a e == o) = F :=
      List.filter_eq_self.mpr fun _ _ => beq_iff_eq.mpr ho.symm
    rw [if_pos ho, if_pos ho, all]
  · have none_here : (F.filter fun e => entryRoom .current a e == o) = [] :=
      List.filter_eq_nil_iff.mpr fun _ _ hb => ho (beq_iff_eq.mp hb).symm
    rw [if_neg ho, if_neg ho, none_here, List.append_nil]

/-! ### After the commit -/

section
variable {s v w t : State} {rp : Repartition} {order : List CommitShare} {a : Segment}
  (h : QuietCommit order s rp t v w) (hrooms : roomsOk s) (hrp : s.repartition = some rp) (hs : Homed .current s)
  (hm : membersOf t = membersOf (rebuilt rp s)) (ht : Homed .current t) (ha : a ∈ newRooms s rp.target)
  (hmany : 10 < (gathered s rp a).speakers.length)

theorem TurnTaken.full {sets : Sets} {u x x' : State} {n : Nat} (taken : TurnTaken sets s t rp u w a x x' n)
    (hg : FloorHoused (component rp.target a) (gathered s rp a)) (hmany : 10 < (gathered s rp a).speakers.length) :
    n = 0 :=
  advances_full taken.done.advances (by
    rw [State.withFloor, Tab.get_set_self]
    exact builtFloor_full (counted s x) hg hmany)

include h hrooms hrp hs ha hmany

/-- A room that trims speakers grants nobody. -/
theorem QuietCommit.many_floor :
    grantsAt s t rp a = 0 ∧ t.floors.get a = builtFloor (atTurn s t rp a) rp a ∧
      (t.floors.get a).speakers.length = 10 := by
  have hg : FloorHoused (component rp.target a) (gathered s rp a) :=
    gatherFloor_housed hs.housed (affected_nodup hrooms hrp) _
  obtain ⟨x, x', n, taken⟩ := h.turns a ha
  have zero : grantsAt s t rp a = 0 := taken.grants.symm.trans (taken.full hg hmany)
  obtain ⟨-, floor, -⟩ := h.room ha
  rw [zero, afterHeads_zero, builtState, State.withFloor, Tab.get_set_self] at floor
  refine ⟨zero, floor, ?_⟩
  rw [floor, ← taken.count]
  exact builtFloor_full (counted s x) hg hmany

variable (hb : floorsBounded s) (hok : releasesOk s rp.affected)
include hm ht hok

theorem QuietCommit.many_mixFirst (hmix : isBeforeFloor order .mix = true) :
    (t.mixes.get a).release = newest (sortBy releaseBefore (gatheredRelease s rp a) ++ fallenAt s t rp a) ∧
      ∀ k ∈ component rp.target a, (t.trunks.get k).channels =
        freed k (oldest (sortBy releaseBefore (gatheredRelease s rp a) ++ fallenAt s t rp a)) (s.trunks.get k).channels := by
  have hg : FloorHoused (component rp.target a) (gathered s rp a) :=
    gatherFloor_housed hs.housed (affected_nodup hrooms hrp) _
  obtain ⟨x, x', n, taken⟩ := h.turns a ha
  have before := h.before
  have after := h.after
  rw [hmix] at before after
  rw [hmix, if_pos rfl] at taken
  obtain ⟨parts, channels⟩ := Mixed.first hrooms hrp ha before
  obtain ⟨rest, turn⟩ := taken.turn
  have nodup := gathered_fallen_nodup (a := a) hrooms hrp hs hok
  generalize hE : sortBy releaseBefore (gatheredRelease s rp a) = E at parts channels
  have seats : (E.map Release.seat).Perm ((gatheredRelease s rp a).map Release.seat) := hE ▸ (sortBy_perm ..).map _
  have made := taken.many (r := onlyAt a E) (channels := fun k => (s.trunks.get k).channels) hrooms hrp ha hg
    (taken.full hg hmany)
    (fun o => by
      rw [onlyAt]
      split
      · exact (seats.append_right _).nodup_iff.mpr nodup
      · exact (List.nodup_append.mp nodup).2.1)
    (fun o => by
      rw [onlyAt]
      split
      · next ho => exact ho ▸ parts
      · next ho =>
        rw [← taken.before.parts]
        exact partOf_other hrooms hrp ha turn.homedAt.homed turn.homedAt.laid.members ho)
    (fun k hk => (channels k hk).trans (freed_congr (fun i _ => mem_oldest_onlyAt.symm) _))
  have rest : Aside w t := after
  refine ⟨?_, fun k hk => ?_⟩
  · rw [release_eq_partOf hrooms hrp ha ht hm, rest.partOf, made.parts, grownBy_onlyAt, onlyAt, if_pos rfl]
  · rw [rest.channels, made.channels k hk, goneFrom, grownBy_onlyAt]
    exact freed_congr (fun i _ => mem_oldest_onlyAt) _

include hb

theorem QuietCommit.many_mixLast (hmix : isBeforeFloor order .mix = false) :
    (t.mixes.get a).release = newest (sortBy releaseBefore (gatheredRelease s rp a) ++ fallenAt s t rp a) ∧
      ∀ k ∈ component rp.target a, (t.trunks.get k).channels =
        freed k (oldest (sortBy releaseBefore (gatheredRelease s rp a) ++ fallenAt s t rp a)) (s.trunks.get k).channels := by
  have hg : FloorHoused (component rp.target a) (gathered s rp a) :=
    gatherFloor_housed hs.housed (affected_nodup hrooms hrp) _
  obtain ⟨x, x', n, taken⟩ := h.turns a ha
  have before := h.before
  have mixed := h.after
  rw [hmix] at before mixed
  rw [hmix, if_neg nofun] at taken
  obtain ⟨parts, channels, -⟩ := commitPartition_partOf before (component rp.target a)
  obtain ⟨last, freedLast⟩ := Mixed.last hrooms hrp ha mixed (h.after.spared.members.symm.trans hm)
  obtain ⟨merging, window⟩ := merging_of_ok hrooms hrp hs ha hb hok t
  have nodup := gathered_fallen_nodup (a := a) hrooms hrp hs hok
  have six (o : Segment) : (partOf (component rp.target a) s o).length ≤ 6 :=
    (List.length_filter_le ..).trans (hb o).2.2
  have made := taken.many (r := partOf (component rp.target a) s) (channels := fun k => (s.trunks.get k).channels) hrooms hrp
    ha hg (taken.full hg hmany)
    (fun o => by
      by_cases ho : o ∈ rp.affected
      · refine nodup.sublist ((List.Sublist.map _ ?_).append (.refl _))
        rw [gatheredRelease_eq, List.flatMap_def]
        exact List.sublist_flatten_of_mem (List.mem_map_of_mem ho)
      · rw [partOf_unaffected hrooms hrp hs ha ho]
        exact (List.nodup_append.mp nodup).2.1)
    (fun o => (congrFun parts o).trans (newest_of_length (six o)).symm)
    (fun k _ => (channels k).trans (by
      simp only [oldest_of_length (six _)]
      rw [List.flatMap_eq_nil_iff.mpr fun _ _ => rfl, freed_nil]))
  have gather : rp.affected.flatMap (partOf (component rp.target a) w) =
      rp.affected.flatMap fun o => newest (grownBy (entryRoom (.before (roomOf s)) a) (partOf (component rp.target a) s)
        (fallenAt s t rp a) o) := List.flatMap_congr fun o _ => made.parts o
  have gone (i : SeatId) : i ∈ goneFrom allSegments (entryRoom (.before (roomOf s)) a) (partOf (component rp.target a) s)
        (fallenAt s t rp a) ↔
      i ∈ goneFrom rp.affected (entryRoom (.before (roomOf s)) a) (partOf (component rp.target a) s) (fallenAt s t rp a) := by
    rw [goneFrom, goneFrom, List.mem_flatMap, List.mem_flatMap]
    refine ⟨fun ⟨o, _, hi⟩ => ?_, fun ⟨o, _, hi⟩ => ⟨o, List.mem_finRange o, hi⟩⟩
    by_cases ho : o ∈ rp.affected
    · exact ⟨o, ho, hi⟩
    · have none_here : ((fallenAt s t rp a).filter fun e => entryRoom (.before (roomOf s)) a e == o) = [] :=
        List.filter_eq_nil_iff.mpr fun e he hb => ho (beq_iff_eq.mp hb ▸ merging.homeNew e he)
      rw [grownBy, partOf_unaffected hrooms hrp hs ha ho, none_here] at hi
      cases hi
  have sortOf (l : List Release) (hl : ∀ e ∈ l, Machine.after (s.releaseCounter - 1073741824) e.stamp < 2147483648) :
      sortBy releaseBefore l = sortBy (keyBefore fun e => Machine.after (s.releaseCounter - 1073741824) e.stamp) l :=
    sortBy_congr fun x hx y hy => stampEarlier_eq_after (hl x hx) (hl y hy)
  have old (e : Release) (he : e ∈ rp.affected.flatMap (partOf (component rp.target a) s)) :
      Machine.after (s.releaseCounter - 1073741824) e.stamp < 2147483648 := by
    obtain ⟨o, ho, he⟩ := List.mem_flatMap.mp he
    exact (merging.below o ho e he).trans (by decide)
  have all (e : Release) (he : e ∈ rp.affected.flatMap (partOf (component rp.target a) w)) :
      Machine.after (s.releaseCounter - 1073741824) e.stamp < 2147483648 := by
    rw [gather] at he
    obtain ⟨o, ho, he⟩ := List.mem_flatMap.mp he
    rcases List.mem_append.mp ((newest_sublist _).subset he) with he | he
    · exact (merging.below o ho e he).trans (by decide)
    · exact window e (List.mem_filter.mp he).1
  rw [gatheredRelease_eq, sortOf _ old]
  rw [sortOf _ all, gather] at last freedLast
  refine ⟨?_, fun k hk => ?_⟩
  · rw [release_eq_partOf hrooms hrp ha ht hm, last, merging.newest_eq]
  · rw [freedLast k hk, made.channels k hk, freed_freed]
    refine freed_congr (fun i _ => ?_) _
    rw [List.mem_append, gone]
    exact merging.oldest_iff

end

end Sys2Proof.Machine
end


section
/-! Held TALK events that a commit replays in a CHAIR room (R57, R72). -/

namespace Sys2Proof.Machine
open Sys2Proof.Safety

/-- Trunk `k` stops holding, with its intake queue empty. -/
def unheld (k : TrunkId) (s : State) : State :=
  s.modTrunk k fun r => { r with holding := false, intake := [] }

/-- A trunk of an affected room that replays its queue (R57). -/
theorem commitTrunk_replays {sets : Sets} {segments : List Segment} {k : TrunkId} {s : State} (hk : k ∈ segments)
    (hd : isDraining s (roomOf s k) = false) :
    commitTrunk sets segments k s =
      (s.trunks.get k).intake.foldl (fun s e => seatEvent sets e.seat e.kind s) (unheld k s) := by
  unfold commitTrunk
  rw [List.contains_iff_mem.mpr hk, hd]
  rfl

theorem trunk_mem_shareOrder (order : List CommitShare) (k : TrunkId) : .trunk k ∈ shareOrder order :=
  mem_shareOrder order (by revert k; decide)

/-- The requests of seats whose TALK events are replayed, with the stamps from `c` on. -/
def requestedBy (c : Clock) (events : List HeldEvent) : List Request :=
  events.zipIdx.map fun x => { seat := x.1.seat, stamp := c + BitVec.ofNat 32 x.2, returned := false }

theorem requestedBy_cons (c : Clock) (e : HeldEvent) (events : List HeldEvent) :
    requestedBy c (e :: events) = { seat := e.seat, stamp := c, returned := false } :: requestedBy (c + 1) events := by
  have shift (n : Nat) : c + 1 + BitVec.ofNat 32 n = c + BitVec.ofNat 32 (n + 1) := by
    rw [BitVec.ofNat_add, add_assoc, add_comm (BitVec.ofNat 32 n)]
    rfl
  simp only [requestedBy, List.zipIdx_cons', List.map_cons, List.map_map, BitVec.add_zero, shift]
  rfl

section
variable {sets : Sets} {s x : State} {a : Segment} {f : Floor}

/-- A seat that may ask for a place in the CHAIR room with anchor `a` and floor `f`. -/
structure MayAsk (s : State) (a : Segment) (f : Floor) (i : SeatId) : Prop where
  room : seatRoom s i = a
  online : (s.seats.get i).online = true
  enabled : (s.seats.get i).enabled = true
  chair : (s.seats.get i).chair = false
  silent : hasSpeaker f i = false
  fresh : hasRequest f i = false

/-- A TALK event in a CHAIR room makes a request. -/
theorem seatEvent_asks {i : SeatId} (h : MayAsk s a (s.floors.get a) i) (hm : (s.profiles.get a).floorMode = .chair)
    (hroom : (s.floors.get a).queue.length < (s.profiles.get a).requestCap) (hpool : 0 < s.poolFree) :
    seatEvent sets i .talk s = sendAll [floorSent s a i .queued .bySeat] (afterEnqueue s a i) := by
  have mode : talkByMode sets a i s = talkEnqueue a i s := by rw [talkByMode, profileOf, hm]
  simp only [seatEvent, h.online, h.enabled, h.room, talk, floorOf, h.silent, h.fresh, h.chair, mode, talkEnqueue_eq,
    if_pos (And.intro hroom hpool)]
  rfl

/-- TALK events of different seats in a CHAIR room, one after another. -/
theorem foldl_talk (events : List HeldEvent) (hf : s.floors.get a = f) (hm : (s.profiles.get a).floorMode = .chair)
    (hroom : f.queue.length + events.length ≤ (s.profiles.get a).requestCap) (hpool : events.length ≤ s.poolFree)
    (hn : (events.map HeldEvent.seat).Nodup) (hask : ∀ e ∈ events, e.kind = .talk ∧ MayAsk s a f e.seat) :
    (events.foldl (fun s e => seatEvent sets e.seat e.kind s) s).floors.get a =
        { f with queue := f.queue ++ requestedBy s.stampCounter events } ∧
      (events.foldl (fun s e => seatEvent sets e.seat e.kind s) s).poolFree = s.poolFree - events.length := by
  induction events generalizing s f with
  | nil => exact ⟨by rw [List.foldl_nil, hf]; simp [requestedBy], rfl⟩
  | cons e events ih =>
    obtain ⟨he, hn⟩ := List.nodup_cons.mp hn
    obtain ⟨kind, ask⟩ := hask e List.mem_cons_self
    rw [List.length_cons] at hroom hpool
    subst hf
    have first : seatEvent sets e.seat e.kind s = sendAll [floorSent s a e.seat .queued .bySeat] (afterEnqueue s a e.seat) := by
      rw [kind]
      exact seatEvent_asks ask hm (by omega) (by omega)
    rw [List.foldl_cons, first]
    have next := ih (s := sendAll [floorSent s a e.seat .queued .bySeat] (afterEnqueue s a e.seat))
      (f := { s.floors.get a with
        queue := (s.floors.get a).queue ++ [{ seat := e.seat, stamp := s.stampCounter, returned := false }] })
      (by rw [sendAll_floors, afterEnqueue]; exact Tab.get_modify_self ..)
      (by rw [sendAll_profiles]; exact hm)
      (by rw [sendAll_profiles, List.length_append]; simp only [List.length_singleton]; exact le_trans (by omega) hroom)
      (by rw [sendAll_poolFree]; exact Nat.le_sub_one_of_lt hpool) hn
      (fun y hy => by
        obtain ⟨kind, asks⟩ := hask y (List.mem_cons_of_mem e hy)
        refine ⟨kind, ?_⟩
        have other : e.seat ≠ y.seat := fun h => he (h ▸ List.mem_map_of_mem hy)
        have seats : (sendAll [floorSent s a e.seat .queued .bySeat] (afterEnqueue s a e.seat)).seats = s.seats := by
          rw [sendAll_frame]
          rfl
        have rooms : seatRoom (sendAll [floorSent s a e.seat .queued .bySeat] (afterEnqueue s a e.seat)) y.seat =
            seatRoom s y.seat := by
          rw [sendAll_frame]
          rfl
        refine ⟨rooms.trans asks.room, by rw [seats]; exact asks.online, by rw [seats]; exact asks.enabled,
          by rw [seats]; exact asks.chair, asks.silent, ?_⟩
        have fresh := hasRequest_eq_false.mp asks.fresh
        refine hasRequest_eq_false.mpr fun q hq => ?_
        rcases List.mem_append.mp hq with hq | hq
        · exact fresh q hq
        · rw [List.mem_singleton.mp hq]
          exact other)
    rw [requestedBy_cons]
    refine ⟨next.1.trans ?_, next.2.trans ?_⟩
    · rw [sendAll_stampCounter, List.append_assoc]
      rfl
    · rw [sendAll_poolFree, List.length_cons]
      have : (afterEnqueue s a e.seat).poolFree = s.poolFree - 1 := rfl
      omega

end

/-! ### A commit of one CHAIR room (R57, R72, R92) -/

section
variable {s v : State} {rp : Repartition} {sets : Sets} {a : Segment} {mixed : Bool} (hrooms : roomsOk s)
  (hrp : s.repartition = some rp) (hs : Homed .current s) (hone : newRooms s rp.target = [a])
  (hg : (gathered s rp a).speakers.length ≤ 10) (hm : (s.profiles.get a).floorMode = .chair)
include hrooms hrp hs hone hg hm

/-- The floor controller neither trims, requeues, removes nor grants. -/
theorem commitFloors_chair (h : Mixed mixed rp.affected (newRooms s rp.target) (commitPartition rp s) v)
    (hsets : sets = if mixed then .current else .before (roomOf s)) :
    (commitFloors sets s rp.affected (newRooms s rp.target) v).floors.get a = builtFloor s rp a ∧
      (commitFloors sets s rp.affected (newRooms s rp.target) v).poolFree = s.poolFree ∧
      (commitFloors sets s rp.affected (newRooms s rp.target) v).stampCounter = s.stampCounter := by
  subst hsets
  obtain ⟨turn, counts⟩ := h.floorTurn hrooms hrp hs
  have ha : a ∈ newRooms s rp.target := by rw [hone]; exact List.mem_cons_self
  have here : commitFloors (if mixed then .current else .before (roomOf s)) s rp.affected (newRooms s rp.target) v =
      (newRooms s rp.target).foldl (buildFloor (if mixed then .current else .before (roomOf s)) s rp.affected)
        (clearedFloors rp.affected v) := rfl
  generalize commitFloors (if mixed then .current else .before (roomOf s)) s rp.affected (newRooms s rp.target) v = w at here
  subst here
  obtain ⟨count, -⟩ := turn.firstRooms hrooms hrp hs.housed counts (fun _ _ => rfl) (List.append_nil _).symm
  obtain ⟨x, x', n, taken⟩ := turn.taken hrooms hrp hs.housed counts (fun _ _ => rfl) ha
  generalize (newRooms s rp.target).foldl (buildFloor (if mixed then .current else .before (roomOf s)) s rp.affected)
    (clearedFloors rp.affected v) = w at count taken
  have start : atTurn s w rp a = s := atTurn_eq (pre := []) (post := []) w hone
  have still : n = 0 := by
    have advanced := taken.done.advances
    rw [taken.count, start] at advanced
    by_contra hn
    obtain ⟨-, auto, -⟩ := advanced.2.1 0 (Nat.pos_of_ne_zero hn)
    rw [afterHeads_zero] at auto
    cases hm.symm.trans auto
  have floor : w.floors.get a = builtFloor s rp a := by
    rw [taken.after.floor, taken.done.floors, Tab.get_set_self, still, afterHeads_zero, taken.count, start, State.withFloor,
      Tab.get_set_self]
  have nobody : requeued s (gathered s rp a) .chair = [] := by
    rw [requeued_eq, if_neg nofun, requeuedSeats, trimmed_eq_nil hg]
    simp [returnedAll]
  rw [hone, List.foldl_cons, List.foldl_nil] at count
  have pool := congrArg State.poolFree count
  have stamp := congrArg State.stampCounter count
  simp only [roomBuilt, hm, nobody, floor] at pool stamp
  refine ⟨floor, ?_, ?_⟩
  · simpa [counted] using pool
  · simpa [counted] using stamp

end

/-- Who has an entry in a built floor had one among the gathered. -/
theorem builtFloor_entries {s : State} {rp : Repartition} {a : Segment} {i : SeatId}
    (hg : (gathered s rp a).speakers.length ≤ 10) (hspeaker : hasSpeaker (gathered s rp a) i = false)
    (hrequest : hasRequest (gathered s rp a) i = false) :
    hasSpeaker (builtFloor s rp a) i = false ∧ hasRequest (builtFloor s rp a) i = false := by
  refine ⟨hasSpeaker_eq_false.mpr fun e he => ?_, hasRequest_eq_false.mpr fun q hq => ?_⟩
  · obtain ⟨x, hx, rfl⟩ := List.mem_map.mp he
    have seat : ((if sortBy (holderBefore s.clock) ((gathered s rp a).holders.filter fun h =>
        !((trimmed (gathered s rp a)).map Speaker.seat).contains h.seat) = [] then resumed s.clock
        else suspended s.clock) { x with byPriority := x.byPriority && !((sortBy (holderBefore s.clock)
          ((gathered s rp a).holders.filter fun h => !((trimmed (gathered s rp a)).map Speaker.seat).contains
            h.seat)).drop 4 |>.map Holder.seat).contains x.seat }).seat = x.seat := by
      split
      · exact resumed_seat ..
      · exact suspended_seat ..
    rw [seat]
    exact hasSpeaker_eq_false.mp hspeaker x (List.mem_filter.mp hx).1
  · have nobody : requeued s (gathered s rp a) (s.profiles.get a).floorMode = [] := by
      rw [requeued_eq, requeuedSeats, trimmed_eq_nil hg]
      simp [returnedAll]
    rw [builtFloor_eq, turned, heldFloor, nobody] at hq
    have mem : q ∈ (gathered s rp a).queue := by
      simpa [Floor.capped, capHolders] using List.mem_of_mem_drop hq
    exact hasRequest_eq_false.mp hrequest q mem

section
variable {s u : State} {rp : Repartition} {a : Segment} {k : TrunkId} {done : List CommitShare} (hrooms : roomsOk s)
  (hrp : s.repartition = some rp) (hs : Homed .current s) (hone : newRooms s rp.target = [a])
  (hg : (gathered s rp a).speakers.length ≤ 10) (hm : (s.profiles.get a).floorMode = .chair)
  (hk : k ∈ component rp.target a) (others : ∀ j, j ≠ k → (s.trunks.get j).intake = [])
  (steady : (nextRooms s rp).contains a = false)
  (hn : ((s.trunks.get k).intake.map HeldEvent.seat).Nodup)
  (hcap : (builtFloor s rp a).queue.length + (s.trunks.get k).intake.length ≤ (s.profiles.get a).requestCap)
  (hpool : (s.trunks.get k).intake.length ≤ s.poolFree)
  (hask : ∀ e ∈ (s.trunks.get k).intake, e.kind = .talk ∧ segmentOf e.seat = k ∧ (s.seats.get e.seat).online = true ∧
    (s.seats.get e.seat).enabled = true ∧ (s.seats.get e.seat).chair = false ∧
    hasSpeaker (gathered s rp a) e.seat = false ∧ hasRequest (gathered s rp a) e.seat = false)

/-- The room and the pool once the trunk's events are replayed. -/
structure Asked (s : State) (rp : Repartition) (a : Segment) (events : List HeldEvent) (u : State) : Prop where
  floor : u.floors.get a = { builtFloor s rp a with
    queue := (builtFloor s rp a).queue ++ requestedBy s.stampCounter events }
  poolFree : u.poolFree = s.poolFree - events.length

theorem Asked.spared {events : List HeldEvent} {u v : State} (h : Asked s rp a events u) (hv : Spared u v) :
    Asked s rp a events v where
  floor := by rw [hv.floors]; exact h.floor
  poolFree := hv.poolFree.trans h.poolFree

include hrooms hrp hs hone hg hm hk others steady hn hcap hpool hask

/-- The trunk's share. -/
theorem Course.asked (hu : Underway s rp done u) (h : Course s rp done u) (hf : .floor ∈ done) (hd : .trunk k ∉ done)
    (sets : Sets) : Asked s rp a (s.trunks.get k).intake (commitTrunk sets (rp.affected.flatMap (membersOf s)) k u) := by
  have ha : a ∈ newRooms s rp.target := by rw [hone]; exact List.mem_cons_self
  obtain ⟨v, mixed, -, rest⟩ := h.after hf
  have spared := (rest fun j hj => others j fun e => hd (e ▸ hj)).spared
  obtain ⟨floor, pool, stamp⟩ := commitFloors_chair hrooms hrp hs hone hg hm mixed (sets := setsAtFloor s done) rfl
  obtain ⟨-, profiles, seats, -⟩ := commitPartition_business rp s
  have frame := commitFloors_floorFrame (setsAtFloor s done) s rp.affected (newRooms s rp.target) v
  have seats_u : u.seats = s.seats := spared.seats.trans (frame.seats.trans (mixed.spared.seats.trans seats))
  have profiles_u : u.profiles = s.profiles := by
    rw [spared.profiles, frame.rest]
    exact mixed.spared.profiles.trans profiles
  have room (i : SeatId) (hi : segmentOf i = k) : seatRoom u i = a := by
    rw [seatRoom, hi, hu.progress.roomOf hrooms hrp]
    exact (mem_component_new hrooms hrp ha).mp hk
  have moved : k ∈ rp.affected.flatMap (membersOf s) := moved_of_mem_new hrooms hrp ha hk
  have open_room : isDraining u (roomOf u k) = false := by
    rw [hu.progress.isDraining hrooms hrp, hu.progress.roomOf hrooms hrp, drains, (mem_component_new hrooms hrp ha).mp hk,
      steady, Bool.and_false]
  have intake := hu.progress.intake k (by simpa using hd)
  rw [commitTrunk_replays moved open_room, intake]
  generalize hy : unheld k u = y
  have y_floors : y.floors = u.floors := hy ▸ rfl
  have y_rest : y.poolFree = u.poolFree ∧ y.stampCounter = u.stampCounter ∧ y.seats = u.seats ∧ y.profiles = u.profiles ∧
      seatRoom y = seatRoom u := hy ▸ ⟨rfl, rfl, rfl, rfl, rfl⟩
  obtain ⟨y_pool, y_stamp, y_seats, y_profiles, y_room⟩ := y_rest
  have asked := foldl_talk (sets := sets) (s := y) (a := a) (f := builtFloor s rp a) (s.trunks.get k).intake
    (by rw [y_floors, spared.floors, floor]) (by rw [y_profiles, profiles_u, hm])
    (by rw [y_profiles, profiles_u]; exact hcap) (by rw [y_pool, spared.poolFree, pool]; exact hpool) hn
    (fun e he => by
      obtain ⟨kind, seg, online, enabled, chair, silent, fresh⟩ := hask e he
      obtain ⟨silent', fresh'⟩ := builtFloor_entries hg silent fresh
      refine ⟨kind, ?_⟩
      exact ⟨by rw [y_room]; exact room _ seg, by rw [y_seats, seats_u]; exact online,
        by rw [y_seats, seats_u]; exact enabled, by rw [y_seats, seats_u]; exact chair, silent', fresh'⟩)
  rw [y_stamp, spared.stampCounter, stamp, y_pool, spared.poolFree, pool] at asked
  exact ⟨asked.1, asked.2⟩

theorem commitStep_asked (order : List CommitShare) :
    Asked s rp a (s.trunks.get k).intake (commitStep order rp s) := by
  refine ((takeShares_induction (P := fun done u => Underway s rp done u ∧ Course s rp done u ∧
      (.trunk k ∈ done → .floor ∈ done ∧ Asked s rp a (s.trunks.get k).intake u)) order
    ⟨underway_start hrooms hrp, ⟨fun _ => .start rfl, fun h => absurd h List.not_mem_nil⟩, fun h => absurd h List.not_mem_nil⟩
    fun done c u hc ⟨hu, h, asked⟩ => ⟨hu.share hrooms hrp hc, h.share hrooms hrp hu hc, fun hd => ?_⟩).2.2
      (trunk_mem_shareOrder order k)).2
  by_cases hck : c = .trunk k
  · subst hck
    have hf := hc.afterFloor rfl
    exact ⟨List.mem_append_left _ hf, h.asked hrooms hrp hs hone hg hm hk others steady hn hcap hpool hask hu hf hc.fresh _⟩
  · obtain ⟨hf, asked⟩ := asked (by simpa [Ne.symm hck] using hd)
    refine ⟨List.mem_append_left _ hf, asked.spared ?_⟩
    cases c with
    | mix => exact commitMix_spared ..
    | floor => exact absurd hf hc.fresh
    | booths => exact (commitBooths_aside ..).spared
    | taps => exact (commitTaps_aside _).spared
    | startTest => exact (startTest_aside ..).spared
    | trunk j =>
      refine (commitTrunk_aside _ _ ?_).spared
      rw [hu.progress.intake j (by simpa using hc.fresh)]
      exact others j fun e => hck (e ▸ rfl)

end

end Sys2Proof.Machine
end


section
/-! The floor controller's share of a commit reads no intake queue (R92 to R95). -/

namespace Sys2Proof.Machine
open Sys2Proof.Safety

section
variable {sound toggles : Prop} {ports ports' : Tab 6 PortRec} {s t : State} {sets sets' : Sets}
  (h : Alike sound toggles ports ports' s t)
include h

theorem Alike.foldl {α : Type} {f g : State → α → State}
    (hf : ∀ x s t, Alike sound toggles ports ports' s t → Alike sound toggles ports ports' (f s x) (g t x)) (l : List α) :
    Alike sound toggles ports ports' (l.foldl f s) (l.foldl g t) := by
  induction l generalizing s t with
  | nil => exact h
  | cons x l ih => exact ih (hf x s t h)

theorem setFloors_alike (floors : Tab 6 Floor) :
    Alike sound toggles ports ports' (s.setFloors floors) (t.setFloors floors) :=
  { h with floors := rfl }

theorem removeRequests_alike (a : Segment) (seats : List SeatId) (reason : FloorReason) :
    Alike sound toggles ports ports' (removeRequests a seats reason s) (removeRequests a seats reason t) :=
  h.foldl (fun i _ _ h => removeRequest_alike h a i reason) seats

theorem requeueSpeaker_alike (a : Segment) (i : SeatId) :
    Alike sound toggles ports ports' (requeueSpeaker a s i) (requeueSpeaker a t i) := by
  rw [requeueSpeaker, requeueSpeaker, h.poolFree, h.stampCounter]
  split
  · exact h
  · exact floorNotice_alike (setStampCounter_alike (setPoolFree_alike (modFloor_alike h ..) _) _) ..

theorem commitPriority_alike (old : State) (a : Segment) :
    Alike sound toggles ports ports' (commitPriority old a s) (commitPriority old a t) := by
  unfold commitPriority
  rw [h.membersOf_eq]
  refine h.foldl (fun g s t h => ?_) _
  rw [h.priorityHeld_eq]
  split
  · exact h
  · exact notify_alike h _ rfl

variable (hsets : sound → sets = sets')
include hsets

theorem trimSpeakers_alike (n : Nat) (a : Segment) :
    Alike sound toggles ports ports' (trimSpeakers sets n a s) (trimSpeakers sets' n a t) := by
  induction n generalizing s t with
  | zero => exact h
  | succ n ih =>
    rw [trimSpeakers, trimSpeakers, h.floorOf_eq]
    split
    · exact h
    · split
      · exact ih (removeSpeaker_alike h hsets ..)
      · exact h

/-- The building of a room goes the same way in two runs that agree on what it reads. -/
theorem buildFloor_alike (old : State) (affected : List Segment) (a : Segment) :
    Alike sound toggles ports ports' (buildFloor sets old affected s a) (buildFloor sets' old affected t a) := by
  unfold buildFloor
  rw [h.membersOf_eq]
  extract_lets gathered s1 s2 trimmed direct s3 s4 s5 s6 t1 t2 trimmed' direct' t3 t4 t5 t6
  have h2 : Alike sound toggles ports ports' s2 t2 := trimSpeakers_alike (modFloor_alike h a _) hsets _ a
  have seats_eq : trimmed' = trimmed := by
    simp only [trimmed', trimmed, h2.floorOf_eq]
  have direct_eq : direct' = direct := by
    simp only [direct', direct, h2.profileOf_eq]
  have h3 : Alike sound toggles ports ports' s3 t3 := by
    simp only [s3, t3, direct_eq, seats_eq]
    split
    · exact h2
    · exact h2.foldl (fun i _ _ h => requeueSpeaker_alike h a i) _
  have h4 : Alike sound toggles ports ports' s4 t4 := by
    simp only [s4, t4, h3.clock]
    exact modFloor_alike h3 ..
  have h5 : Alike sound toggles ports ports' s5 t5 := by
    simp only [s5, t5, direct_eq, h4.floorOf_eq]
    split
    · exact removeRequests_alike h4 ..
    · exact h4
  have h6 : Alike sound toggles ports ports' s6 t6 := by
    simp only [s6, t6, h5.priorityHeld_eq]
    split
    · exact suspendAll_alike h5 a
    · exact resumeAll_alike h5 a
  exact autoAdvance_alike (commitPriority_alike h6 old a) hsets a

theorem commitFloors_alike (old : State) (affected news : List Segment) :
    Alike sound toggles ports ports' (commitFloors sets old affected news s) (commitFloors sets' old affected news t) := by
  have cleared := setFloors_alike h (Tab.ofFn fun a => if affected.contains a then Floor.empty else s.floors.get a)
  rw [commitFloors, commitFloors, h.floors]
  exact cleared.foldl (fun a _ _ h => buildFloor_alike h hsets old affected a) news

end

end Sys2Proof.Machine
end


section
/-! Two commits side by side: the floor controller goes the same way in both (R29, R57). -/

namespace Sys2Proof.Machine
open Sys2Proof.Safety

/-- Two runs agree on the floor controller's business, and its notices since their ports were `ports` are the same. -/
structure Tandem (ports : Tab 6 PortRec) (s t : State) : Prop where
  alike : Alike True True s.ports t.ports s t
  mixes : t.mixes = s.mixes
  heard : ∃ l l' : List Sent, s.ports = delivered s.clock l ports ∧ t.ports = delivered s.clock l' ports ∧
    l'.filter isFloorOrSeat = l.filter isFloorOrSeat

/-- All that the floor controller reads and writes is the same, and the mix engine's rooms too. -/
structure Still (s t : State) : Prop extends Aside s t where
  rooms : t.rooms = s.rooms
  mixes : t.mixes = s.mixes

section
variable {s t u : State}

theorem Still.refl (s : State) : Still s s :=
  ⟨.refl s, rfl, rfl⟩

theorem Still.trans (h : Still s t) (h' : Still t u) : Still s u :=
  ⟨h.toAside.trans h'.toAside, h'.rooms.trans h.rooms, h'.mixes.trans h.mixes⟩

theorem BoothFrame.still (h : BoothFrame s t) (hs : Hushed s t) : Still s t :=
  ⟨h.aside hs, by rw [h.rest], by rw [h.rest]⟩

theorem commitBooths_still (affected news : List Segment) (s : State) : Still s (commitBooths affected news s) :=
  (commitBooths_boothFrame affected news s).still (commitBooths_hushed ..)

theorem commitTaps_still (s : State) : Still s (commitTaps s) :=
  (commitTaps_boothFrame s).still (commitTaps_hushed s)

/-- A trunk that does not hold any event. -/
theorem commitTrunk_still (sets : Sets) (segments : List Segment) {k : TrunkId} (hk : (s.trunks.get k).intake = []) :
    Still s (commitTrunk sets segments k s) := by
  refine ⟨commitTrunk_aside sets segments hk, ?_, ?_⟩
  all_goals
    unfold commitTrunk
    rw [hk]
    split <;> rfl

theorem commitMix_eq_made (affected news : List Segment) (s : State) :
    ∃ p, commitMix affected news s = (mixesMade affected news s).setRepartition p := by
  have reported (l : List Segment) : ∀ v : State, ∃ p, l.foldl (fun s a => reportReady a s) v = v.setRepartition p := by
    induction l with
    | nil => exact fun v => ⟨v.repartition, rfl⟩
    | cons a l ih =>
      intro v
      obtain ⟨p, hp⟩ := ih (reportReady a v)
      refine ⟨p, ?_⟩
      rw [List.foldl_cons, hp, reportReady_eq]
      rfl
  exact reported _ _

end

section
variable {ports : Tab 6 PortRec} {s t u v : State} (h : Tandem ports s t)
include h

/-- After operations that send only notices of other blocks. -/
theorem Tandem.hush (hu : Hushed s u) (hv : Hushed t v) (ha : Alike True True u.ports v.ports u v) (hm : v.mixes = u.mixes) :
    Tandem ports u v := by
  have none_heard {l : List Sent} (hl : ∀ n ∈ l, isFloorOrSeat n = false) : l.filter isFloorOrSeat = [] :=
    List.filter_eq_nil_iff.mpr fun n hn => by rw [hl n hn]; exact Bool.false_ne_true
  obtain ⟨l, l', hs, ht, same⟩ := h.heard
  obtain ⟨m, hm', hp⟩ := hu.sent
  obtain ⟨m', hm'', hp'⟩ := hv.sent
  refine ⟨ha, hm, l ++ m, l' ++ m', ?_, ?_, ?_⟩
  · rw [hp, hs, delivered_append, hu.clock]
  · rw [hp', ht, delivered_append, hu.clock, h.alike.clock]
  · rw [List.filter_append, List.filter_append, none_heard hm', none_heard hm'', same]

/-- After operations of the floor controller and the seat table. -/
theorem Tandem.seats (hu : SeatFrame s u) (hv : SeatFrame t v) (ha : Alike True True s.ports t.ports u v) : Tandem ports u v := by
  obtain ⟨l, l', hs, ht, same⟩ := h.heard
  obtain ⟨m, -, hp, hp'⟩ := ha.heard
  have clock : u.clock = s.clock := by rw [hu.rest]
  rw [clock] at hp hp'
  refine ⟨ha.restart, Tab.ext_get fun a => ?_, l ++ m, l' ++ m, ?_, ?_, ?_⟩
  · rw [hv.mixes a, hu.mixes a, ha.mixes trivial a, h.mixes]
  · rw [hp, hs, delivered_append, clock]
  · rw [hp', ht, delivered_append, clock]
  · rw [List.filter_append, List.filter_append, same]

theorem Tandem.still (hu : Still s u) (hv : Still t v) : Tandem ports u v :=
  h.hush hu.hushed hv.hushed (hm := by rw [hv.mixes, hu.mixes, h.mixes])
    { clock := by rw [hv.clock, hu.clock, h.alike.clock]
      profiles := by rw [hv.profiles, hu.profiles, h.alike.profiles]
      rooms := by rw [hv.rooms, hu.rooms, h.alike.rooms]
      seats := by rw [hv.seats, hu.seats]; exact h.alike.seats
      floors := by rw [hv.floors, hu.floors, h.alike.floors]
      poolFree := by rw [hv.poolFree, hu.poolFree, h.alike.poolFree]
      stampCounter := by rw [hv.stampCounter, hu.stampCounter, h.alike.stampCounter]
      releaseCounter := by rw [hv.releaseCounter, hu.releaseCounter, h.alike.releaseCounter]
      refusals := fun k => by rw [hv.refusals, hu.refusals, h.alike.refusals]
      mixes := fun _ a => by rw [hv.mixes, hu.mixes, h.mixes]
      channels := fun _ k => by rw [hv.channels, hu.channels, h.alike.channels trivial]
      heard := ⟨[], nofun, (delivered_nil ..).symm, (delivered_nil ..).symm⟩ }

theorem Tandem.floors (sets : Sets) (old : State) (affected news : List Segment) :
    Tandem ports (commitFloors sets old affected news s) (commitFloors sets old affected news t) :=
  h.seats (commitFloors_floorFrame ..).toSeat (commitFloors_floorFrame ..).toSeat
    (commitFloors_alike h.alike (fun _ => rfl) old affected news)

theorem Tandem.mix (affected news : List Segment) : Tandem ports (commitMix affected news s) (commitMix affected news t) := by
  have placed_eq : (mixesPlaced affected news t).mixes = (mixesPlaced affected news s).mixes := Tab.ext_get fun a => by
    simp only [mixesPlaced, State.setMixes, Tab.get_ofFn, newMix, h.alike.isDraining_eq, h.alike.membersOf_eq, h.mixes]
  have placed : Alike True True s.ports t.ports (mixesPlaced affected news s) (mixesPlaced affected news t) :=
    { h.alike with mixes := fun _ a => by rw [placed_eq] }
  have made : Alike True True s.ports t.ports (mixesMade affected news s) (mixesMade affected news t) :=
    placed.foldl (fun a _ _ h => capRelease_alike h trivial a) news
  have made_eq : (mixesMade affected news t).mixes = (mixesMade affected news s).mixes := Tab.ext_get fun a => by
    rw [(mixesMade_floorFrame affected news t).mixes a, (mixesMade_floorFrame affected news s).mixes a, placed_eq,
      made.mixes trivial a]
  obtain ⟨p, hp⟩ := commitMix_eq_made affected news s
  obtain ⟨p', hp'⟩ := commitMix_eq_made affected news t
  refine h.hush (commitMix_hushed ..) (commitMix_hushed ..) ?_ ?_
  · rw [hp, hp']
    exact { made.restart with }
  · rw [hp, hp']
    exact made_eq

theorem Tandem.unheld (k : TrunkId) : Tandem ports (unheld k s) (unheld k t) :=
  ⟨modTrunk_alike h.alike k (fun _ _ hr => hr) fun _ _ hc => hc, h.mixes, h.heard⟩

theorem Tandem.events (sets : Sets) (l : List HeldEvent) :
    Tandem ports (l.foldl (fun s e => seatEvent sets e.seat e.kind s) s)
      (l.foldl (fun s e => seatEvent sets e.seat e.kind s) t) :=
  h.seats (.foldl (fun s (e : HeldEvent) => seatEvent_seatFrame sets e.seat e.kind s) l s)
    (.foldl (fun s (e : HeldEvent) => seatEvent_seatFrame sets e.seat e.kind s) l t)
    (h.alike.foldl (fun e _ _ h => seatEvent_alike h (fun _ => rfl) e.seat e.kind) l)

theorem Tandem.trunk (sets : Sets) (segments : List Segment) {k : TrunkId}
    (hk : (t.trunks.get k).intake = (s.trunks.get k).intake) :
    Tandem ports (commitTrunk sets segments k s) (commitTrunk sets segments k t) := by
  unfold commitTrunk
  rw [hk, h.alike.isDraining_eq, roomOf_of_rooms h.alike.rooms]
  split
  · exact (h.unheld k).events sets _
  · exact h

end

end Sys2Proof.Machine
end


section
/-! A commit, and the same commit without the last event of a trunk's intake queue (R57). -/

namespace Sys2Proof.Machine
open Sys2Proof.Safety

/-- The state `s` with `held` as the intake queue of trunk `k`. -/
def State.withIntake (s : State) (k : TrunkId) (held : List HeldEvent) : State :=
  { s with trunks := s.trunks.modify k fun r => { r with intake := held } }

/-- The commit when the shares `done` are taken. -/
def runTo (s : State) (rp : Repartition) (done : List CommitShare) : State :=
  takeShares s rp.affected (newRooms s rp.target) (.before (roomOf s)) (commitPartition rp s) done

theorem takeShares_snoc (old : State) (affected news : List Segment) (sets : Sets) (s : State) (done : List CommitShare)
    (c : CommitShare) :
    takeShares old affected news sets s (done ++ [c]) =
      commitShare (if .mix ∈ done then .current else sets) old affected news (takeShares old affected news sets s done) c := by
  induction done generalizing sets s with
  | nil => rfl
  | cons x done ih =>
    rw [List.cons_append, takeShares, ih, takeShares]
    congr 1
    by_cases hd : CommitShare.mix ∈ done
    · simp [hd]
    · by_cases hx : x = .mix
      · simp [hx]
      · simp [hd, hx, Ne.symm hx]

theorem runTo_snoc (s : State) (rp : Repartition) (done : List CommitShare) (c : CommitShare) :
    runTo s rp (done ++ [c]) =
      commitShare (setsAfter s done) s rp.affected (newRooms s rp.target) (runTo s rp done) c := by
  rw [runTo, takeShares_snoc]
  rfl

section
variable {s : State} {rp : Repartition} {k : TrunkId} {held : List HeldEvent}

theorem withIntake_tandem (s : State) (k : TrunkId) (held : List HeldEvent) : Tandem s.ports s (s.withIntake k held) := by
  have same {α : Type} (f : Trunk → α) (hf : ∀ r : Trunk, f { r with intake := held } = f r) (j : TrunkId) :
      f ((s.withIntake k held).trunks.get j) = f (s.trunks.get j) := by
    rw [State.withIntake, Tab.get_modify]
    split
    · exact hf _
    · rfl
  exact
    { alike :=
        { (Alike.refl s : Alike True True s.ports s.ports s s) with
          refusals := same Trunk.refusals fun _ => rfl
          channels := fun _ => same Trunk.channels fun _ => rfl }
      mixes := rfl
      heard := ⟨[], [], (delivered_nil ..).symm, (delivered_nil ..).symm, rfl⟩ }

theorem commitPartition_rooms (rp : Repartition) (s : State) : (commitPartition rp s).rooms = (partitioned rp s).rooms := by
  rw [commitPartition_sends, sendAll_frame]
  exact rebuilt_rooms rp s

/-- The partition controller's share reads no intake queue. -/
theorem commitPartition_tandem (rp : Repartition) (s : State) (k : TrunkId) (held : List HeldEvent) :
    Tandem s.ports (commitPartition rp s) (commitPartition rp (s.withIntake k held)) := by
  have start := withIntake_tandem s k held
  obtain ⟨hushed, profiles, seats, counts, floors, trunks, mixes, -⟩ := commitPartition_business rp s
  obtain ⟨hushed', profiles', seats', counts', floors', trunks', mixes', -⟩ := commitPartition_business rp (s.withIntake k held)
  have rooms : (commitPartition rp (s.withIntake k held)).rooms = (commitPartition rp s).rooms :=
    (commitPartition_rooms rp (s.withIntake k held)).trans (commitPartition_rooms rp s).symm
  have count {α : Type} (f : State → α) (hf : ∀ x y : State, f (counted x y) = f y) :
      f (commitPartition rp s) = f s ∧ f (commitPartition rp (s.withIntake k held)) = f (s.withIntake k held) :=
    ⟨(hf ..).symm.trans (congrArg f counts), (hf ..).symm.trans (congrArg f counts')⟩
  obtain ⟨pool, pool'⟩ := count State.poolFree fun _ _ => rfl
  obtain ⟨stamp, stamp'⟩ := count State.stampCounter fun _ _ => rfl
  obtain ⟨release, release'⟩ := count State.releaseCounter fun _ _ => rfl
  generalize commitPartition rp s = u at *
  generalize commitPartition rp (s.withIntake k held) = v at *
  refine start.hush hushed hushed' ?_ (by rw [mixes', mixes]; rfl)
  exact
    { clock := by rw [hushed'.clock, hushed.clock]; rfl
      profiles := by rw [profiles', profiles]; rfl
      rooms := rooms
      seats := fun i => by rw [seats', seats]; exact start.alike.seats i
      floors := by rw [floors', floors]; rfl
      poolFree := by rw [pool', pool]; rfl
      stampCounter := by rw [stamp', stamp]; rfl
      releaseCounter := by rw [release', release]; rfl
      refusals := fun j => by rw [trunks', trunks]; exact start.alike.refusals j
      mixes := fun _ a => by rw [mixes', mixes]; rfl
      channels := fun _ j => by rw [trunks', trunks]; exact start.alike.channels trivial j
      heard := ⟨[], nofun, (delivered_nil ..).symm, (delivered_nil ..).symm⟩ }

/-! ### The shares of the two commits -/

theorem startTest_idle_of_calm {mixed : Bool} {taken : TrunkId → Bool} {u : State} (hrooms : roomsOk s)
    (hrp : s.repartition = some rp) (hnext : nextRooms s rp = []) (h : Progress s rp mixed none taken u)
    (uncreated : List Segment) : startTest uncreated u = u := by
  rw [h.startTest_eq hrooms hrp, if_pos hnext]

theorem commitMix_rooms (affected news : List Segment) (u : State) : (commitMix affected news u).rooms = u.rooms := by
  obtain ⟨p, hp⟩ := commitMix_eq_made affected news u
  rw [hp]
  exact ((mixesMade_floorFrame affected news u).rooms).trans rfl

/-- The first commit has replayed one more event than the second, after which their shares left the floor controller's business
alone; `mixed` tells whether the mix engine had taken its share before. -/
def EventLast (ports : Tab 6 PortRec) (mixed : Bool) (e : HeldEvent) (u v : State) : Prop :=
  ∃ sets y z, Tandem ports y z ∧ Spared (seatEvent sets e.seat e.kind y) u ∧ Spared z v ∧ v.rooms = z.rooms ∧
    (mixed = true → sets = .current ∧ Still (seatEvent sets e.seat e.kind y) u ∧ Still z v)

section
variable {ports : Tab 6 PortRec} {mixed : Bool} {e : HeldEvent} {u v u' v' : State}

theorem Tandem.eventLast (h : Tandem ports u v) (sets : Sets) (hm : mixed = true → sets = .current) :
    EventLast ports mixed e (seatEvent sets e.seat e.kind u) v :=
  ⟨sets, u, v, h, (Still.refl _).spared, (Still.refl _).spared, rfl, fun hx => ⟨hm hx, .refl _, .refl _⟩⟩

theorem EventLast.spared (h : EventLast ports mixed e u v) (hu : Spared u u') (hv : Spared v v') (hr : v'.rooms = v.rooms)
    (hm : mixed = true → Still u u' ∧ Still v v') : EventLast ports mixed e u' v' := by
  obtain ⟨sets, y, z, tandem, hy, hz, rooms, still⟩ := h
  exact ⟨sets, y, z, tandem, hy.trans hu, hz.trans hv, hr.trans rooms, fun hx =>
    ⟨(still hx).1, (still hx).2.1.trans (hm hx).1, (still hx).2.2.trans (hm hx).2⟩⟩

theorem EventLast.still (h : EventLast ports mixed e u v) (hu : Still u u') (hv : Still v v') : EventLast ports mixed e u' v' :=
  h.spared hu.spared hv.spared hv.rooms fun _ => ⟨hu, hv⟩

end

/-- The shares `done` of a commit, with and without the last event `e` of trunk `k`. -/
structure Twins (s : State) (rp : Repartition) (k : TrunkId) (held : List HeldEvent) (e : HeldEvent) (done : List CommitShare)
    (u v : State) : Prop where
  first : Underway s rp done u
  second : Underway (s.withIntake k held) rp done v
  ahead : .trunk k ∉ done → Tandem s.ports u v
  floored : .trunk k ∈ done → .floor ∈ done
  parted : .trunk k ∈ done →
    (∀ j, .trunk j ∈ done → beforeIn done (.trunk k) (.trunk j) = true → (s.trunks.get j).intake = []) →
    EventLast s.ports (beforeIn done .mix (.trunk k)) e u v

section
variable {e : HeldEvent} {done : List CommitShare} {c : CommitShare} {u v : State} (hrooms : roomsOk s)
  (hrp : s.repartition = some rp) (hnext : nextRooms s rp = [])
include hrooms hrp hnext

/-- A share while the trunk's own is still to come. -/
theorem Twins.share_ahead (h : Twins s rp k held e done u v) (hc : MayFollow done c) (hd : .trunk k ∉ done) (hck : c ≠ .trunk k) :
    Tandem s.ports (commitShare (setsAfter s done) s rp.affected (newRooms s rp.target) u c)
      (commitShare (setsAfter s done) (s.withIntake k held) rp.affected (newRooms s rp.target) v c) := by
  have tandem := h.ahead hd
  cases c with
  | mix => exact tandem.mix ..
  | floor => exact tandem.floors (setsAfter s done) s rp.affected (newRooms s rp.target)
  | booths => exact tandem.still (commitBooths_still ..) (commitBooths_still ..)
  | taps => exact tandem.still (commitTaps_still _) (commitTaps_still _)
  | startTest =>
    have first := h.first.progress
    have second := h.second.progress
    rw [startedAt_none hc.fresh] at first second
    rw [commitShare, commitShare, startTest_idle_of_calm hrooms hrp hnext first,
      startTest_idle_of_calm (s := s.withIntake k held) hrooms hrp hnext second]
    exact tandem
  | trunk j =>
    have hjk : k ≠ j := fun e => hck (e ▸ rfl)
    refine tandem.trunk _ _ ?_
    rw [h.first.progress.intake j (by simpa using hc.fresh), h.second.progress.intake j (by simpa using hc.fresh),
      State.withIntake, Tab.get_modify_ne _ _ hjk]

/-- The trunk's own share. -/
theorem Twins.share_trunk (h : Twins s rp k held e done u v) (hc : MayFollow done (.trunk k)) (hk : k ∈ movedBy s rp)
    (hi : (s.trunks.get k).intake = held ++ [e]) :
    EventLast s.ports (done.contains .mix) e
      (commitShare (setsAfter s done) s rp.affected (newRooms s rp.target) u (.trunk k))
      (commitShare (setsAfter s done) (s.withIntake k held) rp.affected (newRooms s rp.target) v (.trunk k)) := by
  have calm (a : Segment) : drains s rp (startedAt done) a = false := by simp [drains, hnext]
  have steady : isDraining u (roomOf u k) = false := by
    rw [h.first.progress.isDraining hrooms hrp, calm]
  have steady' : isDraining v (roomOf v k) = false := by
    rw [h.second.progress.isDraining (s := s.withIntake k held) hrooms hrp]
    exact calm _
  have intake := h.first.progress.intake k (by simpa using hc.fresh)
  have intake' := h.second.progress.intake k (by simpa using hc.fresh)
  rw [State.withIntake, Tab.get_modify_self] at intake'
  have moved : k ∈ rp.affected.flatMap (membersOf s) := hk
  have moved' : k ∈ rp.affected.flatMap (membersOf (s.withIntake k held)) := hk
  rw [commitShare, commitShare, commitTrunk_replays moved steady, commitTrunk_replays moved' steady', intake, intake', hi,
    List.foldl_append]
  refine (((h.ahead hc.fresh).unheld k).events (setsAfter s done) held).eventLast _ fun hm => ?_
  exact if_pos (List.contains_iff_mem.mp hm)

/-- A share after the trunk's own, no trunk of those to come holding an event. -/
theorem Twins.share_after (h : Twins s rp k held e done u v) (hc : MayFollow done c) (hd : .trunk k ∈ done)
    (empty : ∀ j, c = .trunk j → (s.trunks.get j).intake = [])
    (last : EventLast s.ports (beforeIn done .mix (.trunk k)) e u v) :
    EventLast s.ports (beforeIn done .mix (.trunk k)) e
      (commitShare (setsAfter s done) s rp.affected (newRooms s rp.target) u c)
      (commitShare (setsAfter s done) (s.withIntake k held) rp.affected (newRooms s rp.target) v c) := by
  cases c with
  | mix =>
    refine last.spared (commitMix_spared ..) (commitMix_spared ..) (commitMix_rooms ..) fun hm => absurd ?_ hc.fresh
    exact (List.takeWhile_prefix _).subset (List.contains_iff_mem.mp hm)
  | floor => exact absurd (h.floored hd) hc.fresh
  | booths => exact last.still (commitBooths_still ..) (commitBooths_still ..)
  | taps => exact last.still (commitTaps_still _) (commitTaps_still _)
  | startTest =>
    have first := h.first.progress
    have second := h.second.progress
    rw [startedAt_none hc.fresh] at first second
    rw [commitShare, commitShare, startTest_idle_of_calm hrooms hrp hnext first,
      startTest_idle_of_calm (s := s.withIntake k held) hrooms hrp hnext second]
    exact last
  | trunk j =>
    have hjk : k ≠ j := fun e => hc.fresh (e ▸ hd)
    have intake := (h.first.progress.intake j (by simpa using hc.fresh)).trans (empty j rfl)
    have intake' := h.second.progress.intake j (by simpa using hc.fresh)
    rw [State.withIntake, Tab.get_modify_ne _ _ hjk, empty j rfl] at intake'
    exact last.still (commitTrunk_still _ _ intake) (commitTrunk_still _ _ intake')

theorem Twins.share (h : Twins s rp k held e done u v) (hc : MayFollow done c) (hk : k ∈ movedBy s rp)
    (hi : (s.trunks.get k).intake = held ++ [e]) :
    Twins s rp k held e (done ++ [c]) (commitShare (setsAfter s done) s rp.affected (newRooms s rp.target) u c)
      (commitShare (setsAfter s done) (s.withIntake k held) rp.affected (newRooms s rp.target) v c) where
  first := h.first.share hrooms hrp hc
  second := h.second.share (s := s.withIntake k held) hrooms hrp hc
  ahead hd := by
    rw [List.mem_append, List.mem_singleton, not_or] at hd
    exact h.share_ahead hrooms hrp hnext hc hd.1 (Ne.symm hd.2)
  floored hd := by
    rcases List.mem_append.mp hd with hd | hd
    · exact List.mem_append_left _ (h.floored hd)
    · rw [← List.mem_singleton.mp hd] at hc
      exact List.mem_append_left _ (hc.afterFloor rfl)
  parted hd empty := by
    by_cases hck : c = .trunk k
    · subst hck
      rw [beforeIn_append_self hc.fresh]
      exact h.share_trunk hrooms hrp hnext hc hk hi
    · have old : CommitShare.trunk k ∈ done := by simpa [Ne.symm hck] using hd
      rw [beforeIn_append_of_mem old]
      refine h.share_after hrooms hrp hnext hc old (fun j hj => ?_) (h.parted old fun j hj hb => ?_)
      · subst hj
        exact empty j (by simp) (by rw [beforeIn_append_self hc.fresh]; exact List.contains_iff_mem.mpr old)
      · exact empty j (List.mem_append_left _ hj) (by rw [beforeIn_append_of_mem hj]; exact hb)

/-- A commit, and the same without the last event of trunk `k`, which no trunk with events follows. -/
theorem commitStep_eventLast (order : List CommitShare) (hk : k ∈ movedBy s rp) (hi : (s.trunks.get k).intake = held ++ [e])
    (empty : ∀ j, isBefore order (.trunk k) (.trunk j) = true → (s.trunks.get j).intake = []) :
    EventLast s.ports (isBefore order .mix (.trunk k)) e (commitStep order rp s) (commitStep order rp (s.withIntake k held)) :=
  (takeShares_induction (P := fun done u => Twins s rp k held e done u (runTo (s.withIntake k held) rp done)) order
    { first := underway_start hrooms hrp
      second := underway_start (s := s.withIntake k held) hrooms hrp
      ahead := fun _ => commitPartition_tandem rp s k held
      floored := fun h => absurd h List.not_mem_nil
      parted := fun h => absurd h List.not_mem_nil }
    fun done c u hc h => by
      rw [runTo_snoc]
      exact h.share hrooms hrp hnext hc hk hi).parted (trunk_mem_shareOrder order k) fun j _ hb => empty j hb

end

end

end Sys2Proof.Machine
end


section
/-! The last held event of a commit acts as the seat's next accepted event would (R53 to R57). -/

namespace Sys2Proof.Machine
open Sys2Proof.Safety

section
variable {sound toggles : Prop} {ports ports' : Tab 6 PortRec} {s t : State}

/-- A trunk's record may change in what the floor controller does not read. -/
theorem Alike.modTrunk (h : Alike sound toggles ports ports' s t) (k : TrunkId) {f : Trunk → Trunk}
    (hr : ∀ r, (f r).refusals = r.refusals) (hc : ∀ r, (f r).channels = r.channels) :
    Alike sound toggles ports ports' s (t.modTrunk k f) :=
  { h with
    refusals := fun j => by
      rw [State.modTrunk_trunks, Tab.get_modify]
      split
      · exact (hr _).trans (h.refusals j)
      · exact h.refusals j
    channels := fun hs j => by
      rw [State.modTrunk_trunks, Tab.get_modify]
      split
      · exact (hc _).trans (h.channels hs j)
      · exact h.channels hs j }

/-- A seat's last toggle may change where it is not compared. -/
theorem Alike.modToggle (h : Alike sound False ports ports' s t) (i : SeatId) (x : Option Bool) :
    Alike sound False ports ports' s (t.modSeat i fun r => { r with lastToggle := x }) :=
  { h with
    seats := fun j => by
      obtain ⟨online, enabled, chair, -⟩ := h.seats j
      rw [State.modSeat_seats, Tab.get_modify]
      split
      · exact ⟨online, enabled, chair, False.elim⟩
      · exact h.seats j }

theorem putTrunk_eq_modTrunk (s : State) (k : TrunkId) (f : Trunk → Trunk) : s.putTrunk k (f (s.trunks.get k)) = s.modTrunk k f :=
  congrArg (fun t => { s with trunks := t }) (Tab.ext_get fun j => by
    by_cases hj : k = j
    · subst hj; simp
    · simp [Tab.get_modify_ne _ _ hj, Tab.get_set_ne _ _ hj])

end

/-! ### One accepted event -/

/-- An event that is neither repeated nor held. -/
theorem acceptEvent_acts {k : TrunkId} {pos : Position} {kind : EventKind} {toggle : Bool} {s : State}
    (hnew : (s.seats.get (seatAt k pos)).lastToggle ≠ some toggle) (hfree : (s.trunks.get k).holding = false) :
    acceptEvent k pos kind toggle s =
      seatEvent .current (seatAt k pos) kind (acknowledge k pos toggle (storeToggle (seatAt k pos) toggle s)) := by
  unfold acceptEvent
  dsimp only
  rw [if_neg hnew, if_neg (by rw [hfree]; exact Bool.false_ne_true)]

/-- The state in which the event `e` of a frame without audio acts, trunk `k` listening in `u`. -/
def noted (u : State) (k : TrunkId) (e : HeldEvent) : State :=
  acknowledge k (positionOf e.seat) e.toggle (storeToggle e.seat e.toggle
    ((listening u k e.seat).modTrunk k (matched (Tab.replicate 16 (Tab.replicate 48 0)))))

section
variable {u : State} {k : TrunkId} {e : HeldEvent}

theorem exec_frameWith (hheld : u.held = false) (hi : segmentOf e.seat = k) (hfree : (u.trunks.get k).holding = false) :
    exec (frameWith u k e.seat e.kind e.toggle) (listening u k e.seat) =
      .next (startTransmitters (seatEvent .current e.seat e.kind (noted u k e))) := by
  have trunk : (listening u k e.seat).trunks.get k =
      { u.trunks.get k with power := .live, supervision := some .locked, blockErrors := 0 } := Tab.get_modify_self ..
  have toggle : ((listening u k e.seat).seats.get e.seat).lastToggle = none :=
    congrArg Seat.lastToggle (Tab.get_modify_self ..)
  have one := exec_oneEvent (k := k) (s := listening u k e.seat) hheld (by rw [trunk]) (by rw [trunk])
    (by rw [trunk]; exact Nat.zero_lt_succ 5) (positionOf e.seat) e.kind e.toggle (Tab.replicate 16 (Tab.replicate 48 0))
  rw [putTrunk_eq_modTrunk, acceptEvent_acts, seatAt_positionOf hi] at one
  · refine Eq.trans ?_ one
    rw [frameWith, trunk]
  · rw [seatAt_positionOf hi]
    exact fun h => nomatch toggle.symm.trans h
  · rw [State.modTrunk_trunks, Tab.get_modify_self, trunk]
    exact hfree

theorem noted_mixes (u : State) (k : TrunkId) (e : HeldEvent) : (noted u k e).mixes = u.mixes := rfl

theorem noted_alike (u : State) (k : TrunkId) (e : HeldEvent) : Alike True False u.ports u.ports u (noted u k e) :=
  (((((Alike.refl u).modTrunk k (f := fun r => { r with power := .live, supervision := some .locked, blockErrors := 0 })
    (fun _ => rfl) fun _ => rfl).modToggle e.seat none).modTrunk k (f := matched _) (fun _ => rfl) fun _ => rfl).modToggle
      e.seat (some e.toggle)).modTrunk k (f := fun r => { r with acks := r.acks.set _ _ }) (fun _ => rfl) fun _ => rfl

end

end Sys2Proof.Machine
end


section
/-! What the replay of a trunk's last held event shows after the commit (R57). -/

namespace Sys2Proof.Machine
open Sys2Proof.Safety

theorem startTransmitters_delivered {s t : State} {l : List Sent} (h : t.ports = delivered s.clock l s.ports) :
    (startTransmitters t).ports = (conclude s l none).ports := by
  rw [← startTransmitters_sendAll, startTransmitters_frame, startTransmitters_frame, sendAll_ports, h]

/-- The state `t` after a commit of `s` that sent `sent`, beside the one in which the last event `e` of trunk `k` comes after
the commit, in a frame. -/
def ReplayedLast (s : State) (mixed : Bool) (k : TrunkId) (e : HeldEvent) (t : State) (sent : List Sent) (u : State) : Prop :=
  ∃ v sentU sentV,
    exec (frameWith u k e.seat e.kind e.toggle) (listening u k e.seat) = .next v ∧
    u.ports = (conclude s sentU none).ports ∧ v.ports = (conclude u sentV none).ports ∧
    sent.filter isFloorOrSeat = sentU.filter isFloorOrSeat ++ sentV ∧
    t.floors = v.floors ∧ t.poolFree = v.poolFree ∧ t.stampCounter = v.stampCounter ∧
    t.releaseCounter = v.releaseCounter ∧
    (∀ i, (t.seats.get i).online = (v.seats.get i).online) ∧
    (∀ j, (t.trunks.get j).refusals = (v.trunks.get j).refusals) ∧
    (mixed = true → t.mixes = v.mixes ∧ ∀ j, (t.trunks.get j).channels = (v.trunks.get j).channels)

section
variable {s y z u w : State} {sound : Prop}

/-- The floor controller's business is the same after shares that leave it alone, and where an accepted event then acts. -/
theorem Tandem.noted {k : TrunkId} {e : HeldEvent} (h : Tandem s.ports y z) (hu : Spared z u) (hr : u.rooms = z.rooms)
    (hm : sound → Still z u) : Alike sound False y.ports (startTransmitters u).ports y (noted (startTransmitters u) k e) := by
  have now := noted_alike (startTransmitters u) k e
  exact
    { clock := by rw [now.clock]; exact hu.hushed.clock.trans h.alike.clock
      profiles := by rw [now.profiles]; exact hu.profiles.trans h.alike.profiles
      rooms := by rw [now.rooms]; exact hr.trans h.alike.rooms
      seats := fun i => by
        obtain ⟨online, enabled, chair, -⟩ := now.seats i
        have seats : (startTransmitters u).seats = z.seats := hu.seats
        rw [seats] at online enabled chair
        obtain ⟨online', enabled', chair', -⟩ := h.alike.seats i
        exact ⟨online.trans online', enabled.trans enabled', chair.trans chair', False.elim⟩
      floors := by rw [now.floors]; exact hu.floors.trans h.alike.floors
      poolFree := by rw [now.poolFree]; exact hu.poolFree.trans h.alike.poolFree
      stampCounter := by rw [now.stampCounter]; exact hu.stampCounter.trans h.alike.stampCounter
      releaseCounter := by rw [now.releaseCounter]; exact hu.releaseCounter.trans h.alike.releaseCounter
      refusals := fun j => by rw [now.refusals]; exact (hu.refusals j).trans (h.alike.refusals j)
      mixes := fun hs a => by
        rw [now.mixes trivial]
        exact ((hm hs).releases a).trans (h.alike.mixes trivial a)
      channels := fun hs j => by
        rw [now.channels trivial]
        exact ((hm hs).channels j).trans (h.alike.channels trivial j)
      heard := ⟨[], nofun, (delivered_nil ..).symm, (delivered_nil ..).symm⟩ }

/-- After a notice list of its own, a state that only other blocks' notices follow. -/
theorem Hushed.filtered {ports : Tab 6 PortRec} {t u : State} {l : List Sent} (h : Hushed t u)
    (ht : t.ports = delivered t.clock l ports) :
    ∃ m, u.ports = delivered u.clock m ports ∧ m.filter isFloorOrSeat = l.filter isFloorOrSeat := by
  obtain ⟨m, hm, hp⟩ := h.sent
  have none_heard : m.filter isFloorOrSeat = [] :=
    List.filter_eq_nil_iff.mpr fun n hn => by rw [hm n hn]; exact Bool.false_ne_true
  refine ⟨l ++ m, ?_, ?_⟩
  · rw [hp, ht, h.clock, delivered_append]
  · rw [List.filter_append, none_heard, List.append_nil]

/-- What the last event leaves and sends is what it would leave and send after the commit. -/
theorem EventLast.replayed {mixed : Bool} {k : TrunkId} {e : HeldEvent} {t : State} (h : EventLast s.ports mixed e t u)
    (ht : t.clock = s.clock) (hu : u.clock = s.clock) (hheld : u.held = false) (hi : segmentOf e.seat = k)
    (hfree : (u.trunks.get k).holding = false) :
    ∃ sent, (startTransmitters t).ports = (conclude s sent none).ports ∧
      ReplayedLast s mixed k e (startTransmitters t) sent (startTransmitters u) := by
  obtain ⟨sets, y, z, tandem, hy, hz, rooms, still⟩ := h
  have start := tandem.noted (k := k) (e := e) (sound := mixed = true) hz rooms fun hm => (still hm).2.2
  have acts := seatEvent_alike start (sets := sets) (sets' := .current) (fun hm => (still hm).1) e.seat e.kind
  have frame := seatEvent_seatFrame sets e.seat e.kind y
  have frame' := seatEvent_seatFrame .current e.seat e.kind (Machine.noted (startTransmitters u) k e)
  obtain ⟨l, l', hl, hl', same⟩ := tandem.heard
  obtain ⟨m, only, hm, hm'⟩ := acts.heard
  have clock : (seatEvent sets e.seat e.kind y).clock = y.clock := by rw [frame.rest]
  have sent : (seatEvent sets e.seat e.kind y).ports =
      delivered (seatEvent sets e.seat e.kind y).clock (l ++ m) s.ports := by
    rw [hm, clock, hl, delivered_append]
  obtain ⟨lt, hlt, filter_t⟩ := hy.hushed.filtered sent
  obtain ⟨lu, hlu, filter_u⟩ := hz.hushed.filtered (by rw [tandem.alike.clock]; exact hl')
  rw [ht] at hlt
  rw [hu] at hlu
  have clock' : (seatEvent .current e.seat e.kind (Machine.noted (startTransmitters u) k e)).clock =
      (startTransmitters u).clock := by
    rw [frame'.rest]
    exact (noted_alike (startTransmitters u) k e).clock
  have mixes (hmix : mixed = true) : (Machine.noted (startTransmitters u) k e).mixes = y.mixes := by
    rw [noted_mixes, ← tandem.mixes]
    exact (still hmix).2.2.mixes
  have exec_eq := exec_frameWith (u := startTransmitters u) hheld hi hfree
  generalize seatEvent .current e.seat e.kind (Machine.noted (startTransmitters u) k e) = v at *
  generalize seatEvent sets e.seat e.kind y = x at *
  have sent_t : (startTransmitters t).ports = (conclude s lt none).ports := startTransmitters_delivered hlt
  have sent_u : (startTransmitters u).ports = (conclude s lu none).ports := startTransmitters_delivered hlu
  have sent_v : (startTransmitters v).ports = (conclude (startTransmitters u) m none).ports :=
    startTransmitters_delivered (by rw [hm', ← acts.clock, clock'])
  refine ⟨lt, sent_t, startTransmitters v, lu, m, exec_eq, sent_u, sent_v, ?_, ?_⟩
  · rw [filter_t, filter_u, List.filter_append, same, List.filter_eq_self.mpr only]
  · refine ⟨?_, ?_, ?_, ?_, fun i => ?_, fun j => ?_, fun hmix => ⟨Tab.ext_get fun a => ?_, fun j => ?_⟩⟩
    · exact hy.floors.trans acts.floors.symm
    · exact hy.poolFree.trans acts.poolFree.symm
    · exact hy.stampCounter.trans acts.stampCounter.symm
    · exact hy.releaseCounter.trans acts.releaseCounter.symm
    · exact (congrArg (fun x => (x.get i).online) hy.seats).trans (acts.seats i).online.symm
    · exact (hy.refusals j).trans (acts.refusals j).symm
    · have mixes_t : (startTransmitters t).mixes = x.mixes := (still hmix).2.1.mixes
      have mixes_v : (startTransmitters v).mixes = v.mixes := rfl
      rw [mixes_t, mixes_v, frame.mixes a, frame'.mixes a, acts.mixes hmix a, mixes hmix]
    · exact ((still hmix).2.1.channels j).trans (acts.channels hmix j).symm

end

end Sys2Proof.Machine
end


section
/-! A commit with a held event, as an event of its own (R28, R57). -/

namespace Sys2Proof.Machine
open Sys2Proof.Safety

section
variable {s : State} {rp : Repartition}

theorem exec_commit (hheld : s.held = false) (hrp : s.repartition = some rp) (hready : ∀ a ∈ rp.affected, a ∈ rp.ready)
    (order : List CommitShare) : exec (.commit order) s = .next (startTransmitters (commitStep order rp s)) := by
  have taken : takeCommit order s = commitStep order rp s := by
    rw [takeCommit, hrp]
    exact if_pos (List.all_eq_true.mpr fun a ha => List.contains_iff_mem.mpr (hready a ha))
  rw [← taken]
  exact carryOut_eq hheld _

variable {k : TrunkId} {held : List HeldEvent} {e : HeldEvent} {order : List CommitShare}

theorem commitStep_replayed (hheld : s.held = false) (hrooms : roomsOk s) (hrp : s.repartition = some rp)
    (hready : ∀ a ∈ rp.affected, a ∈ rp.ready) (hnext : nextRooms s rp = []) (hk : k ∈ movedBy s rp)
    (hi : (s.trunks.get k).intake = held ++ [e]) (hseg : segmentOf e.seat = k)
    (empty : ∀ j, isBefore order (.trunk k) (.trunk j) = true → (s.trunks.get j).intake = []) :
    ∃ sent u, (startTransmitters (commitStep order rp s)).ports = (conclude s sent none).ports ∧
      exec (.commit order) (s.withIntake k held) = .next u ∧
      ReplayedLast s (isBefore order .mix (.trunk k)) k e (startTransmitters (commitStep order rp s)) sent u := by
  have last := commitStep_eventLast hrooms hrp hnext order hk hi empty
  obtain ⟨first, -⟩ := underway_commitStep hrooms hrp order
  obtain ⟨second, -⟩ := underway_commitStep (s := s.withIntake k held) hrooms hrp order
  have exec_eq := exec_commit (s := s.withIntake k held) hheld hrp hready order
  have held_u : (commitStep order rp (s.withIntake k held)).held = false :=
    (congrArg State.held second.commit.1).trans hheld
  have free : ((commitStep order rp (s.withIntake k held)).trunks.get k).holding = false := by
    rw [second.holding]
    have moved : (movedBy (s.withIntake k held) rp).contains k = true := List.contains_iff_mem.mpr hk
    have next : nextRooms (s.withIntake k held) rp = [] := hnext
    have taken : (shareOrder order).contains (.trunk k) = true := List.contains_iff_mem.mpr (trunk_mem_shareOrder order k)
    rw [drains, next, moved, taken]
    simp
  obtain ⟨sent, ports, replayed⟩ := last.replayed (onlyCommit_clock first.commit) (onlyCommit_clock (s := s.withIntake k held) second.commit) held_u hseg free
  exact ⟨sent, _, ports, exec_eq, replayed⟩

end

end Sys2Proof.Machine
end


section
/-! Release sets and channels of a new room, as the state after its grants shows them (R51, R146, R160). -/

namespace Sys2Proof.Machine
open Sys2Proof.Safety

/-- The state `y` when the channels of all but the newest six of the release entries `l` are free. -/
def withoutOldest (l : List Release) (y : State) : State :=
  { y with trunks := Tab.ofFn fun k => { y.trunks.get k with channels := freed k (oldest l) (y.trunks.get k).channels } }

/-- After a commit the room with anchor `a` has the release set `l` and its trunks have the channels of `y`. -/
def Leaves (t : State) (rp : Repartition) (a : Segment) (l : List Release) (y : State) : Prop :=
  (t.mixes.get a).release = l ∧ ∀ k ∈ component rp.target a, (t.trunks.get k).channels = (y.trunks.get k).channels

theorem withoutOldest_channels (l : List Release) (y : State) (k : TrunkId) :
    ((withoutOldest l y).trunks.get k).channels = freed k (oldest l) (y.trunks.get k).channels := by
  rw [withoutOldest, Tab.get_ofFn]

theorem afterHeads_channels {y : State} {a : Segment} {n : Nat} (hn : n ≤ (y.floors.get a).queue.length) (k : TrunkId) :
    ((afterHeads y a n).trunks.get k).channels = claimAll k (heads y a n) (y.trunks.get k).channels := by
  obtain ⟨-, -, -, -, channels, -⟩ := afterHeads_fields n hn
  exact channels k

theorem builtState_eq (s t : State) (rp : Repartition) (a : Segment) :
    { atTurn s t rp a with floors := s.floors.set a (builtFloor (atTurn s t rp a) rp a) } = builtState s t rp a := by
  rw [builtState, State.withFloor, (atTurn_frame t rp a).1]

theorem builtState_channels (s t : State) (rp : Repartition) (a : Segment) (k : TrunkId) :
    ((builtState s t rp a).trunks.get k).channels = (s.trunks.get k).channels := by
  rw [builtState, State.withFloor, (atTurn_frame t rp a).2.1]

section
variable {s v w t : State} {rp : Repartition} {order : List CommitShare} {a : Segment}
  (h : QuietCommit order s rp t v w) (hrooms : roomsOk s) (hrp : s.repartition = some rp) (hs : Homed .current s)
  (hm : membersOf t = membersOf (rebuilt rp s)) (ht : Homed .current t) (ha : a ∈ newRooms s rp.target)
include h hrooms hrp hm ht ha

/-- Where nobody is trimmed. -/
theorem QuietCommit.few_leaves (hg : (gathered s rp a).speakers.length ≤ 10) :
    if isBeforeFloor order .mix then
      Leaves t rp a (ungranted (heads (builtState s t rp a) a (grantsAt s t rp a))
          (newest (sortBy releaseBefore (gatheredRelease s rp a))))
        (afterHeads (withoutOldest (sortBy releaseBefore (gatheredRelease s rp a)) (builtState s t rp a)) a (grantsAt s t rp a))
    else
      Leaves t rp a
        (newest (sortBy releaseBefore
          (ungranted (heads (builtState s t rp a) a (grantsAt s t rp a)) (gatheredRelease s rp a))))
        (withoutOldest (sortBy releaseBefore
            (ungranted (heads (builtState s t rp a) a (grantsAt s t rp a)) (gatheredRelease s rp a)))
          (afterHeads (builtState s t rp a) a (grantsAt s t rp a))) := by
  obtain ⟨⟨few, -⟩, -⟩ := h.room ha
  split
  · next hmix =>
    obtain ⟨release, channels⟩ := h.few_mixFirst hrooms hrp hm ht ha hg hmix
    refine ⟨release, fun k hk => ?_⟩
    have few' : grantsAt s t rp a ≤ ((withoutOldest (sortBy releaseBefore (gatheredRelease s rp a))
        (builtState s t rp a)).floors.get a).queue.length := few
    rw [channels k hk, afterHeads_channels few', withoutOldest_channels, builtState_channels]
    rfl
  · next hmix =>
    obtain ⟨release, channels⟩ := h.few_mixLast hrooms hrp hm ht ha hg (Bool.not_eq_true _ ▸ hmix)
    refine ⟨release, fun k hk => ?_⟩
    rw [channels k hk, withoutOldest_channels, afterHeads_channels few, builtState_channels]

include hs

/-- Where speakers are trimmed. -/
theorem QuietCommit.many_leaves (hmany : 10 < (gathered s rp a).speakers.length) (hb : floorsBounded s)
    (hok : releasesOk s rp.affected) :
    Leaves t rp a (newest (sortBy releaseBefore (gatheredRelease s rp a) ++ fallenAt s t rp a))
      (withoutOldest (sortBy releaseBefore (gatheredRelease s rp a) ++ fallenAt s t rp a) s) := by
  have made : (t.mixes.get a).release = newest (sortBy releaseBefore (gatheredRelease s rp a) ++ fallenAt s t rp a) ∧
      ∀ k ∈ component rp.target a, (t.trunks.get k).channels =
        freed k (oldest (sortBy releaseBefore (gatheredRelease s rp a) ++ fallenAt s t rp a)) (s.trunks.get k).channels := by
    cases hmix : isBeforeFloor order .mix with
    | true => exact h.many_mixFirst hrooms hrp hs hm ht ha hmany hok hmix
    | false => exact h.many_mixLast hrooms hrp hs hm ht ha hmany hb hok hmix
  obtain ⟨release, channels⟩ := made
  exact ⟨release, fun k hk => (channels k hk).trans (withoutOldest_channels ..).symm⟩

end

end Sys2Proof.Machine
end


section
/-! Settles O46: what a commit makes of the floor entries, holds, release entries and channels (R57, R92 to R95, R160). -/

namespace Sys2Proof.Machine
open Sys2Proof.Safety

/-! ### The notices -/

/-- Of two shares one comes first. -/
theorem beforeIn_total {l : List CommitShare} {x y : CommitShare} (hx : x ∈ l) (hy : y ∈ l) (hxy : x ≠ y) :
    beforeIn l x y = true ∨ beforeIn l y x = true := by
  induction l with
  | nil => cases hx
  | cons c l ih =>
    by_cases hcx : c = x
    · subst hcx
      left
      rw [beforeIn, List.takeWhile_cons, if_pos (bne_iff_ne.mpr hxy)]
      simp
    by_cases hcy : c = y
    · subst hcy
      right
      rw [beforeIn, List.takeWhile_cons, if_pos (bne_iff_ne.mpr (Ne.symm hxy))]
      simp
    have hx' : x ∈ l := (List.mem_cons.mp hx).resolve_left (Ne.symm hcx)
    have hy' : y ∈ l := (List.mem_cons.mp hy).resolve_left (Ne.symm hcy)
    rw [beforeIn, List.takeWhile_cons, if_pos (bne_iff_ne.mpr hcy), beforeIn, List.takeWhile_cons,
      if_pos (bne_iff_ne.mpr hcx), List.contains_cons, List.contains_cons]
    exact (ih hx' hy').imp (fun h => by rw [show l.takeWhile (fun c => c != y) |>.contains x from h, Bool.or_true])
      fun h => by rw [show l.takeWhile (fun c => c != x) |>.contains y from h, Bool.or_true]

/-- The event `e` is the last that a commit replays, in the share of trunk `k`. -/
structure LastHeld (order : List CommitShare) (s : State) (k : TrunkId) (held : List HeldEvent) (e : HeldEvent) : Prop where
  intake : (s.trunks.get k).intake = held ++ [e]
  empty : ∀ j, isBefore order (.trunk k) (.trunk j) = true → (s.trunks.get j).intake = []

section
variable {s : State} {rp : Repartition} {order : List CommitShare} {k k' : TrunkId} {held held' : List HeldEvent}
  {e e' : HeldEvent}

theorem LastHeld.unique (h : LastHeld order s k held e) (h' : LastHeld order s k' held' e') :
    k = k' ∧ held = held' ∧ e = e' := by
  have first (hk : isBefore order (.trunk k) (.trunk k') = true) : False := by
    have := h'.intake.symm.trans (h.empty k' hk)
    simp at this
  have second (hk : isBefore order (.trunk k') (.trunk k) = true) : False := by
    have := h.intake.symm.trans (h'.empty k hk)
    simp at this
  have same : k = k' := by
    by_contra hne
    exact (beforeIn_total (trunk_mem_shareOrder order k) (trunk_mem_shareOrder order k')
      fun h => hne (CommitShare.trunk.inj h)).elim first second
  subst same
  have lists := h.intake.symm.trans h'.intake
  obtain ⟨rfl, single⟩ := List.append_inj' lists rfl
  exact ⟨rfl, rfl, List.singleton_inj.mp single⟩

variable (hheld : s.held = false) (hrooms : roomsOk s) (hrp : s.repartition = some rp) (hs : Homed .current s)
  (hready : ∀ a ∈ rp.affected, a ∈ rp.ready)
include hheld hrooms hrp hs hready

/-- The notices of a commit: of one that replays no event those of the floors, of another that of its last event at the end. -/
theorem commitStep_sent (order : List CommitShare) :
    ∃ sent, (startTransmitters (commitStep order rp s)).ports = (conclude s sent none).ports ∧
      ((∀ k, (s.trunks.get k).intake = []) → sent.filter (fun n => isFloorNotice n.2) =
        (newRooms s rp.target).flatMap (turnSent s (commitStep order rp s) rp)) ∧
      ∀ k ∈ movedBy s rp, ∀ held e, LastHeld order s k held e → segmentOf e.seat = k → nextRooms s rp = [] →
        ∃ u, exec (.commit order) (s.withIntake k held) = .next u ∧
          ReplayedLast s (isBefore order .mix (.trunk k)) k e (startTransmitters (commitStep order rp s)) sent u := by
  by_cases hlast : ∃ k held e, k ∈ movedBy s rp ∧ LastHeld order s k held e ∧ segmentOf e.seat = k ∧ nextRooms s rp = []
  · obtain ⟨k, held, e, hk, last, hseg, hnext⟩ := hlast
    obtain ⟨sent, u, ports, exec_eq, replayed⟩ :=
      commitStep_replayed hheld hrooms hrp hready hnext hk last.intake hseg last.empty
    refine ⟨sent, ports, fun quiet => ?_, fun k' _ held' e' last' _ _ => ?_⟩
    · have := last.intake.symm.trans (quiet k)
      simp at this
    · obtain ⟨rfl, rfl, rfl⟩ := last.unique last'
      exact ⟨u, exec_eq, replayed⟩
  · have vacuous (sent : List Sent) : ∀ k ∈ movedBy s rp, ∀ held e, LastHeld order s k held e → segmentOf e.seat = k →
        nextRooms s rp = [] → ∃ u, exec (.commit order) (s.withIntake k held) = .next u ∧
          ReplayedLast s (isBefore order .mix (.trunk k)) k e (startTransmitters (commitStep order rp s)) sent u :=
      fun k hk held e last hseg hnext => absurd ⟨k, held, e, hk, last, hseg, hnext⟩ hlast
    by_cases quiet : ∀ k, (s.trunks.get k).intake = []
    · obtain ⟨v, w, h⟩ := commitStep_quiet hrooms hrp hs order quiet
      obtain ⟨l, ports, sent⟩ := h.notices
      exact ⟨l, startTransmitters_delivered ports, fun _ => sent, vacuous l⟩
    · obtain ⟨progress, -⟩ := underway_commitStep hrooms hrp order
      obtain ⟨l, ports, -⟩ := progress.ports
      rw [sendAll_ports] at ports
      exact ⟨_, startTransmitters_delivered ports, fun h => absurd h quiet, vacuous _⟩

end

/-- Settles O46: clause by clause, the shares taken in whatever order. -/
theorem commitMovesEntries : Obligations.CommitMovesEntries := by
  intro order s rp hheld hrp hrooms hentries hreleases hready
  have hs := homed_of_ok hrooms hentries hreleases
  have exec_eq := exec_commit hheld hrp hready order
  obtain ⟨sent, ports, floors_sent, replayed⟩ := commitStep_sent hheld hrooms hrp hs hready order
  obtain ⟨progress, -⟩ := underway_commitStep hrooms hrp order
  have members : membersOf (commitStep order rp s) = membersOf (rebuilt rp s) := funext progress.members
  have homed := commitStep_homed hrooms hrp order hs
  have deserted {a : Segment} (ha : a ∈ rp.affected) (hn : a ∉ newRooms s rp.target) :=
    commitStep_deserted hrooms hrp hs.housed order ha hn
  have released {a : Segment} (ha : a ∈ rp.affected) (hn : a ∉ newRooms s rp.target) :=
    commitStep_no_release hrooms hrp hs order ha hn
  have intakes := commitStep_intakes hrooms hrp order
  have quiet_commit := commitStep_quiet hrooms hrp hs order
  have asked {a k} := commitStep_asked (s := s) (rp := rp) (a := a) (k := k) (order := order) hrooms hrp hs
  rw [startedAt_shareOrder, List.contains_iff_mem.mpr (mem_shareOrder order (by decide))] at progress
  refine ⟨startTransmitters (commitStep order rp s), sent, exec_eq, ports, ?_⟩
  generalize commitStep order rp s = t at *
  have at_room (k : TrunkId) : isDraining t (roomOf t k) = (nextRooms s rp).contains (anchorIn rp.target k) := by
    rw [progress.drains_next hrooms hrp, progress.roomOf hrooms hrp]
  intro news moved quiet grants
  refine ⟨fun a ha hn => ⟨(deserted ha hn).floor, released ha hn⟩, fun k hk => ⟨?_, ?_⟩, fun hq => ?_, fun hq => ?_, fun hq a ha => ?_,
    fun a ha k hk hone others => ?_, fun k hk held e hi hseg hnone empty => ?_⟩
  · have holding := progress.held_trunk hrooms hrp (fun k => List.contains_iff_mem.mpr (trunk_mem_shareOrder order k)) k
    have moves : (movedBy s rp).contains k = true := List.contains_iff_mem.mpr hk
    rw [moves, Bool.not_true, Bool.false_and, Bool.or_false, progress.roomOf hrooms hrp, ← at_room] at holding
    exact holding
  · have intake := intakes k hk (trunk_mem_shareOrder order k)
    rw [← at_room] at intake
    exact intake
  · exact floors_sent hq
  · obtain ⟨v, w, h⟩ := quiet_commit hq
    exact h.counts
  · obtain ⟨v, w, h⟩ := quiet_commit hq
    intro x g mode built n release entries kept fallen freeing leaves
    have built_eq : built = builtState s t rp a := builtState_eq s t rp a
    obtain ⟨advances, floor, refusals⟩ := h.room ha
    have kept_eq : kept = ungranted (heads (builtState s t rp a) a n) := by
      rw [← built_eq]
      rfl
    rw [kept_eq, built_eq]
    refine ⟨advances, floor, refusals, fun hg => h.few_leaves hrooms hrp members homed ha hg, fun hg => ?_⟩
    obtain ⟨-, full, ten⟩ := h.many_floor hrooms hrp hs ha hg
    exact ⟨full, ten, fun hb hok => h.many_leaves hrooms hrp hs members homed ha hg hb hok⟩
  · intro g f events hg hm hd hn hcap hpool hask
    have steady : (nextRooms s rp).contains a = false := by
      rw [← progress.drains_next hrooms hrp]
      exact hd
    obtain ⟨floor, pool⟩ := asked hone hg hm hk others steady hn hcap hpool hask
    exact ⟨floor, pool⟩
  · have hnext : nextRooms s rp = [] := by
      by_contra hne
      have plan := progress.next_plan.symm.trans hnone
      rw [if_neg hne] at plan
      cases plan
    obtain ⟨u, exec_u, v, sentU, sentV, exec_v, rest⟩ := replayed k hk held e ⟨hi, empty⟩ hseg hnext
    exact ⟨u, v, sentU, sentV, exec_u, exec_v, rest⟩

end Sys2Proof.Machine
end
